-- ==== Sys2Proof/Word.lean ====
section
/-! DEFINITION. The plain number types of the WE416 model: bytes, Show Clock times and the indices of
00_scope.md "Indices". -/

namespace Sys2Proof

/-- One byte of show memory or of a link frame. -/
abbrev Byte := BitVec 8

/-- A reading of the Show Clock in microseconds (00_scope "Time"). -/
abbrev Time := Nat

/-- Screens, and their links, are numbered 0..15. -/
abbrev Screen16 := Fin 16

/-- Language streams are numbered 0..7. -/
abbrev Lang := Fin 8

/-- Display levels are numbered 0..7, level 0 having the highest priority. -/
abbrev Level := Fin 8

/-- Directive slots are numbered 0..15. -/
abbrev Slot := Fin 16

/-- All screens in ascending order. -/
def allScreens : List Screen16 := [0, 1, 2, 3, 4, 5, 6, 7, 8, 9, 10, 11, 12, 13, 14, 15]

/-- All languages in ascending order. -/
def allLangs : List Lang := [0, 1, 2, 3, 4, 5, 6, 7]

/-- All levels in ascending order. -/
def allLevels : List Level := [0, 1, 2, 3, 4, 5, 6, 7]

/-- Round half up of a non-negative quotient (R1). -/
def roundHalfUp (n d : Nat) : Nat := (2 * n + d) / (2 * d)

/-- Round half away from zero of a signed quotient (R1). -/
def roundHalfAway (n : Int) (d : Nat) : Int :=
  if 0 ≤ n then (roundHalfUp n.toNat d : Int) else -(roundHalfUp (-n).toNat d : Int)

/-- A quotient rounded up, for the durations of the per-screen status (11_record_formats.md). -/
def ceilDiv (n d : Nat) : Nat := (n + d - 1) / d

end Sys2Proof
end

