-- ==== Sys2Proof/Syntax.lean ====
section
/-! DEFINITION. The 65 commands of the WE416, one constructor for each row of spec/opcode_table.json.
Every command but a power-on reset carries the Show Clock time at which the part takes it (log entry 1).
The answers of the memory port carry the bytes the bus returned (log entry 4). The directive rows carry
no parameters of their own: the kind and the parameter words are the private copy that the scan read
from the slot (R166, R187; log entry 7). -/

namespace Sys2Proof

/-- The six lines of the desk port (R155). -/
inductive Line
  | beat | downbeat | go | back | blank | freeze
  deriving DecidableEq, Repr

/-- One command of the part. -/
inductive Instr
  /-- POWER_ON_RESET (R180): the sampled desk inputs (bit order of the status: BEAT, DOWNBEAT, GO, BACK,
  BLANK, FREEZE) and the sampled carrier inputs, bit s for link s. -/
  | powerOnReset (lines : BitVec 6) (carriers : BitVec 16)
  /-- RESET (R178, R181): a write of `value` to CONTROL with the RESET bit set. -/
  | reset (t : Time) (value : BitVec 32)
  /-- SCAN (R186): a write of `value` to CONTROL with SCAN set and RESET clear. -/
  | scan (t : Time) (value : BitVec 32)
  /-- BASE (R181): a write of `value` to BASE. -/
  | base (t : Time) (value : BitVec 32)
  /-- CAUSE (R181, R182): a write of `value` to CAUSE. -/
  | cause (t : Time) (value : BitVec 32)
  /-- REGISTER_WRITE_IGNORED (R181). -/
  | registerWriteIgnored (t : Time) (address value : BitVec 32)
  /-- SCAN_TIMER (R186). -/
  | scanTimer (t : Time)
  /-- SCAN_STATE_READ (R187): the 4 bytes of a slot's state word. -/
  | scanStateRead (t : Time) (data : List Byte)
  /-- SCAN_SLOT_READ (R187): 32 of the 64 bytes of a POSTED slot. -/
  | scanSlotRead (t : Time) (data : List Byte)
  /-- UNKNOWN_KIND (R166). -/
  | unknownKind (t : Time)
  /-- LOAD (R168). -/
  | load (t : Time)
  /-- ARM (R169). -/
  | arm (t : Time)
  /-- PAUSE (R171). -/
  | pause (t : Time)
  /-- RESUME (R173). -/
  | resume (t : Time)
  /-- STOP (R174). -/
  | stop (t : Time)
  /-- LOCATE (R170). -/
  | locate (t : Time)
  /-- NOTICE (R176). -/
  | notice (t : Time)
  /-- CLEAR (R130). -/
  | clear (t : Time)
  /-- SET MASK (R115). -/
  | setMask (t : Time)
  /-- SET LAYOUT (R114). -/
  | setLayout (t : Time)
  /-- SET SCREEN (R132). -/
  | setScreen (t : Time)
  /-- SET MIRROR (R133). -/
  | setMirror (t : Time)
  /-- PROBE SCREEN (R152). -/
  | probeScreen (t : Time)
  /-- AMEND CUE (R177). -/
  | amendCue (t : Time)
  /-- INVALIDATE (R108). -/
  | invalidate (t : Time)
  /-- WARM (R107). -/
  | warm (t : Time)
  /-- SELECT COUNTERS (R137). -/
  | selectCounters (t : Time)
  /-- CLEAR COUNTERS (R137). -/
  | clearCounters (t : Time)
  /-- RESULT_WORDS_WRITE (R188). -/
  | resultWordsWrite (t : Time)
  /-- DONE_WRITE (R188). -/
  | doneWrite (t : Time)
  /-- SWEEP_STATE_READ (R189): the 4 bytes of a slot's state word. -/
  | sweepStateRead (t : Time) (data : List Byte)
  /-- LOAD_READ_COMPLETE (R16): up to 32 bytes of the script. -/
  | loadReadComplete (t : Time) (data : List Byte)
  /-- OFFER_READ_COMPLETE (R67): the 32 bytes of a cue record. -/
  | offerReadComplete (t : Time) (data : List Byte)
  /-- AMEND_READ_COMPLETE (R177): the 32 bytes of a cue record. -/
  | amendReadComplete (t : Time) (data : List Byte)
  /-- FETCH_ACCESS_COMPLETE (R105): the 32 bytes of two descriptors. -/
  | fetchAccessComplete (t : Time) (data : List Byte)
  /-- CANCELLED_READ_COMPLETE (R109): its bytes are discarded. -/
  | cancelledReadComplete (t : Time)
  /-- JOURNAL_RECORD_WRITE (R191). -/
  | journalRecordWrite (t : Time)
  /-- JOURNAL_COUNT_WRITE (R191). -/
  | journalCountWrite (t : Time)
  /-- STATUS_TIMER (R192). -/
  | statusTimer (t : Time)
  /-- STATUS_WRITE (R193). -/
  | statusWrite (t : Time)
  /-- ACCESS_TIMEOUT (R185). -/
  | accessTimeout (t : Time)
  /-- LATE_ANSWER (R185): `ofAbandoned` says that it answers the access a soft reset abandoned, for which
  the port is still held. -/
  | lateAnswer (t : Time) (ofAbandoned : Bool)
  /-- BEAT (R156): a rising edge. -/
  | beat (t : Time)
  /-- DOWNBEAT (R156, R43): a rising edge. -/
  | downbeat (t : Time)
  /-- GO (R156, R59): a rising edge. -/
  | go (t : Time)
  /-- BACK (R156, R70): a rising edge. -/
  | back (t : Time)
  /-- BLANK (R156, R129): a rising edge. -/
  | blank (t : Time)
  /-- LINE_FALLING_EDGE (R156): on an edge line. -/
  | lineFallingEdge (t : Time) (line : Line)
  /-- FREEZE (R157): an edge that leaves the input at `active`. -/
  | freeze (t : Time) (active : Bool)
  /-- FREEZE_WINDOW_END (R157). -/
  | freezeWindowEnd (t : Time)
  /-- LOCKOUT_END (R47). -/
  | lockoutEnd (t : Time)
  /-- BEAT_TIMEOUT (R38). -/
  | beatTimeout (t : Time)
  /-- FIRE_TIMER (R83): of the armed entry of this cue index and pass. -/
  | fireTimer (t : Time) (cue pass : Nat)
  /-- RELEASE_TIMER (R117). -/
  | releaseTimer (t : Time) (screen : Screen16)
  /-- DWELL_TIMER (R121). -/
  | dwellTimer (t : Time) (screen : Screen16)
  /-- NOTICE_TIMER (R128). -/
  | noticeTimer (t : Time) (screen : Screen16)
  /-- CARRIER_UP (R141). -/
  | carrierUp (t : Time) (link : Screen16)
  /-- CARRIER_LOSS (R141). -/
  | carrierLoss (t : Time) (link : Screen16)
  /-- HELLO_RETRY_TIMER (R142). -/
  | helloRetryTimer (t : Time) (link : Screen16)
  /-- HELLO_REPLY (R143): an admitted frame's tag, capability byte, F in ms and slot capacity. -/
  | helloReply (t : Time) (link : Screen16) (tag caps : Byte) (fade capacity : Nat)
  /-- DONE (R148): an admitted frame's tag. -/
  | done (t : Time) (link : Screen16) (tag : Byte)
  /-- REFUSED (R149): an admitted frame's tag and reason byte. -/
  | refused (t : Time) (link : Screen16) (tag reason : Byte)
  /-- FRAME_DISCARDED (R197). -/
  | frameDiscarded (t : Time) (link : Screen16)
  /-- FRAME_GAP_TIMEOUT (R197). -/
  | frameGapTimeout (t : Time) (link : Screen16)
  /-- REPLY_TIMER (R150). -/
  | replyTimer (t : Time) (link : Screen16)
  deriving DecidableEq, Repr

/-- The Show Clock time a command carries; a power-on reset starts the clock at 0 (R180). -/
def Instr.time : Instr → Time
  | .powerOnReset _ _ => 0
  | .reset t _ => t
  | .scan t _ => t
  | .base t _ => t
  | .cause t _ => t
  | .registerWriteIgnored t _ _ => t
  | .scanTimer t => t
  | .scanStateRead t _ => t
  | .scanSlotRead t _ => t
  | .unknownKind t => t
  | .load t => t
  | .arm t => t
  | .pause t => t
  | .resume t => t
  | .stop t => t
  | .locate t => t
  | .notice t => t
  | .clear t => t
  | .setMask t => t
  | .setLayout t => t
  | .setScreen t => t
  | .setMirror t => t
  | .probeScreen t => t
  | .amendCue t => t
  | .invalidate t => t
  | .warm t => t
  | .selectCounters t => t
  | .clearCounters t => t
  | .resultWordsWrite t => t
  | .doneWrite t => t
  | .sweepStateRead t _ => t
  | .loadReadComplete t _ => t
  | .offerReadComplete t _ => t
  | .amendReadComplete t _ => t
  | .fetchAccessComplete t _ => t
  | .cancelledReadComplete t => t
  | .journalRecordWrite t => t
  | .journalCountWrite t => t
  | .statusTimer t => t
  | .statusWrite t => t
  | .accessTimeout t => t
  | .lateAnswer t _ => t
  | .beat t => t
  | .downbeat t => t
  | .go t => t
  | .back t => t
  | .blank t => t
  | .lineFallingEdge t _ => t
  | .freeze t _ => t
  | .freezeWindowEnd t => t
  | .lockoutEnd t => t
  | .beatTimeout t => t
  | .fireTimer t _ _ => t
  | .releaseTimer t _ => t
  | .dwellTimer t _ => t
  | .noticeTimer t _ => t
  | .carrierUp t _ => t
  | .carrierLoss t _ => t
  | .helloRetryTimer t _ => t
  | .helloReply t _ _ _ _ _ => t
  | .done t _ _ => t
  | .refused t _ _ _ => t
  | .frameDiscarded t _ => t
  | .frameGapTimeout t _ => t
  | .replyTimer t _ => t

end Sys2Proof
end

