-- ==== Sys2Proof/Config.lean ====
section
/-! DEFINITION. The fixed numbers of the WE416: periods, bounds and widths that its rules state. The
spec leaves no value open for the implementation, so there is no opaque constant here. -/

namespace Sys2Proof.Config

/-- The scan timer is re-armed 4,000 µs after each expiry (R186). -/
def scanPeriod : Nat := 4000
/-- The status timer is re-armed 50,000 µs after each expiry (R192). -/
def statusPeriod : Nat := 50000
/-- An access with no answer 100 µs after its grant is faulted (R185). -/
def accessLimit : Nat := 100
/-- Edges less than 8,000 µs after the last accepted edge are debounced (R156, R157). -/
def debounce : Nat := 8000
/-- The noise lockout lasts 2,000,000 µs (R46). -/
def lockoutLength : Nat := 2000000
/-- Eight bounces in a run start a lockout (R46). -/
def bounceLimit : Nat := 8
/-- Eight synthetic beats in a run make the tracker LOST (R39). -/
def syntheticLimit : Nat := 8
/-- The period estimate lies in 150,000..3,000,000 µs (R28). -/
def periodMin : Nat := 150000
/-- Upper bound of the period estimate (R28). -/
def periodMax : Nat := 3000000
/-- The period estimate after either reset (R25). -/
def periodReset : Nat := 500000
/-- The jitter ring holds at most 8 intervals (R33). -/
def ringSize : Nat := 8
/-- The pass number is held at 255 (R56). -/
def passMax : Nat := 255
/-- The armed cue list holds at most 32 entries (R75). -/
def armedMax : Nat := 32
/-- The cue history holds at most 16 entries (R69). -/
def historyMax : Nat := 16
/-- Outstanding cues offered ahead in a CALLED section (R65). -/
def calledWindow : Nat := 4
/-- The allocation wait queue holds at most 256 items (R103). -/
def waitQueueMax : Nat := 256
/-- The minimum dwell is capped at 8,000,000 µs (R125). -/
def dwellCap : Nat := 8000000
/-- HELLO is re-sent every 1,000,000 µs (R142). -/
def helloRetry : Nat := 1000000
/-- Base of the reply timer (R147). -/
def replyBase : Nat := 250000
/-- The journal queue holds at most 16 records (R190). -/
def journalQueueMax : Nat := 16
/-- Statistics counters saturate here (00_scope "Counters"). -/
def counterMax : Nat := 4294967295
/-- 32-bit counts that wrap do so here (R190, R180). -/
def wrap32 : Nat := 4294967296
/-- The first byte address beyond show memory (00_scope "Show memory"). -/
def memoryEnd : Nat := 16777216
/-- The control block is 16,384 bytes (R183). -/
def controlBlock : Nat := 16384
/-- The late tolerance after either reset (R74). -/
def lateToleranceReset : Nat := 20000
/-- The look-ahead after either reset (R53). -/
def lookAheadReset : Nat := 8
/-- The longest gap between two bytes of a frame (R197). -/
def frameGap : Nat := 1000

end Sys2Proof.Config
end

