-- ==== Sys2Proof/Machine/State.lean ====
section
/-! DEFINITION. Everything the spec gives the WE416 to hold, block by block, as plain data, with its value
after a power-on reset. The field tables are R25, R53, R74, R75, R100, R113, R118, R139, R155, R164 and
R180. A docstring that says MODEL marks a field the model adds. -/

namespace Sys2Proof.Machine

/-! ### The score map (01_the_score_map.md) -/

/-- How a section is timed (R3). -/
inductive Mode
  | beat | called
  deriving DecidableEq, Repr

/-- A section record (R3). -/
structure Section where
  firstBar : Nat
  barCount : Nat
  firstCue : Nat
  cueCount : Nat
  mode : Mode
  vamp : Bool
  nominal : Nat
  dwellPercent : Nat
  versions : BitVec 16
  deriving DecidableEq, Repr

/-- A bar record (R5). `mark` is 0 for no tempo mark, else in units of 100 µs. -/
structure Bar where
  beats : Nat
  fermata : Bool
  mark : Nat
  deriving DecidableEq, Repr

/-- What the Score Walker keeps of a loaded script (R2, R14). -/
structure Script where
  sectionCount : Nat
  barCount : Nat
  cueCount : Nat
  speakerCount : Nat
  cueTable : Nat
  sections : List Section
  bars : List Bar
  /-- Prefix lengths, speaker i + 1 at index i (R11). -/
  speakers : List Nat
  deriving DecidableEq, Repr

/-- TITLE puts a title up, BLANK takes one down (R7). -/
inductive Action
  | title | blank
  deriving DecidableEq, Repr

/-- What a cue's appearance time is measured from, with the fields that anchor uses (R8). -/
inductive Anchor
  | position (bar beat tick : Nat)
  | follow (delay : Nat)
  | go
  deriving DecidableEq, Repr

/-- In a vamp, FIRST-PASS cues are offered on pass 1 alone (R7). -/
inductive PassRule
  | firstPass | everyPass
  deriving DecidableEq, Repr

/-- A cue's transition override (R7). -/
inductive TransOverride
  | default | cut
  deriving DecidableEq, Repr

/-- A checked cue record (R7, R8, R10). For a BLANK cue `title`, `langs`, `speaker` and `dwellOverride`
are the record's bytes, unchecked and without effect. -/
structure Cue where
  number : Nat
  action : Action
  anchor : Anchor
  level : Level
  passRule : PassRule
  override : TransOverride
  langs : BitVec 8
  scope : BitVec 16
  title : Nat
  speaker : Nat
  dwellOverride : Nat
  deriving DecidableEq, Repr

/-! ### Titles (05_title_descriptors.md) -/

/-- The key of a descriptor: title number and language. -/
structure Key where
  title : Nat
  lang : Lang
  deriving DecidableEq, Repr

/-- One line of a title: language, renderer handle, character count. -/
structure Tuple where
  lang : Lang
  handle : BitVec 32
  chars : Nat
  deriving DecidableEq, Repr

/-- The result an armed entry or a NOTICE holds for a key (R75, R89). -/
inductive KeyResult
  | pending
  | present (handle : BitVec 32) (chars : Nat)
  | absent
  | faulted
  deriving DecidableEq, Repr

/-- The state of a cache entry (R100). FETCHING carries how far its fetch is: `access` 0..3 read the
primary group and 4..7 the secondary one, and `queued` says that this access has been made to the memory
port (it is not while the way holds a cancelled read, R109). -/
inductive EntryState
  | fetching (access : Nat) (queued : Bool)
  | valid (handle : BitVec 32) (chars : Nat)
  | absent
  deriving DecidableEq, Repr

/-- An entry of the descriptor cache (R100). -/
structure CacheEntry where
  key : Key
  state : EntryState
  pins : Nat
  deriving DecidableEq, Repr

/-- A way of the cache: free or one entry, and whether it holds a cancelled read (R100, R109). -/
structure Way where
  entry : Option CacheEntry
  cancelled : Bool
  deriving DecidableEq, Repr

/-- A set of the cache with its pseudo-LRU marks (R101). `pairMark` false names the first pair; `mark0`
false names way 0; `mark1` false names way 2. -/
structure CacheSet where
  ways : Vector Way 4
  pairMark : Bool
  mark0 : Bool
  mark1 : Bool
  deriving DecidableEq, Repr

/-- An item of the allocation wait queue (R103). -/
structure WaitItem where
  key : Key
  joined : Time
  pins : Nat
  deriving DecidableEq, Repr

/-- The Descriptor Unit (R100, R103, R111, R112). -/
structure Descriptors where
  sets : Vector CacheSet 32
  queue : List WaitItem
  /-- Title table address and group exponent k, held from a LOAD that ended OK. -/
  table : Option (Nat × Nat)
  hits : Nat
  misses : Nat
  deriving DecidableEq, Repr

/-! ### Beat tracking (02_beat_tracking.md) -/

/-- The tracker states (R26). -/
inductive TrackerState
  | suspended | locking | tracking | freewheel | lost
  deriving DecidableEq, Repr

/-- The regularity of the recent intervals (R25, R34). -/
inductive Confidence
  | steady | loose | erratic
  deriving DecidableEq, Repr

/-- The facts of the bar that holds B (R25). `mark` is 0 for no tempo mark. -/
structure BarFacts where
  beats : Nat
  beatInBar : Nat
  fermata : Bool
  mark : Nat
  deriving DecidableEq, Repr

/-- The Beat Tracker (R25). -/
structure Tracker where
  state : TrackerState
  /-- The show beat B. -/
  beat : Nat
  tLast : Time
  bReal : Nat
  tReal : Time
  /-- The period estimate E. -/
  period : Nat
  /-- The jitter ring, oldest first. -/
  ring : List Nat
  confidence : Confidence
  absorb : Nat
  counted : Bool
  synthetic : Nat
  bounces : Nat
  /-- The beat timeout's expiry, or none while stopped. -/
  timeout : Option Time
  /-- The noise lockout's end time, or none while off. -/
  lockout : Option Time
  facts : BarFacts
  /-- The smoothing weight w (R49). -/
  weight : Nat
  deriving DecidableEq, Repr

/-! ### Walking the score (03_walking_the_score.md) -/

/-- The section in force (R53): none, an entry of the running order, or END. -/
inductive InForce
  | none
  | sec (index : Nat)
  | endOfShow
  deriving DecidableEq, Repr

/-- The position of the walked beat (R53). -/
structure Position where
  sec : Nat
  pass : Nat
  bar : Nat
  beat : Nat
  deriving DecidableEq, Repr

/-- The offer cursor (R62). `origin` is none in a CALLED section. A `cue` equal to the end of the section's
cues stands at the end of the pass. -/
structure Cursor where
  sec : Nat
  pass : Nat
  origin : Option Int
  cue : Nat
  deriving DecidableEq, Repr

/-- An entry of the cue history (R69). -/
structure HistoryEntry where
  cue : Nat
  number : Nat
  sec : Nat
  pass : Nat
  level : Level
  override : TransOverride
  screens : BitVec 16
  tuples : List Tuple
  speaker : Option Nat
  dwellPercent : Nat
  dwellOverride : Option Nat
  deriving DecidableEq, Repr

/-- The Score Walker (R53). -/
structure Walker where
  script : Option Script
  order : Option (List Nat)
  lookAhead : Nat
  inForce : InForce
  pass : Nat
  origin : Int
  walked : Option Nat
  position : Option Position
  exitFlag : Bool
  cursor : Option Cursor
  waiting : Option Int
  reading : Bool
  lastHanded : Option (Nat × Nat)
  fireCursor : Option Nat
  calledOffers : Nat
  owedGo : Option Time
  /-- The cue history, top first. -/
  history : List HistoryEntry
  /-- Implied by R58 and R67 step 3: cue index and pass of each cue dropped or passed over since
  positioning (log entry 18). -/
  unhanded : List (Nat × Nat)
  /-- MODEL (log entry 19): the cue at the cursor has been read, and is held back until its section's
  condition lets it be read again. -/
  heldBack : Bool
  deriving DecidableEq, Repr

/-! ### Cue timing (04_cue_timing.md) -/

/-- The timing states of an armed entry (R77). -/
inductive Timing
  | waiting | gated | timed | due
  deriving DecidableEq, Repr

/-- An entry of the armed cue list (R75). -/
structure Armed where
  cue : Nat
  pass : Nat
  sec : Nat
  copy : Cue
  dwellPercent : Nat
  /-- Target beat b and target tick τ of a POSITION cue. -/
  target : Option (Int × Nat)
  /-- The appearance time A. -/
  appear : Option Time
  /-- The fire time T. -/
  fire : Option Time
  /-- The cue lead L_c. -/
  lead : Option Nat
  timing : Timing
  keys : List (Key × KeyResult)
  /-- The keys on which this requester's pin is gone, since one was answered FAULTED (R106). -/
  unpinned : List Key
  deriving DecidableEq, Repr

/-- The fire record (R74). -/
structure FireRecord where
  cue : Nat
  pass : Nat
  appear : Time
  deriving DecidableEq, Repr

/-- What the tracker last handed over (R74). -/
structure TrackerView where
  state : TrackerState
  confidence : Confidence
  beat : Nat
  absorb : Nat
  tLast : Time
  period : Nat
  fermata : Bool
  deriving DecidableEq, Repr

/-- The Cue Scheduler (R74). -/
structure Scheduler where
  armed : List Armed
  lateTolerance : Nat
  fireRecord : Option FireRecord
  /-- FREEZE asserted. -/
  freeze : Bool
  view : TrackerView
  deriving DecidableEq, Repr

/-! ### Screens (06_screen_arbitration.md) -/

/-- What a display entry or a request is of: a cue (index and number) or a notice title number (R118). -/
inductive Ident
  | cue (index number : Nat)
  | notice (number : Nat)
  deriving DecidableEq, Repr

/-- The kinds of request (R116). Display entries are never of kind BLANK. -/
inductive ReqKind
  | title | notice | blank
  deriving DecidableEq, Repr

/-- A request waiting at a screen (R90, R92, R70, R128). `deferred` is the mark of R121. -/
structure Request where
  level : Level
  kind : ReqKind
  ident : Ident
  tuples : List Tuple
  speaker : Option Nat
  dwellPercent : Nat
  dwellOverride : Option Nat
  override : TransOverride
  release : Time
  operator : Bool
  /-- Notice end time. -/
  endTime : Option Time
  deferred : Bool
  deriving DecidableEq, Repr

/-- An entry of a display stack (R118). `isNotice` is its kind. -/
structure Entry where
  isNotice : Bool
  ident : Ident
  tuples : List Tuple
  speaker : Option Nat
  dwellPercent : Nat
  dwellOverride : Option Nat
  override : TransOverride
  minDwell : Option Nat
  visibleSince : Option Time
  endTime : Option Time
  /-- MODEL (log entry 31): tells the entry apart from every other entry ever made (R118). -/
  serial : Nat
  deriving DecidableEq, Repr

/-- The on-screen record (R113). -/
inductive OnScreen
  | unknown
  | blank
  | entry (level : Level) (serial : Nat)
  deriving DecidableEq, Repr

/-- Preferred and resolved transitions (R132, R144). -/
inductive Transition
  | cut | fade | cross
  deriving DecidableEq, Repr

/-- Prefix modes (R124). -/
inductive PrefixMode
  | off | on | change
  deriving DecidableEq, Repr

/-- The events a screen can count (R136). -/
inductive CountEvent
  | shown | skipped | late | preempted | deferred | refused | faults
  deriving DecidableEq, Repr

/-- A layout: four slots, each a language or EMPTY (R114). -/
abbrev Layout := Vector (Option Lang) 4

/-- One screen (R113). -/
structure Screen where
  layout : Layout
  staged : Option Layout
  /-- Bit L set: level L is masked. Bit 0 is always clear. -/
  mask : BitVec 8
  pendingAt : Vector (Option Request) 8
  stack : Vector (Option Entry) 8
  onScreen : OnScreen
  blankPending : Bool
  clearOwed : Bool
  releaseTimer : Option Time
  dwellTimer : Option Time
  noticeTimer : Option Time
  latency : Nat
  preferred : Transition
  prefixMode : PrefixMode
  lastSpeaker : Option Nat
  selectors : Vector CountEvent 3
  counters : Vector Nat 3
  deriving DecidableEq, Repr

/-- One line slot of a SHOW: the language the layout names and the handle, each or EMPTY (R146). -/
structure SlotContent where
  lang : Option Lang
  handle : Option (BitVec 32)
  deriving DecidableEq, Repr

/-- A SHOW or a CLEAR as the arbiter gives it to a link (R124, R146), before the link resolves its
transition and clamps its slots. `subject` is the level, identity and serial of the entry sent. -/
structure Message where
  isShow : Bool
  slots : Vector SlotContent 4
  speaker : Option Nat
  drawPrefix : Bool
  override : TransOverride
  subject : Option (Level × Ident × Nat)
  deriving DecidableEq, Repr

/-- The Screen Arbiter (R113). -/
structure Arbiter where
  screens : Vector Screen 16
  /-- The mirror pair: source, monitor. -/
  mirror : Option (Screen16 × Screen16)
  hold : Option Message
  /-- Dwell base of the script held, 0 with no script (R125). -/
  dwellBase : Nat
  dwellPerChar : Nat
  /-- MODEL (log entry 31): the serial number the next display entry takes. -/
  entrySerial : Nat
  deriving DecidableEq, Repr

/-! ### Links (07_screen_links.md) -/

/-- The link states (R140). -/
inductive LinkState
  | down | probing | ready | busy | faulted
  deriving DecidableEq, Repr

/-- Renderer capabilities (R139). `fadeTime` is F in ms. -/
structure Caps where
  fade : Bool
  overlap : Bool
  fadeTime : Nat
  capacity : Nat
  deriving DecidableEq, Repr

/-- The messages the engine sends (R139). -/
inductive OpKind
  | helloMsg | showMsg | clearMsg
  deriving DecidableEq, Repr

/-- The operation in flight on a link (R139). -/
structure Operation where
  kind : OpKind
  tag : Byte
  transition : Transition
  sendTime : Time
  subject : Option (Level × Ident)
  deriving DecidableEq, Repr

/-- One link (R139). -/
structure Link where
  state : LinkState
  carrier : Bool
  caps : Option Caps
  tag : Byte
  op : Option Operation
  replyTimer : Option Time
  retryTimer : Option Time
  ignored : Nat
  hellos : Nat
  deriving DecidableEq, Repr

/-! ### Desk port (08_the_desk_port.md) -/

/-- What the Desk Port holds for one line (R155). -/
structure LinePort where
  level : Bool
  lastEdge : Option Time
  accepted : Nat
  debounced : Nat
  ignored : Nat
  deriving DecidableEq, Repr

/-- The Desk Port (R155). Lines stand in the order BEAT, DOWNBEAT, GO, BACK, BLANK, FREEZE. -/
structure Desk where
  lines : Vector LinePort 6
  freezeLevel : Bool
  freezeWindow : Option Time
  deriving DecidableEq, Repr

/-! ### Show Control (09_show_control.md) -/

/-- The engine states (R165). -/
inductive EngineState
  | idle | loading | loaded | armed | running | pausing | paused | ended
  deriving DecidableEq, Repr

/-- The memory weight (R184). -/
inductive Weight
  | grants (n : Nat)
  | strict
  deriving DecidableEq, Repr

/-- The arming parameters (R164). -/
structure Arming where
  version : Option Nat
  start : Option Nat
  smoothing : Nat
  lookAhead : Nat
  lateTolerance : Nat
  weight : Weight
  deriving DecidableEq, Repr

/-- Outcome codes (R166), in the order of their codes 1..9. -/
inductive OutcomeCode
  | ok | partialDone | refusedState | refusedParameter | scriptRejected | memoryFault | noCarrier
  | abandoned | unknownKind
  deriving DecidableEq, Repr

/-- The tables of a script (R16), in the order of their codes 1..6. -/
inductive TableName
  | header | sec | bar | cue | speaker | title
  deriving DecidableEq, Repr

/-- Fault codes of the script checks (R16), in the order of their codes 1..10. -/
inductive FaultCode
  | signature | count | extent | overlap | range | coverage | mode | position | order | speaker
  deriving DecidableEq, Repr

/-- The header values LOAD reads (R2). -/
structure Header where
  sectionCount : Nat
  barCount : Nat
  cueCount : Nat
  speakerCount : Nat
  sectionTable : Nat
  barTable : Nat
  cueTable : Nat
  speakerTable : Nat
  titleTable : Nat
  exponent : Nat
  dwellBase : Nat
  dwellPerChar : Nat
  deriving DecidableEq, Repr

/-- How far a LOAD has read (R16). `table` is the table being read and `next` the byte of it that the
outstanding access starts at. `lastPosition` is the nearest earlier POSITION cue of the section being
read: section, bar, beat, tick (R22). -/
structure LoadWork where
  headerAddress : Nat
  table : TableName
  next : Nat
  buffer : List Byte
  header : Header
  sections : List Section
  bars : List Bar
  speakers : List Nat
  lastPosition : Option (Nat × Nat × Nat × Nat)
  deriving DecidableEq, Repr

/-- A NOTICE waiting for its keys (R176). -/
structure NoticeWork where
  title : Nat
  level : Level
  duration : Nat
  screens : BitVec 16
  keys : List (Key × KeyResult)
  deriving DecidableEq, Repr

/-- The work still outstanding of the directive in progress (R164). -/
inductive Work
  | none
  | load (w : LoadWork)
  | notice (w : NoticeWork)
  | amend (cue : Nat)
  deriving DecidableEq, Repr

/-- The directive in progress (R164). -/
structure Progress where
  slot : Slot
  kind : Nat
  words : List Nat
  work : Work
  deriving DecidableEq, Repr

/-- Show Control (R164). -/
structure Control where
  engine : EngineState
  progress : Option Progress
  heldPause : Option Slot
  arming : Arming
  deriving DecidableEq, Repr

/-! ### Shared Memory Interface (10_shared_memory_interface.md) -/

/-- The five CAUSE flags, or their enables (R182). -/
structure Cause where
  directive : Bool
  journal : Bool
  screen : Bool
  tracker : Bool
  memory : Bool
  deriving DecidableEq, Repr

/-- The classes of an access (R184). -/
inductive AccessClass
  | urgent | background
  deriving DecidableEq, Repr

/-- What an access is for: it names its requester and the step its answer is. -/
inductive Purpose
  | scanState (slot : Slot)
  | scanSlot (slot : Slot) (second : Bool)
  | take (slot : Slot)
  | resultWords (slot : Slot)
  | doneWord (slot : Slot)
  | sweepState (slot : Slot)
  | sweepResults (slot : Slot)
  | sweepDone (slot : Slot)
  | load
  /-- An offer read; `discarded` is set when its result is to be discarded (R68). -/
  | offer (discarded : Bool)
  | amend
  | fetch (set : Fin 32) (way : Fin 4)
  | journalRecord
  | journalCount
  | status
  deriving DecidableEq, Repr

/-- What a requester adds to a MEMORY FAULT record (R185, 11_record_formats.md): table code, language, title
number or index, the two group addresses, and whether the secondary group was being read. -/
structure FaultDetail where
  table : Nat
  lang : Nat
  index : Nat
  group1 : Nat
  group2 : Nat
  secondary : Bool
  deriving DecidableEq, Repr

/-- An access to show memory (R184): a read of `length` bytes, or a write of the bytes given. -/
structure Access where
  purpose : Purpose
  address : Nat
  length : Nat
  write : Option (List Byte)
  cls : AccessClass
  detail : FaultDetail
  deriving DecidableEq, Repr

/-- The access in flight (R185). `abandoned` says that a soft reset abandoned it and the port is held. -/
structure InFlight where
  access : Access
  granted : Time
  abandoned : Bool
  deriving DecidableEq, Repr

/-- The memory port (R180, R184). -/
structure Port where
  urgent : List Access
  background : List Access
  inFlight : Option InFlight
  weight : Weight
  counter : Nat
  deriving DecidableEq, Repr

/-- The contents of a journal record (11_record_formats.md "Journal records"), less its sequence number and
time. Coded fields hold the code. -/
inductive Journal
  | cueFired (pass sec action anchor cue number : Nat) (screens : BitVec 16) (appear fire : Time)
  | cueLate (pass cue number lateness : Nat)
  | cueRejected (reason cue number passed : Nat)
  | titleSkipped (screen : Screen16) (level : Level) (kind : ReqKind) (reason old new : Nat)
  | titleRefused (screen : Screen16) (message reason level : Nat) (tag : Byte) (number : Nat)
  | descriptorMissing (lang : Lang) (reason cue number title : Nat)
  | memoryFault (requester length : Nat) (write background secondary : Bool) (address table lang index group1 group2 : Nat)
  | trackerState (old new cause beat period : Nat)
  | barCorrection (m n : Nat) (amount : Int) (beat : Nat)
  | sectionEntered (mode pass cause sec : Nat) (origin : Int) (beat : Nat)
  | linkState (screen : Screen16) (old new cause message : Nat) (tag : Byte) (caps fade : Nat) (sendTime : Time)
  | engineState (old new cause slot line outcome : Nat)
  | deskIgnored (line reason engine sec beat : Nat)
  deriving DecidableEq, Repr

/-- A journal record (R190). -/
structure JournalRecord where
  seq : Nat
  time : Time
  body : Journal
  deriving DecidableEq, Repr

/-- Which write of the oldest journal record is outstanding (R191). -/
inductive JournalPhase
  | idle | record | count
  deriving DecidableEq, Repr

/-- An outcome handed back (R188): its two writes are in flight, or it is unwritten. -/
structure OutcomeRecord where
  slot : Slot
  code : OutcomeCode
  results : List Nat
  writing : Bool
  deriving DecidableEq, Repr

/-- The scan in progress (R187, R189). `left` counts the slots still to be read, this one included. -/
inductive Scan
  | idle
  | outcomes (faulted : Bool)
  | sweepRead (slot : Slot)
  | sweepResults (slot : Slot)
  | sweepDone (slot : Slot)
  | search (slot : Slot) (left : Nat)
  | slotRead (slot : Slot) (left : Nat) (firstHalf : List Byte)
  | take (slot : Slot) (kind : Nat) (words : List Nat)
  deriving DecidableEq, Repr

/-- The refresh state (R193): `rest` are the writes (offset, bytes) still to be queued. -/
inductive Refresh
  | idle
  | writing (rest : List (Nat × List Byte)) (owed : Bool)
  deriving DecidableEq, Repr

/-- The Shared Memory Interface (R180). -/
structure Interface where
  base : Nat
  flags : Cause
  enables : Cause
  scanTimer : Time
  scanRequest : Bool
  rotation : Slot
  sweepPending : Bool
  /-- Outcomes handed back and not yet written, in the order handed back (R188). -/
  outcomes : List OutcomeRecord
  scan : Scan
  port : Port
  journalCount : Nat
  journalQueue : List JournalRecord
  journalPhase : JournalPhase
  journalLost : Nat
  statusTimer : Time
  refresh : Refresh
  refreshTag : Nat
  deriving DecidableEq, Repr

/-! ### The machine -/

/-- The whole state of the part. -/
structure State where
  /-- The Show Clock. -/
  clock : Time
  smi : Interface
  ctl : Control
  desk : Desk
  trk : Tracker
  wlk : Walker
  sch : Scheduler
  du : Descriptors
  arb : Arbiter
  links : Vector Link 16
  /-- MODEL (log entry 32): the frames that the last command put on the link transmit lines, in order. -/
  sent : List (Screen16 × List Byte)
  /-- The commands waiting, first in first out. -/
  pending : List Instr
  deriving DecidableEq, Repr

/-- The reasons a step can stop with a fault: none. Every event the spec describes, a faulted memory access
or link among them, is a next state (R150, R185). Safe: a type with no value claims nothing. -/
inductive Fault
  deriving DecidableEq, Repr

/-- The reasons a command can be refused. -/
inductive Refusal
  /-- A command that has no meaning yet; raised by an arm of exec alone. Safe: the machine stops where the
  hardware goes on. No arm of this model raises it. -/
  | notModelled (mnemonic : String)
  deriving DecidableEq, Repr

/-! ### Reset values -/

/-- No flag set. -/
def Cause.none : Cause := { directive := false, journal := false, screen := false, tracker := false, memory := false }

/-- R25, R49. -/
def Tracker.reset : Tracker :=
  { state := .suspended, beat := 0, tLast := 0, bReal := 0, tReal := 0, period := Config.periodReset,
    ring := [], confidence := .loose, absorb := 0, counted := false, synthetic := 0, bounces := 0,
    timeout := .none, lockout := .none, facts := { beats := 1, beatInBar := 1, fermata := false, mark := 0 },
    weight := 3 }

/-- R53. -/
def Walker.reset : Walker :=
  { script := .none, order := .none, lookAhead := Config.lookAheadReset, inForce := .none, pass := 1,
    origin := 0, walked := .none, position := .none, exitFlag := false, cursor := .none, waiting := .none,
    reading := false, lastHanded := .none, fireCursor := .none, calledOffers := 0, owedGo := .none,
    history := [], unhanded := [], heldBack := false }

/-- R74. -/
def Scheduler.reset : Scheduler :=
  { armed := [], lateTolerance := Config.lateToleranceReset, fireRecord := .none, freeze := false,
    view := { state := .suspended, confidence := .loose, beat := 0, absorb := 0, tLast := 0,
              period := Config.periodReset, fermata := false } }

/-- R100, R101. -/
def CacheSet.reset : CacheSet :=
  { ways := Vector.replicate 4 { entry := .none, cancelled := false },
    pairMark := false, mark0 := false, mark1 := false }

/-- R100, R112. -/
def Descriptors.reset : Descriptors :=
  { sets := Vector.replicate 32 CacheSet.reset, queue := [], table := .none, hits := 0, misses := 0 }

/-- R113. -/
def Screen.reset : Screen :=
  { layout := Vector.replicate 4 .none, staged := .none, mask := 0, pendingAt := Vector.replicate 8 .none,
    stack := Vector.replicate 8 .none, onScreen := .unknown, blankPending := false, clearOwed := false,
    releaseTimer := .none, dwellTimer := .none, noticeTimer := .none, latency := 0, preferred := .cut,
    prefixMode := .off, lastSpeaker := .none, selectors := #v[.shown, .skipped, .late],
    counters := Vector.replicate 3 0 }

/-- R113. -/
def Arbiter.reset : Arbiter :=
  { screens := Vector.replicate 16 Screen.reset, mirror := .none, hold := .none, dwellBase := 0,
    dwellPerChar := 0, entrySerial := 0 }

/-- R139, with carrier absent (log entry 5). -/
def Link.reset : Link :=
  { state := .down, carrier := false, caps := .none, tag := 0, op := .none, replyTimer := .none,
    retryTimer := .none, ignored := 0, hellos := 0 }

/-- R155 for a line whose input is sampled at the level given. -/
def LinePort.reset (level : Bool) : LinePort :=
  { level := level, lastEdge := .none, accepted := 0, debounced := 0, ignored := 0 }

/-- R155, with every input sampled inactive (log entry 5). -/
def Desk.reset : Desk :=
  { lines := Vector.replicate 6 (LinePort.reset false), freezeLevel := false, freezeWindow := .none }

/-- R164. -/
def Arming.reset : Arming :=
  { version := .none, start := .none, smoothing := 3, lookAhead := Config.lookAheadReset,
    lateTolerance := Config.lateToleranceReset, weight := .grants 8 }

/-- R164. -/
def Control.reset : Control :=
  { engine := .idle, progress := .none, heldPause := .none, arming := Arming.reset }

/-- R180. -/
def Port.reset : Port :=
  { urgent := [], background := [], inFlight := .none, weight := .grants 8, counter := 0 }

/-- R180, after a power-on reset. -/
def Interface.reset : Interface :=
  { base := 0, flags := Cause.none, enables := Cause.none, scanTimer := Config.scanPeriod,
    scanRequest := false, rotation := 15, sweepPending := true, outcomes := [], scan := .idle,
    port := Port.reset, journalCount := 0, journalQueue := [], journalPhase := .idle, journalLost := 0,
    statusTimer := Config.statusPeriod, refresh := .idle, refreshTag := 0 }

/-- The part right after a power-on reset with every desk input inactive and no carrier (log entry 5). -/
def State.reset : State :=
  { clock := 0, smi := Interface.reset, ctl := Control.reset, desk := Desk.reset, trk := Tracker.reset,
    wlk := Walker.reset, sch := Scheduler.reset, du := Descriptors.reset, arb := Arbiter.reset,
    links := Vector.replicate 16 Link.reset, sent := [], pending := [] }

end Sys2Proof.Machine
end

