-- ==== Sys2Proof/Machine/Bytes.lean ====
section
/-! DEFINITION. Little-endian fields (00_scope "Show memory", 11_record_formats.md) and the codes of
enumerations: those a table of Record Formats codes keep its codes, all others are numbered from 1 in the
order their rule lists them, with 0 for none (R194). -/

namespace Sys2Proof.Machine

/-- `n` bytes holding the low 8·n bits of `v`, least significant first. -/
def le : Nat → Nat → List Byte
  | 0, _ => []
  | n + 1, v => BitVec.ofNat 8 v :: le n (v / 256)

/-- `n` bytes holding `v` in two's complement, least significant first. -/
def leInt (n : Nat) (v : Int) : List Byte := le n (v % ((256 ^ n : Nat) : Int)).toNat

/-- `n` bytes of 0 (R194: bytes that no field names are written as 0). -/
def zeros (n : Nat) : List Byte := List.replicate n 0

/-- The unsigned number in byte `i`. -/
def u8 (d : List Byte) (i : Nat) : Nat := (d.getD i 0).toNat

/-- The unsigned number in bytes `i`, `i + 1`. -/
def u16 (d : List Byte) (i : Nat) : Nat := u8 d i + 256 * u8 d (i + 1)

/-- The unsigned number in bytes `i` .. `i + 3`. -/
def u32 (d : List Byte) (i : Nat) : Nat := u16 d i + 65536 * u16 d (i + 2)

/-- The `n` bytes of `d` from byte `i` on. -/
def slice (d : List Byte) (i n : Nat) : List Byte := (d.drop i).take n

/-- A list cut into pieces of `k` elements; `fuel` bounds the number of pieces. -/
def chunks (fuel k : Nat) (d : List Byte) : List (List Byte) :=
  match fuel with
  | 0 => []
  | n + 1 => if d.isEmpty then [] else d.take k :: chunks n k (d.drop k)

/-- 1 for true. -/
def bit (b : Bool) : Nat := if b then 1 else 0

/-- A record of 32 bytes: its named bytes, then 0. -/
def padTo (n : Nat) (d : List Byte) : List Byte := (d ++ zeros n).take n

/-- The low 32 bits of a saturating or wrapping count. -/
def low32 (n : Nat) : Nat := n % Config.wrap32

/-! ### Codes -/

/-- R25, R26. -/
def TrackerState.code : TrackerState → Nat
  | .suspended => 1 | .locking => 2 | .tracking => 3 | .freewheel => 4 | .lost => 5

/-- R25. -/
def Confidence.code : Confidence → Nat
  | .steady => 1 | .loose => 2 | .erratic => 3

/-- R77. -/
def Timing.code : Timing → Nat
  | .waiting => 1 | .gated => 2 | .timed => 3 | .due => 4

/-- R165. -/
def EngineState.code : EngineState → Nat
  | .idle => 1 | .loading => 2 | .loaded => 3 | .armed => 4 | .running => 5 | .pausing => 6 | .paused => 7
  | .ended => 8

/-- R140. -/
def LinkState.code : LinkState → Nat
  | .down => 1 | .probing => 2 | .ready => 3 | .busy => 4 | .faulted => 5

/-- Outcome codes (11_record_formats.md "Directive slots"). -/
def OutcomeCode.code : OutcomeCode → Nat
  | .ok => 1 | .partialDone => 2 | .refusedState => 3 | .refusedParameter => 4 | .scriptRejected => 5
  | .memoryFault => 6 | .noCarrier => 7 | .abandoned => 8 | .unknownKind => 9

/-- Table codes (11_record_formats.md "Directive slots"). -/
def TableName.code : TableName → Nat
  | .header => 1 | .sec => 2 | .bar => 3 | .cue => 4 | .speaker => 5 | .title => 6

/-- Fault codes 1..10 in the order of the fault table of R16. -/
def FaultCode.code : FaultCode → Nat
  | .signature => 1 | .count => 2 | .extent => 3 | .overlap => 4 | .range => 5 | .coverage => 6 | .mode => 7
  | .position => 8 | .order => 9 | .speaker => 10

/-- The lines in the order of R155, from 1. -/
def lineCode : Line → Nat
  | .beat => 1 | .downbeat => 2 | .go => 3 | .back => 4 | .blank => 5 | .freeze => 6

/-- The place of a line in the Desk Port. -/
def lineIndex : Line → Fin 6
  | .beat => 0 | .downbeat => 1 | .go => 2 | .back => 3 | .blank => 4 | .freeze => 5

/-- Section record byte 14 (R194). -/
def Mode.code : Mode → Nat
  | .beat => 0 | .called => 1

/-- Cue record byte 2 (R194). -/
def Action.code : Action → Nat
  | .title => 0 | .blank => 1

/-- Cue record byte 3 (R194). -/
def Anchor.code : Anchor → Nat
  | .position _ _ _ => 0 | .follow _ => 1 | .go => 2

/-- Transition codes (11_record_formats.md "Screen-link messages"). -/
def Transition.code : Transition → Nat
  | .cut => 0 | .fade => 1 | .cross => 2

/-- Memory weight, 0 for STRICT. -/
def Weight.code : Weight → Nat
  | .grants n => n | .strict => 0

/-- TITLE and NOTICE are numbered from 1 (R118); a BLANK is never journalled as skipped (R116). -/
def ReqKind.code : ReqKind → Nat
  | .title => 1 | .notice => 2 | .blank => 3

/-- The message kinds of the links (11_record_formats.md "Screen-link messages"). -/
def OpKind.code : OpKind → Nat
  | .helloMsg => 1 | .showMsg => 2 | .clearMsg => 3

/-- The cue number or notice title number that names an entry or a request in records (R116, R149). -/
def Ident.number : Ident → Nat
  | .cue _ n => n
  | .notice n => n

/-- Byte 5 of the per-screen status less its link state: capabilities held, FADE, OVERLAP, slot capacity
minus 1. -/
def capsBits : Option Caps → Nat
  | none => 0
  | some c => 8 + 16 * bit c.fade + 32 * bit c.overlap + 64 * ((c.capacity - 1) % 4)

/-- The section in force in records and status: 65,535 for END and for none. -/
def InForce.code : InForce → Nat
  | .none => 65535 | .sec n => n | .endOfShow => 65535

end Sys2Proof.Machine
end

