-- ==== Sys2Proof/Machine/JournalFormat.lean ====
section
/-! DEFINITION. The 32 bytes of a journal record (11_record_formats.md "Journal records"). -/

namespace Sys2Proof.Machine

/-- The kind byte of a journal record. -/
def Journal.kind : Journal → Nat
  | .cueFired .. => 1 | .cueLate .. => 2 | .cueRejected .. => 3 | .titleSkipped .. => 4
  | .titleRefused .. => 5 | .descriptorMissing .. => 6 | .memoryFault .. => 7 | .trackerState .. => 8
  | .barCorrection .. => 9 | .sectionEntered .. => 10 | .linkState .. => 11 | .engineState .. => 12
  | .deskIgnored .. => 13

/-- Bytes 5, 6 and 7 of a journal record. -/
def Journal.small : Journal → Nat × Nat × Nat
  | .cueFired pass sec action anchor _ _ _ _ _ => (pass, sec, action + 2 * anchor)
  | .cueLate pass _ _ _ => (pass, 0, 0)
  | .cueRejected reason _ _ _ => (reason, 0, 0)
  | .titleSkipped screen level kind reason _ _ => (screen.val, level.val, kind.code + 4 * reason)
  | .titleRefused screen message reason _ _ _ => (screen.val, message, reason)
  | .descriptorMissing lang reason _ _ _ => (lang.val, reason, 0)
  | .memoryFault requester length write background secondary _ _ _ _ _ _ =>
      (requester, length, bit write + 2 * bit background + 4 * bit secondary)
  | .trackerState old new cause _ _ => (old, new, cause)
  | .barCorrection m n _ _ => (m, n, 0)
  | .sectionEntered mode pass cause _ _ _ => (mode, pass, cause)
  | .linkState screen old new _ _ _ _ _ _ => (screen.val, old, new)
  | .engineState old new cause _ _ _ => (old, new, cause)
  | .deskIgnored line reason engine _ _ => (line, reason, engine)

/-- Bytes 16 to 31 of a journal record produced at time `t`. -/
def Journal.rest (t : Time) : Journal → List Byte
  | .cueFired _ _ _ _ cue number screens appear fire =>
      le 2 cue ++ le 2 number ++ le 2 screens.toNat ++ zeros 2 ++ leInt 4 ((appear : Int) - (t : Int)) ++
      leInt 4 ((fire : Int) - (t : Int))
  | .cueLate _ cue number lateness => le 2 cue ++ le 2 number ++ zeros 4 ++ le 4 lateness
  | .cueRejected _ cue number passed => le 2 cue ++ le 2 number ++ le 2 passed
  | .titleSkipped _ _ _ _ old new => le 2 old ++ le 2 new
  | .titleRefused _ _ _ level tag number => le 1 level ++ [tag] ++ le 2 number
  | .descriptorMissing _ _ cue number title => le 2 cue ++ le 2 number ++ le 2 title
  | .memoryFault _ _ _ _ _ address table lang index group1 group2 =>
      le 4 address ++ le 1 table ++ le 1 lang ++ le 2 index ++ le 4 group1 ++ le 4 group2
  | .trackerState _ _ _ beat period => le 4 beat ++ le 4 period
  | .barCorrection _ _ amount beat => leInt 4 amount ++ le 4 beat
  | .sectionEntered _ _ _ sec origin beat => le 2 sec ++ zeros 2 ++ leInt 4 origin ++ le 4 beat
  | .linkState _ _ _ cause message tag caps fade sendTime =>
      le 1 cause ++ le 1 message ++ [tag] ++ le 1 caps ++ le 2 fade ++ zeros 2 ++ le 8 sendTime
  | .engineState _ _ _ slot line outcome => le 1 slot ++ le 1 line ++ le 1 outcome
  | .deskIgnored _ _ _ sec beat => le 2 sec ++ zeros 2 ++ le 4 beat

/-- The 32 bytes of a journal record: sequence number, kind, three small fields, time, the rest; bytes no
field names are 0 (R194). -/
def JournalRecord.bytes (r : JournalRecord) : List Byte :=
  padTo 32 (le 4 r.seq ++ le 1 r.body.kind ++ le 1 r.body.small.1 ++ le 1 r.body.small.2.1 ++
    le 1 r.body.small.2.2 ++ le 8 r.time ++ r.body.rest r.time)

end Sys2Proof.Machine
end

