-- ==== Sys2Proof/Machine/Flags.lean ====
section
/-! DEFINITION. The CAUSE flags and the IRQ line (R181, R182), saturating counters (00_scope "Counters"),
the readings of the register port (R181), and the confidence computed from the jitter ring (R34). -/

namespace Sys2Proof.Machine

/-- The names of the five CAUSE flags (R182). -/
inductive CauseFlag
  | directive | journal | screen | tracker | memory
  deriving DecidableEq, Repr

/-- A flag set. Setting a flag already set changes nothing (R182). -/
def Cause.setFlag (c : Cause) : CauseFlag → Cause
  | .directive => { c with directive := true }
  | .journal => { c with journal := true }
  | .screen => { c with screen := true }
  | .tracker => { c with tracker := true }
  | .memory => { c with memory := true }

/-- Sets a CAUSE flag (R182). -/
def State.setCause (f : CauseFlag) (s : State) : State :=
  { s with smi := { s.smi with flags := s.smi.flags.setFlag f } }

/-- The IRQ output: asserted while at least one flag is set together with its enable (R182). -/
def State.irq (s : State) : Bool :=
  (s.smi.flags.directive && s.smi.enables.directive) || (s.smi.flags.journal && s.smi.enables.journal) ||
  (s.smi.flags.screen && s.smi.enables.screen) || (s.smi.flags.tracker && s.smi.enables.tracker) ||
  (s.smi.flags.memory && s.smi.enables.memory)

/-- Five flags as bits 0..4 in the order of Record Formats. -/
def Cause.bits (c : Cause) : Nat :=
  bit c.directive + 2 * bit c.journal + 4 * bit c.screen + 8 * bit c.tracker + 16 * bit c.memory

/-- Flags written as 1 in the low half of a CAUSE write are cleared (R181). -/
def Cause.clearBits (c : Cause) (v : BitVec 32) : Cause :=
  { directive := c.directive && !v.getLsbD 0, journal := c.journal && !v.getLsbD 1,
    screen := c.screen && !v.getLsbD 2, tracker := c.tracker && !v.getLsbD 3,
    memory := c.memory && !v.getLsbD 4 }

/-- The five enables in bits 16..20 of a CAUSE write (R181). -/
def Cause.ofHigh (v : BitVec 32) : Cause :=
  { directive := v.getLsbD 16, journal := v.getLsbD 17, screen := v.getLsbD 18, tracker := v.getLsbD 19,
    memory := v.getLsbD 20 }

/-- Bits 14..23 of a BASE write; the others are taken as 0 (R181). -/
def baseOf (v : BitVec 32) : Nat := v.toNat / 16384 % 1024 * 16384

/-- What a read of a register address returns (R181, 11_record_formats.md "Registers"). Reading changes
nothing. -/
def State.readRegister (s : State) (address : BitVec 32) : BitVec 32 :=
  if address = 0 then BitVec.ofNat 32 (416 + 65536)
  else if address = 1 then BitVec.ofNat 32 s.smi.base
  else if address = 2 then 0
  else if address = 3 then BitVec.ofNat 32 (s.smi.flags.bits + 65536 * s.smi.enables.bits)
  else 0

/-- A statistics counter rises by 1 and saturates at 4,294,967,295 (R137, 00_scope "Counters"). -/
def bump (n : Nat) : Nat := if n < Config.counterMax then n + 1 else Config.counterMax

/-- The distance of an interval from the estimate. -/
def deviation (e i : Nat) : Nat := if e ≤ i then i - e else e - i

/-- The mean deviation J of a non-empty ring (R34). -/
def meanDeviation (ring : List Nat) (e : Nat) : Nat :=
  (ring.map (deviation e)).sum / ring.length

/-- The confidence of a ring under the estimate `e` (R34). -/
def confidenceOf (ring : List Nat) (e : Nat) : Confidence :=
  if ring.length < 4 then .loose
  else if 16 * meanDeviation ring e ≤ e then .steady
  else if 8 * meanDeviation ring e ≤ e then .loose
  else .erratic

/-- E held to 150,000..3,000,000 µs (R28, R32). -/
def clampPeriod (e : Int) : Nat := min Config.periodMax (max Config.periodMin e.toNat)

/-- The smoothed estimate E′ of R32, step 2. -/
def smoothed (e interval w : Nat) : Nat :=
  clampPeriod ((e : Int) + roundHalfAway (((interval : Int) - (e : Int)) * (w : Int)) 8)

/-- An interval joins the newest end of the ring, and the oldest of 8 leaves it (R33). -/
def pushRing (ring : List Nat) (i : Nat) : List Nat :=
  if ring.length < Config.ringSize then ring ++ [i] else ring.drop (ring.length + 1 - Config.ringSize) ++ [i]

end Sys2Proof.Machine
end

