-- ==== Sys2Proof/Machine/Operands.lean ====
section
/-! DEFINITION. Every form in which the part reads what the host wrote: the script records with their checks
(R2 to R22, R194, R195), title descriptors (R98) and the parameter words of the directives (R167, R196). -/

namespace Sys2Proof.Machine

/-- The fault of the first check that fails (R16, R21). -/
def firstFailing : List (Bool × FaultCode) → Option FaultCode
  | [] => none
  | (ok, code) :: rest => if ok then firstFailing rest else some code

/-! ### The score header -/

/-- The header's fields at their byte positions (R194). -/
def parseHeader (d : List Byte) : Header :=
  { sectionCount := u16 d 4, speakerCount := u8 d 6, exponent := u8 d 7, barCount := u16 d 8,
    cueCount := u16 d 10, sectionTable := u32 d 12, barTable := u32 d 16, cueTable := u32 d 20,
    speakerTable := u32 d 24, titleTable := u32 d 28, dwellBase := u32 d 32, dwellPerChar := u32 d 36 }

/-- The header before it has been read. -/
def Header.blank : Header :=
  { sectionCount := 0, barCount := 0, cueCount := 0, speakerCount := 0, sectionTable := 0, barTable := 0,
    cueTable := 0, speakerTable := 0, titleTable := 0, exponent := 0, dwellBase := 0, dwellPerChar := 0 }

/-- The script signature W416 (R194). -/
def signatureOk (d : List Byte) : Bool := u8 d 0 == 87 && u8 d 1 == 52 && u8 d 2 == 49 && u8 d 3 == 54

/-- The header checks of R17, in its order. -/
def checkHeader (d : List Byte) : Option FaultCode :=
  let h := parseHeader d
  firstFailing
    [ (signatureOk d, .signature),
      (decide (1 ≤ h.sectionCount ∧ h.sectionCount ≤ 256), .count),
      (decide (1 ≤ h.barCount ∧ h.barCount ≤ 8192), .count),
      (decide (1 ≤ h.cueCount ∧ h.cueCount ≤ 4096), .count),
      (decide (h.speakerCount ≤ 64), .count),
      (decide (6 ≤ h.exponent ∧ h.exponent ≤ 16), .range),
      (decide (h.dwellBase ≤ 3000000), .range),
      (decide (h.dwellPerChar ≤ 200000), .range) ]

/-- A region lies aligned and within show memory (R17, R18, R195). -/
def regionFits (start length align : Nat) : Bool :=
  decide (start % align = 0) && decide (start + length ≤ Config.memoryEnd)

/-- Two regions share a byte (R18). A region of length 0 shares none. -/
def shares (a la b lb : Nat) : Bool :=
  decide (0 < la) && decide (0 < lb) && decide (a < b + lb) && decide (b < a + la)

/-- A region of R18: start, length, alignment, table reported. -/
structure Region where
  start : Nat
  length : Nat
  align : Nat
  table : TableName
  deriving DecidableEq, Repr

/-- The regions of R18 in the order of its table. -/
def regionsOf (headerAddress : Nat) (h : Header) : List Region :=
  [ ⟨headerAddress, 64, 4, .header⟩,
    ⟨h.sectionTable, 16 * h.sectionCount, 4, .sec⟩,
    ⟨h.barTable, 4 * h.barCount, 4, .bar⟩,
    ⟨h.cueTable, 32 * h.cueCount, 4, .cue⟩,
    ⟨h.speakerTable, h.speakerCount, 1, .speaker⟩,
    ⟨h.titleTable, 128 * 2 ^ h.exponent, 16, .title⟩ ]

/-- The first table, header excepted, that is misaligned or runs past show memory (R18). A speaker table of
length 0 is not checked. -/
def extentFault (regions : List Region) : Option TableName :=
  (regions.tail.find? fun r => decide (0 < r.length) && !regionFits r.start r.length r.align).map (·.table)

/-- The first region that shares a byte with the control block or with a region above it (R18). -/
def overlapFault (base : Nat) (above : List Region) : List Region → Option TableName
  | [] => none
  | r :: rest =>
    if shares r.start r.length base Config.controlBlock ||
        above.any (fun q => shares r.start r.length q.start q.length) then some r.table
    else overlapFault base (above ++ [r]) rest

/-- The region checks of R18: extents first, then overlaps. -/
def checkRegions (base headerAddress : Nat) (h : Header) : Option (TableName × FaultCode) :=
  let rs := regionsOf headerAddress h
  match extentFault rs with
  | some t => some (t, .extent)
  | none => (overlapFault base [] rs).map fun t => (t, .overlap)

/-! ### Sections, bars, speakers -/

/-- A section record's fields (R194); mode codes other than 0 are read as CALLED and checked apart. -/
def parseSection (d : List Byte) : Section :=
  { firstBar := u16 d 0, barCount := u16 d 2, firstCue := u16 d 4, cueCount := u16 d 6, nominal := u32 d 8,
    versions := BitVec.ofNat 16 (u16 d 12), mode := if u8 d 14 = 0 then .beat else .called,
    dwellPercent := u8 d 15 % 128, vamp := decide (128 ≤ u8 d 15) }

/-- The bars of all the sections given. -/
def barSum (secs : List Section) : Nat := (secs.map (·.barCount)).sum

/-- The cues of all the sections given. -/
def cueSum (secs : List Section) : Nat := (secs.map (·.cueCount)).sum

/-- The checks of R19 on a section record, after the lower sections `lower`. -/
def checkSection (lower : List Section) (d : List Byte) : Option FaultCode :=
  let x := parseSection d
  firstFailing
    [ (decide (u8 d 14 ≤ 1), .range),
      (decide (1 ≤ x.barCount ∧ x.barCount ≤ 1024), .range),
      (decide (x.cueCount ≤ 4096), .range),
      (decide (x.firstBar = barSum lower), .coverage),
      (decide (x.firstCue = cueSum lower), .coverage),
      (!(x.vamp && decide (x.mode = .called)), .mode),
      (decide (x.mode = .called) || decide (Config.periodMin ≤ x.nominal ∧ x.nominal ≤ Config.periodMax), .range),
      (decide (25 ≤ x.dwellPercent ∧ x.dwellPercent ≤ 100), .range) ]

/-- The closing coverage check of R19. -/
def coverageOk (h : Header) (secs : List Section) : Bool :=
  decide (barSum secs = h.barCount) && decide (cueSum secs = h.cueCount)

/-- A bar record's fields (R194). -/
def parseBar (d : List Byte) : Bar :=
  { beats := u8 d 0, fermata := decide (u8 d 1 = 1), mark := u16 d 2 }

/-- The checks of R20 on a bar record. -/
def checkBar (d : List Byte) : Option FaultCode :=
  firstFailing
    [ (decide (1 ≤ u8 d 0 ∧ u8 d 0 ≤ 16), .range),
      (decide (u8 d 1 ≤ 1), .range),
      (decide (u16 d 2 = 0 ∨ (1500 ≤ u16 d 2 ∧ u16 d 2 ≤ 30000)), .range) ]

/-- The check of R20 on a speaker record. -/
def checkSpeaker (n : Nat) : Option FaultCode := firstFailing [(decide (n ≤ 24), .range)]

/-! ### Cues -/

/-- The section whose cue range contains the index (R4). -/
def ownerOf (secs : List Section) (cue : Nat) : Option Section :=
  secs.find? fun x => decide (x.firstCue ≤ cue ∧ cue < x.firstCue + x.cueCount)

/-- Bar `n` of a section, from 1 (R4). -/
def barOf (bars : List Bar) (x : Section) (n : Nat) : Option Bar :=
  if 1 ≤ n ∧ n ≤ x.barCount then bars[x.firstBar + (n - 1)]? else none

/-- The anchor of a cue record whose anchor code is in range (R194). -/
def parseAnchor (d : List Byte) : Anchor :=
  if u8 d 3 = 0 then .position (u16 d 12) (u8 d 14) (u8 d 15)
  else if u8 d 3 = 1 then .follow (u32 d 16)
  else .go

/-- A cue record's fields (R194), once its record checks have passed. -/
def parseCue (d : List Byte) : Cue :=
  { number := u16 d 0, action := if u8 d 2 = 0 then .title else .blank, anchor := parseAnchor d,
    level := Fin.ofNat 8 (u8 d 4), passRule := if u8 d 5 = 0 then .firstPass else .everyPass,
    override := if u8 d 6 = 0 then .default else .cut, langs := BitVec.ofNat 8 (u8 d 7),
    scope := BitVec.ofNat 16 (u16 d 8), title := u16 d 10, speaker := u8 d 20, dwellOverride := u8 d 21 }

/-- The record checks of a cue (R21), in its order. A cue that no section owns cannot arise from a script
that passed R19; its anchor is then allowed in no mode. -/
def checkCue (secs : List Section) (bars : List Bar) (speakerCount cue : Nat) (d : List Byte) :
    Option FaultCode :=
  let owner := ownerOf secs cue
  let isPosition := decide (u8 d 3 = 0)
  let isTitle := decide (u8 d 2 = 0)
  let bar := owner.bind fun x => barOf bars x (u16 d 12)
  firstFailing
    [ (decide (u8 d 2 ≤ 1), .range),
      (decide (u8 d 3 ≤ 2), .range),
      ((match owner with
        | none => false
        | some x => match x.mode with
          | .beat => decide (u8 d 3 ≠ 2)
          | .called => decide (u8 d 3 ≠ 0)), .mode),
      (!(decide (u8 d 3 = 1) && (owner.any fun x => decide (x.firstCue = cue))), .mode),
      (decide (2 ≤ u8 d 4 ∧ u8 d 4 ≤ 7), .range),
      (decide (u8 d 5 ≤ 1), .range),
      (decide (u8 d 6 ≤ 1), .range),
      (!isPosition || decide (u8 d 15 ≤ 119), .range),
      (!isPosition || bar.isSome, .position),
      (!isPosition || (bar.any fun b => decide (1 ≤ u8 d 14 ∧ u8 d 14 ≤ b.beats)), .position),
      (!decide (u8 d 3 = 1) || decide (u32 d 16 ≤ 60000000), .range),
      (!isTitle || decide (u8 d 7 ≠ 0), .range),
      (!isTitle || decide (u8 d 20 ≤ speakerCount), .speaker),
      (!isTitle || decide (u8 d 21 ≤ 80), .range) ]

/-- One score position comes before another (R9). -/
def positionBefore (a b : Nat × Nat × Nat) : Bool :=
  decide (a.1 < b.1) || (decide (a.1 = b.1) && (decide (a.2.1 < b.2.1) ||
    (decide (a.2.1 = b.2.1) && decide (a.2.2 < b.2.2))))

/-! ### Title descriptors -/

/-- A descriptor of 16 bytes matches the key (R98): handle and character count. -/
def matchDescriptor (k : Key) (d : List Byte) : Option (BitVec 32 × Nat) :=
  if u8 d 0 % 2 = 1 ∧ u8 d 1 = k.lang.val ∧ u16 d 2 = k.title ∧ u32 d 8 ≠ 0
  then some (BitVec.ofNat 32 (u32 d 8), u8 d 4) else none

/-- The lower-numbered of the two descriptors of an access that matches (R99). -/
def matchAccess (k : Key) (d : List Byte) : Option (BitVec 32 × Nat) :=
  match matchDescriptor k (slice d 0 16) with
  | some r => some r
  | none => matchDescriptor k (slice d 16 16)

/-- The primary group h₁ of a key in a table of 2^k groups (R99). -/
def primaryGroup (key : Key) (k : Nat) : Nat := (key.title + 8191 * key.lang.val) % 2 ^ k

/-- The secondary group h₂ (R99). -/
def secondaryGroup (key : Key) (k : Nat) : Nat := 2 ^ k - 1 - primaryGroup key k

/-- The cache set of a key (05_title_descriptors "The descriptor cache"). -/
def setOf (key : Key) : Fin 32 := Fin.ofNat 32 (key.title + key.lang.val)

/-! ### Directive slots -/

/-- Parameter word `i`. -/
def word (ws : List Nat) (i : Nat) : Nat := ws.getD i 0

/-- The state byte of a slot's state word; POSTED is 1 and TAKEN is 2 (11_record_formats.md). -/
def slotState (d : List Byte) : Nat := u8 d 0

/-- The kind byte of a slot (11_record_formats.md). -/
def slotKind (d : List Byte) : Nat := u8 d 4

/-- The fourteen parameter words of a slot's 64 bytes. -/
def slotWords (d : List Byte) : List Nat :=
  [u32 d 8, u32 d 12, u32 d 16, u32 d 20, u32 d 24, u32 d 28, u32 d 32, u32 d 36, u32 d 40, u32 d 44,
   u32 d 48, u32 d 52, u32 d 56, u32 d 60]

/-- A screen parameter (R167). -/
def readScreen (w : Nat) : Option Screen16 := if h : w < 16 then some ⟨w, h⟩ else none

/-- A language parameter (R167). -/
def readLang (w : Nat) : Option Lang := if h : w < 8 then some ⟨w, h⟩ else none

/-- A slot of a layout: a language, or 255 for EMPTY (R196). -/
def readLayoutSlot (w : Nat) : Option (Option Lang) :=
  if w = 255 then some none else (readLang w).map some

/-- A screen mask word; bits above 15 are ignored (R196). -/
def screenMask (w : Nat) : BitVec 16 := BitVec.ofNat 16 w

/-- A level mask word; bits above 7 are ignored (R196). -/
def levelMask (w : Nat) : BitVec 8 := BitVec.ofNat 8 w

/-- A memory weight: 4, 8, 16, or 0 for STRICT (R196). -/
def readWeight (w : Nat) : Option Weight :=
  if w = 0 then some .strict else if w = 4 ∨ w = 8 ∨ w = 16 then some (.grants w) else none

/-- A preferred transition (11_record_formats.md). -/
def readTransition (w : Nat) : Option Transition :=
  if w = 0 then some .cut else if w = 1 then some .fade else if w = 2 then some .cross else none

/-- A prefix mode (11_record_formats.md). -/
def readPrefixMode (w : Nat) : Option PrefixMode :=
  if w = 0 then some .off else if w = 1 then some .on else if w = 2 then some .change else none

/-- A counter selector (11_record_formats.md). -/
def readSelector (w : Nat) : Option CountEvent :=
  if w = 0 then some .shown else if w = 1 then some .skipped else if w = 2 then some .late
  else if w = 3 then some .preempted else if w = 4 then some .deferred else if w = 5 then some .refused
  else if w = 6 then some .faults else none

/-- ARM's six parameters in range (R167); that the start section is in the running order is checked apart. -/
def readArm (ws : List Nat) : Option Arming :=
  if word ws 0 ≤ 15 ∧ 1 ≤ word ws 2 ∧ word ws 2 ≤ 8 ∧ 2 ≤ word ws 3 ∧ word ws 3 ≤ 32 ∧ word ws 4 ≤ 500000 then
    (readWeight (word ws 5)).map fun w =>
      { version := some (word ws 0), start := some (word ws 1), smoothing := word ws 2,
        lookAhead := word ws 3, lateTolerance := word ws 4, weight := w }
  else none

/-- NOTICE (R167): title number, level, duration in seconds, screens. -/
structure NoticeParams where
  title : Nat
  level : Level
  duration : Nat
  screens : BitVec 16
  deriving DecidableEq, Repr

/-- NOTICE's parameters in range (R167, R196). -/
def readNotice (ws : List Nat) : Option NoticeParams :=
  if word ws 0 ≤ 65535 ∧ word ws 1 ≤ 3 ∧ word ws 2 ≤ 600 ∧ screenMask (word ws 3) ≠ 0 then
    some { title := word ws 0, level := Fin.ofNat 8 (word ws 1), duration := word ws 2,
           screens := screenMask (word ws 3) }
  else none

/-- SET LAYOUT's screen and four slots (R167, R196). -/
def readLayout (ws : List Nat) : Option (Screen16 × Layout) := do
  let i ← readScreen (word ws 0)
  let a ← readLayoutSlot (word ws 1)
  let b ← readLayoutSlot (word ws 2)
  let c ← readLayoutSlot (word ws 3)
  let d ← readLayoutSlot (word ws 4)
  some (i, #v[a, b, c, d])

/-- SET SCREEN's screen, latency, preferred transition, prefix mode (R167, R196). -/
def readSettings (ws : List Nat) : Option (Screen16 × Nat × Transition × PrefixMode) := do
  let i ← readScreen (word ws 0)
  let tr ← readTransition (word ws 2)
  let pm ← readPrefixMode (word ws 3)
  if word ws 1 ≤ 200000 then some (i, word ws 1, tr, pm) else none

/-- SET MIRROR: OFF, or source and monitor, which must differ (R167, R196). -/
def readMirror (ws : List Nat) : Option (Option (Screen16 × Screen16)) :=
  if word ws 1 = 255 then some none
  else do
    let src ← readScreen (word ws 0)
    let mon ← readScreen (word ws 1)
    if src = mon then none else some (some (src, mon))

/-- INVALIDATE: all keys, or one key (R167, R196). -/
def readInvalidate (ws : List Nat) : Option (Option Key) :=
  if word ws 0 = 1 then some none
  else if word ws 0 = 0 ∧ word ws 1 ≤ 65535 then
    (readLang (word ws 2)).map fun l => some { title := word ws 1, lang := l }
  else none

/-- A WARM key word: title number in bits 0..15, language in bits 16..23, bits 24..31 zero (R196). -/
def readWarmKey (w : Nat) : Option Key :=
  (readLang (w / 65536)).map fun l => { title := w % 65536, lang := l }

/-- WARM's 1 to 8 keys (R167, R196). -/
def readWarm (ws : List Nat) : Option (List Key) :=
  if 1 ≤ word ws 0 ∧ word ws 0 ≤ 8 then (List.range (word ws 0)).mapM fun i => readWarmKey (word ws (i + 1)) else none

/-- SELECT COUNTERS' screen and three selectors (R167, R196). -/
def readSelectors (ws : List Nat) : Option (Screen16 × Vector CountEvent 3) := do
  let i ← readScreen (word ws 0)
  let a ← readSelector (word ws 1)
  let b ← readSelector (word ws 2)
  let c ← readSelector (word ws 3)
  some (i, #v[a, b, c])

/-- The engine states in which a directive is allowed (R167). -/
def allowedIn (kind : Nat) (e : EngineState) : Bool :=
  match kind with
  | 1 => e == .idle || e == .loaded || e == .ended
  | 2 => e == .loaded || e == .armed || e == .ended
  | 3 => e == .running
  | 4 => e == .paused
  | 5 => e == .armed || e == .running || e == .pausing || e == .paused
  | 6 => e == .armed || e == .paused
  | 7 => e != .idle && e != .loading
  | 8 => e != .loading
  | 9 => e != .loading
  | 10 => e != .loading
  | 11 => e != .loading
  | 12 => e != .loading
  | 13 => true
  | 14 => e != .idle && e != .loading
  | 15 => e != .loading
  | 16 => e != .idle && e != .loading
  | 17 => true
  | 18 => true
  | _ => false

end Sys2Proof.Machine
end

