-- ==== Sys2Proof/Machine/Ops.lean ====
section
/-! DEFINITION. The operations every block shares: the start of a step, the memory port with its two classes
(R184, R185), the addresses of the control block (R183), the journal (R190, R191), and the named updates of
one screen, link, desk line and cache set. -/

namespace Sys2Proof.Machine

/-! ### A step begins -/

/-- The Show Clock reaches the time of the command, and no frame has been sent yet (log entries 1, 32). -/
def State.begin (t : Time) (s : State) : State := { s with clock := max s.clock t, sent := [] }

/-! ### Named updates -/

/-- Screen `i`. -/
def State.screen (i : Screen16) (s : State) : Screen := s.arb.screens[i]

/-- Screen `i` replaced. -/
def State.setScreen (i : Screen16) (x : Screen) (s : State) : State :=
  { s with arb := { s.arb with screens := s.arb.screens.set i x } }

/-- Link `i`. -/
def State.link (i : Screen16) (s : State) : Link := s.links[i]

/-- Link `i` replaced. -/
def State.setLink (i : Screen16) (x : Link) (s : State) : State := { s with links := s.links.set i x }

/-- What the Desk Port holds for a line. -/
def State.line (l : Line) (s : State) : LinePort := s.desk.lines[lineIndex l]

/-- What the Desk Port holds for a line replaced. -/
def State.setLine (l : Line) (x : LinePort) (s : State) : State :=
  { s with desk := { s.desk with lines := s.desk.lines.set (lineIndex l) x } }

/-- Set `j` of the descriptor cache. -/
def State.cacheSet (j : Fin 32) (s : State) : CacheSet := s.du.sets[j]

/-- Set `j` of the descriptor cache replaced. -/
def State.setCacheSet (j : Fin 32) (x : CacheSet) (s : State) : State :=
  { s with du := { s.du with sets := s.du.sets.set j x } }

/-- Way `w` of set `j`. -/
def State.way (j : Fin 32) (w : Fin 4) (s : State) : Way := (s.cacheSet j).ways[w]

/-- Way `w` of set `j` replaced. -/
def State.setWay (j : Fin 32) (w : Fin 4) (x : Way) (s : State) : State :=
  s.setCacheSet j { s.cacheSet j with ways := (s.cacheSet j).ways.set w x }

/-! ### The memory port -/

/-- The port, when it is free, grants the next access by class and weight (R184). -/
def Port.grant (now : Time) (p : Port) : Port :=
  match p.inFlight with
  | some _ => p
  | none =>
    match p.urgent, p.background with
    | [], [] => p
    | u :: us, [] => { p with urgent := us, inFlight := some ⟨u, now, false⟩ }
    | [], b :: bs => { p with background := bs, inFlight := some ⟨b, now, false⟩, counter := 0 }
    | u :: us, b :: bs =>
      match p.weight with
      | .strict => { p with urgent := us, inFlight := some ⟨u, now, false⟩ }
      | .grants w =>
        if p.counter < w then
          { p with urgent := us, inFlight := some ⟨u, now, false⟩, counter := p.counter + 1 }
        else { p with background := bs, inFlight := some ⟨b, now, false⟩, counter := 0 }

/-- An access joins the queue of its class (R184). -/
def Port.push (a : Access) (p : Port) : Port :=
  match a.cls with
  | .urgent => { p with urgent := p.urgent ++ [a] }
  | .background => { p with background := p.background ++ [a] }

/-- The port updated. -/
def State.setPort (p : Port) (s : State) : State := { s with smi := { s.smi with port := p } }

/-- An access joins the queue of its class; a free port grants at once (R184, log entry 8). -/
def State.enqueue (a : Access) (s : State) : State := s.setPort ((s.smi.port.push a).grant s.clock)

/-- The access in flight has ended: the port is free and grants the next one (R184, R185). -/
def State.freePort (s : State) : State := s.setPort ({ s.smi.port with inFlight := none }.grant s.clock)

/-- The access in flight, unless a soft reset abandoned it (R185). -/
def State.inFlight (s : State) : Option Access :=
  match s.smi.port.inFlight with
  | some f => if f.abandoned then none else some f.access
  | none => none

/-- No detail added to a MEMORY FAULT record. -/
def FaultDetail.none : FaultDetail :=
  { table := 0, lang := 0, index := 0, group1 := 0, group2 := 0, secondary := false }

/-- A read of `length` bytes. -/
def Access.read (p : Purpose) (address length : Nat) (c : AccessClass) (d : FaultDetail) : Access :=
  { purpose := p, address := address, length := length, write := Option.none, cls := c, detail := d }

/-- A write of the bytes given. -/
def Access.writing (p : Purpose) (address : Nat) (bytes : List Byte) (c : AccessClass) : Access :=
  { purpose := p, address := address, length := bytes.length, write := some bytes, cls := c,
    detail := FaultDetail.none }

/-! ### The control block (R183) -/

/-- The state word of slot `i`. -/
def State.slotAddress (i : Slot) (s : State) : Nat := s.smi.base + 1024 + 64 * i.val

/-- Parameter words 10..13 of slot `i`, which take the results. -/
def State.resultAddress (i : Slot) (s : State) : Nat := s.slotAddress i + 48

/-- The place of the journal record with this sequence number (R191). -/
def State.journalAddress (seq : Nat) (s : State) : Nat := s.smi.base + 8192 + 32 * (seq % 256)

/-- The four bytes of a slot's state word (log entry 10). -/
def stateWord (st outcome : Nat) : List Byte := le 1 st ++ le 1 outcome ++ zeros 2

/-- The 16 bytes of the four result words (R188). -/
def resultBytes (ws : List Nat) : List Byte :=
  le 4 (word ws 0) ++ le 4 (word ws 1) ++ le 4 (word ws 2) ++ le 4 (word ws 3)

/-! ### The journal -/

/-- When no journal write is outstanding, the oldest record's write is queued (R191). -/
def State.startJournalWrite (s : State) : State :=
  match s.smi.journalPhase, s.smi.journalQueue with
  | .idle, r :: _ =>
    { s with smi := { s.smi with journalPhase := .record } }.enqueue
      (.writing .journalRecord (s.journalAddress r.seq) r.bytes .urgent)
  | _, _ => s

/-- A record produced at time `t`: it takes the journal count as its sequence number, and joins the queue
unless 16 records stand there (R190). -/
def State.journalAt (t : Time) (body : Journal) (s : State) : State :=
  let r : JournalRecord := { seq := s.smi.journalCount, time := t, body := body }
  let n := (s.smi.journalCount + 1) % Config.wrap32
  if s.smi.journalQueue.length < Config.journalQueueMax then
    { s with smi := { s.smi with journalCount := n, journalQueue := s.smi.journalQueue ++ [r] } }.startJournalWrite
  else { s with smi := { s.smi with journalCount := n } }

/-- A record produced now (R190). -/
def State.journal (body : Journal) (s : State) : State := s.journalAt s.clock body

end Sys2Proof.Machine
end

