-- ==== Sys2Proof/Machine/Screens.lean ====
section
/-! DEFINITION. What one screen holds, read and updated by itself: the visible and the shown top (R118), the
eligibility of a request (R117), the three timers of a screen (R117, R121, R128), the counters (R136, R137),
the slots of a SHOW (R124) and the minimum dwell (R125). -/

namespace Sys2Proof.Machine

/-- A level is masked (R115). -/
def Screen.masked (x : Screen) (l : Level) : Bool := x.mask.getLsbD l.val

/-- The visible top: the unmasked entry with the lowest level number (R118). -/
def Screen.visibleTop (x : Screen) : Option (Level × Entry) :=
  allLevels.findSome? fun l => if x.masked l then none else x.stack[l].map fun e => (l, e)

/-- The shown top: the visible top while its visible-since time is present (R118). -/
def Screen.shownTop (x : Screen) : Option (Level × Entry) :=
  x.visibleTop.filter fun p => p.2.visibleSince.isSome

/-- The entry at level `l` is the shown top. -/
def Screen.isShownTop (x : Screen) (l : Level) : Bool := x.shownTop.any fun p => p.1 == l

/-- The time an entry's minimum dwell runs out (R121). -/
def Entry.dwellEnd (e : Entry) : Option Time := e.visibleSince.map fun v => v + e.minDwell.getD 0

/-- The entry has been visible for its minimum dwell (R121). -/
def Entry.dwellPassed (now : Time) (e : Entry) : Bool := e.dwellEnd.all fun d => decide (d ≤ now)

/-- The display stack holds no entry (R114). -/
def Screen.stackEmpty (x : Screen) : Bool := allLevels.all fun l => x.stack[l].isNone

/-- The entry at a level replaced or removed. -/
def Screen.setEntry (x : Screen) (l : Level) (e : Option Entry) : Screen := { x with stack := x.stack.set l e }

/-- The pending request of a level replaced or removed. -/
def Screen.setPending (x : Screen) (l : Level) (r : Option Request) : Screen :=
  { x with pendingAt := x.pendingAt.set l r }

/-- A request is eligible when its release time has been reached and its level is not masked (R117). -/
def Screen.eligible (now : Time) (x : Screen) (r : Request) : Bool :=
  decide (r.release ≤ now) && !x.masked r.level

/-- A pending request at level `l` waits on the dwell of the shown top (R121, R122). -/
def Screen.waitsOnDwell (now : Time) (x : Screen) (l : Level) : Bool :=
  match x.pendingAt[l], x.shownTop with
  | some r, some (m, e) => m == l && x.eligible now r && !r.operator && !e.dwellPassed now
  | _, _ => false

/-- The least of a list of times. -/
def earliest : List Time → Option Time
  | [] => none
  | t :: ts => match earliest ts with
    | none => some t
    | some u => some (min t u)

/-- The release times still to come (R117). -/
def Screen.releasesAhead (now : Time) (x : Screen) : List Time :=
  allLevels.filterMap fun l => x.pendingAt[l].bind fun r => if now < r.release then some r.release else none

/-- The notice end times still to come (R128). -/
def Screen.endsAhead (now : Time) (x : Screen) : List Time :=
  (allLevels.filterMap fun l => x.pendingAt[l].bind (·.endTime) |>.filter fun t => decide (now < t)) ++
  (allLevels.filterMap fun l => x.stack[l].bind (·.endTime) |>.filter fun t => decide (now < t))

/-- The three timers set again from what the screen holds (R117, R121, R128). -/
def Screen.retime (now : Time) (x : Screen) : Screen :=
  { x with
    releaseTimer := earliest (x.releasesAhead now)
    noticeTimer := earliest (x.endsAhead now)
    dwellTimer :=
      if allLevels.any (x.waitsOnDwell now) then x.shownTop.bind fun p => p.2.dwellEnd else none }

/-- Every counter whose selector names the event rises by 1 (R136). -/
def Screen.count (ev : CountEvent) (x : Screen) : Screen :=
  { x with counters := Vector.ofFn fun i => if x.selectors[i] = ev then bump x.counters[i] else x.counters[i] }

/-- A staged layout becomes the layout in force as a message is sent (R114). -/
def Screen.applyStaged (x : Screen) : Screen :=
  match x.staged with
  | some l => { x with layout := l, staged := none }
  | none => x

/-- The languages a layout names, ascending. -/
def layoutLangs (l : Layout) : List Lang := allLangs.filter fun g => l.toList.contains (some g)

/-- The tuple of a language. -/
def tupleFor (ts : List Tuple) (g : Lang) : Option Tuple := ts.find? fun t => t.lang == g

/-- The four slots of a SHOW of an entry's tuples under a layout (R124). -/
def showSlots (l : Layout) (ts : List Tuple) : Vector SlotContent 4 :=
  l.map fun g => { lang := g, handle := g.bind fun g => (tupleFor ts g).map (·.handle) }

/-- The renderer draws the prefix (R124): the entry is a TITLE with a speaker, and the mode is ON, or CHANGE
with another speaker than the last shown. -/
def prefixDrawn (m : PrefixMode) (last speaker : Option Nat) : Bool :=
  match speaker with
  | none => false
  | some sp => match m with
    | .off => false
    | .on => true
    | .change => last != some sp

/-- The largest of a list of counts, 0 for none. -/
def maxOf : List Nat → Nat
  | [] => 0
  | n :: ns => max n (maxOf ns)

/-- The slot values of R125, step 1: character counts, with the prefix length added when a prefix is drawn,
of the slots that carry a handle and lie within the slot capacity. -/
def slotValues (l : Layout) (ts : List Tuple) (capacity prefixLength : Nat) : List Nat :=
  ((l.toList.take capacity).filterMap fun g => g.bind (tupleFor ts)).map fun t => t.chars + prefixLength

/-- D of R125: the minimum dwell of a TITLE entry. -/
def minimumDwell (base perChar percent : Nat) (override : Option Nat) (values : List Nat) : Nat :=
  min Config.dwellCap
    (match override with
     | some n => n * 100000
     | none => (base + maxOf values * perChar) * percent / 100)

end Sys2Proof.Machine
end

