-- ==== Sys2Proof/Machine/Status.lean ====
section
/-! DEFINITION. The status snapshot (R193): every block's part at its place in the control block
(11_record_formats.md "Header and status", "Counters and per-screen status"), and the refresh that writes it
(R192, R193). A section that is absent is written 65,535 (log entry 33). -/

namespace Sys2Proof.Machine

/-- Bytes 8..23: Show Control (R179). -/
def State.statusControl (s : State) : List Byte :=
  let c := s.ctl
  le 1 c.engine.code ++ le 1 ((c.progress.map (·.kind)).getD 0) ++
  le 1 ((c.progress.map (·.slot.val)).getD 255) ++ le 1 ((c.heldPause.map (·.val)).getD 255) ++
  le 1 (c.arming.version.getD 255) ++ le 1 c.arming.smoothing ++ le 1 c.arming.lookAhead ++
  le 1 c.arming.weight.code ++ le 2 (c.arming.start.getD 65535) ++ le 4 c.arming.lateTolerance ++ zeros 2

/-- Bytes 24..55: Beat Tracker (R51). While the lockout is off its end is written 0 (log entry 33). -/
def State.statusTracker (s : State) : List Byte :=
  let k := s.trk
  le 1 k.state.code ++ le 1 k.confidence.code ++ le 1 k.synthetic ++ le 1 (bit k.lockout.isSome) ++
  le 1 k.absorb ++ zeros 3 ++ le 4 k.beat ++ le 4 k.period ++ le 8 k.tLast ++ le 8 (k.lockout.getD 0)

/-- Bytes 56..87: Score Walker (R73). A fire cursor at its section's end, and an offer cursor at the end of a pass,
are the index after the last cue (log entry 61). Numbers of an absent position, cursor or history entry are log entry
33. -/
def State.statusWalker (s : State) : List Byte :=
  let w := s.wlk
  le 2 w.inForce.code ++ le 2 ((w.position.map (·.sec)).getD 65535) ++ le 2 ((w.position.map (·.bar)).getD 0) ++
  le 1 ((w.position.map (·.beat)).getD 0) ++ le 1 w.pass ++ le 1 (bit w.exitFlag) ++
  le 1 ((w.cursor.map (·.pass)).getD 0) ++ le 2 ((w.cursor.map (·.sec)).getD 65535) ++
  le 2 ((w.cursor.map (·.cue)).getD 65535) ++ le 2 (w.fireCursor.getD 65535) ++ le 1 w.calledOffers ++
  le 1 (bit w.owedGo.isSome) ++ le 1 w.history.length ++ zeros 1 ++
  le 2 ((w.history.head?.map (·.number)).getD 0) ++ leInt 4 w.origin ++ leInt 4 (w.waiting.getD 2147483647) ++
  zeros 2

/-- Bytes 88..111: Cue Scheduler (R94). With no entry armed the numbers of the first are written 0 (log entry 33). -/
def State.statusScheduler (s : State) : List Byte :=
  let c := s.sch
  let first := c.armed.head?
  le 1 c.armed.length ++ le 1 (c.armed.countP fun e => e.timing == .due) ++ le 1 (bit c.freeze) ++
  le 1 ((first.map (·.timing.code)).getD 0) ++ le 1 ((first.map (·.pass)).getD 0) ++
  le 1 (bit (first.any (·.fire.isSome))) ++ le 2 ((first.map (·.copy.number)).getD 0) ++
  le 4 c.lateTolerance ++ le 8 ((first.bind (·.fire)).getD 0) ++ zeros 4

/-- The entries of the descriptor cache. -/
def Descriptors.entries (d : Descriptors) : List CacheEntry :=
  d.sets.toList.flatMap fun x => x.ways.toList.filterMap (·.entry)

/-- Bytes 112..135: Descriptor Unit (R112). With nothing waiting the title number and the waiting time are written 0
(log entry 33). -/
def State.statusDescriptors (s : State) : List Byte :=
  let es := s.du.entries
  let oldest := s.du.queue.head?
  le 1 (es.countP fun e => match e.state with | .fetching _ _ => true | _ => false) ++
  le 1 (es.countP fun e => match e.state with | .valid _ _ => true | _ => false) ++
  le 1 (es.countP fun e => e.state == .absent) ++ le 1 (es.countP fun e => decide (0 < e.pins)) ++
  le 2 s.du.queue.length ++ le 2 ((oldest.map (·.key.title)).getD 0) ++
  le 1 ((oldest.map (·.key.lang.val)).getD 255) ++ zeros 1 ++
  le 4 ((oldest.map fun i => s.clock - i.joined).getD 0) ++ le 4 s.du.hits ++ le 4 s.du.misses ++ zeros 2

/-- A number whose bit i is the i-th truth value. -/
def bitsOf : List Bool → Nat
  | [] => 0
  | b :: bs => bit b + 2 * bitsOf bs

/-- Bytes 136..237: Desk Port (R163). A window end that is none, and a last accepted edge that is none, are written
0 (log entry 33). -/
def State.statusDesk (s : State) : List Byte :=
  let ls := s.desk.lines.toList
  le 1 (bitsOf (ls.map (·.level))) ++
  le 1 (bit s.desk.freezeLevel + 2 * bit s.desk.freezeWindow.isSome + 4 * bitsOf (ls.map (·.lastEdge.isSome))) ++
  le 4 (s.desk.freezeWindow.getD 0) ++ ls.flatMap (fun l => le 4 (l.lastEdge.getD 0)) ++
  ls.flatMap fun l => le 4 l.accepted ++ le 4 l.debounced ++ le 4 l.ignored

/-- Bytes 238..251: the interface itself (R193). An outcome whose writes a scan makes again does not count as
unwritten while they are in flight (log entry 72). -/
def State.statusInterface (s : State) : List Byte :=
  let m := s.smi
  le 1 m.port.weight.code ++ le 1 m.port.counter ++ le 1 (min 255 m.port.urgent.length) ++
  le 1 (min 255 m.port.background.length) ++ le 1 (m.outcomes.countP fun o => !o.writing) ++
  le 1 (bit m.sweepPending) ++ le 1 m.rotation.val ++ le 1 m.journalQueue.length ++ le 4 m.journalLost ++ zeros 2

/-- The 252 bytes from offset 4: both refresh tags and every block's part (R193). -/
def State.statusHeader (tag : Nat) (s : State) : List Byte :=
  le 4 tag ++ s.statusControl ++ s.statusTracker ++ s.statusWalker ++ s.statusScheduler ++
  s.statusDescriptors ++ s.statusDesk ++ s.statusInterface ++ le 4 tag

/-- The 48 counter words (11_record_formats.md). -/
def State.statusCounters (s : State) : List Byte :=
  s.arb.screens.toList.flatMap fun x => x.counters.toList.flatMap (le 4)

/-- Byte 1, bits 0..3, of the per-screen status. -/
def OnScreen.code : OnScreen → Nat
  | .unknown => 9 | .blank => 8 | .entry l _ => l.val

/-- A time from now, in whole 100 ms rounded up. -/
def untilTime (now t : Time) : Nat := ceilDiv (t - now) 100000

/-- The 16 bytes of the status of screen `i` (R138, R154). With no visible top its number is written 0, and F without
capabilities (log entry 33). -/
def State.statusScreen (s : State) (i : Screen16) : List Byte :=
  let x := s.screen i
  let k := s.link i
  let top := x.visibleTop
  let role := match s.arb.mirror with
    | none => 0
    | some (a, b) => if a = i then 1 else if b = i then 2 else 0
  le 1 ((top.map (·.1.val)).getD 8 + 16 * bit x.shownTop.isSome + 32 * bit x.blankPending +
        64 * bit x.staged.isSome + 128 * bit (top.any (·.2.isNotice))) ++
  le 1 (x.onScreen.code + 16 * role + 64 * (k.op.map (·.kind.code)).getD 0) ++
  le 1 (bitsOf (allLevels.map fun l => x.stack[l].isSome)) ++
  le 1 (bitsOf (allLevels.map fun l => x.pendingAt[l].isSome)) ++ le 1 x.mask.toNat ++
  le 1 (k.state.code + capsBits k.caps) ++ [k.tag] ++ le 1 (min 255 k.hellos) ++
  le 2 ((k.caps.map (·.fadeTime)).getD 0) ++ le 2 ((top.map (·.2.ident.number)).getD 0) ++
  le 1 (match x.shownTop with
        | none => 255
        | some p => untilTime s.clock (p.2.dwellEnd.getD 0)) ++
  le 1 ((k.replyTimer.map (untilTime s.clock)).getD 255) ++
  le 1 ((k.op.map fun o => min 254 (ceilDiv (s.clock - o.sendTime) 100000)).getD 255) ++
  le 1 (min 255 k.ignored)

/-- The per-screen status of all screens. -/
def State.statusScreens (s : State) : List Byte := allScreens.flatMap s.statusScreen

/-- The pieces of a region, each with its offset, in accesses of 32 bytes. -/
def pieces (offset : Nat) : List (List Byte) → List (Nat × List Byte)
  | [] => []
  | p :: ps => (offset, p) :: pieces (offset + p.length) ps

/-- The writes of a refresh, in the order of R193. -/
def State.refreshWrites (tag : Nat) (s : State) : List (Nat × List Byte) :=
  pieces 4 (chunks 8 32 (s.statusHeader tag)) ++ pieces 2048 (chunks 6 32 s.statusCounters) ++
  pieces 2304 (chunks 8 32 s.statusScreens)

/-- The next write of a refresh is queued, or the refresh ends and an owed one starts (R193). -/
def State.queueStatusWrite (w : Nat × List Byte) (s : State) : State :=
  s.enqueue (.writing .status (s.smi.base + w.1) w.2 .background)

/-- A refresh starts: the snapshot is taken, the tag rises, the first write is queued (R193). -/
def State.startRefresh (s : State) : State :=
  let tag := (s.smi.refreshTag + 1) % Config.wrap32
  match s.refreshWrites tag with
  | [] => s
  | w :: rest =>
    ({ s with smi := { s.smi with refreshTag := tag, refresh := .writing rest false } }).queueStatusWrite w

/-- A status refresh is requested (R192). -/
def State.requestRefresh (s : State) : State :=
  match s.smi.refresh with
  | .idle => s.startRefresh
  | .writing rest _ => { s with smi := { s.smi with refresh := .writing rest true } }

/-- The refresh in progress has ended; an owed one starts (R192, R193). -/
def State.endRefresh (s : State) : State :=
  match s.smi.refresh with
  | .idle => s
  | .writing _ owed =>
    let s := { s with smi := { s.smi with refresh := .idle } }
    if owed then s.startRefresh else s

end Sys2Proof.Machine
end

