-- ==== Sys2Proof/Machine/Engine.lean ====
section
/-! DEFINITION. A change of engine state (R165, R179): journalled, and each causes a status refresh. -/

namespace Sys2Proof.Machine

/-- The causes of an ENGINE STATE record, numbered from 1 in the order of R179. -/
inductive EngineCause
  | load | loadEnd | arm | start | pause | quiet | resume | stop | automaticEnd | reset
  deriving DecidableEq, Repr

/-- The code of a cause (R194). -/
def EngineCause.code : EngineCause → Nat
  | .load => 1 | .loadEnd => 2 | .arm => 3 | .start => 4 | .pause => 5 | .quiet => 6 | .resume => 7
  | .stop => 8 | .automaticEnd => 9 | .reset => 10

/-- The engine state changes: ENGINE STATE is journalled with the cause, the slot concerned (255 for none),
the line of a start and the outcome of a LOAD, and a status refresh is requested (R165, R179, R192). -/
def State.changeEngine (new : EngineState) (cause : EngineCause) (slot : Option Slot) (line outcome : Nat)
    (s : State) : State :=
  ({ s with ctl := { s.ctl with engine := new } }.journal
    (.engineState s.ctl.engine.code new.code cause.code ((slot.map Fin.val).getD 255) line outcome)).requestRefresh

/-- The slot of the directive in progress. -/
def State.progressSlot (s : State) : Option Slot := s.ctl.progress.map (·.slot)

end Sys2Proof.Machine
end

