-- ==== Sys2Proof/Machine/Frames.lean ====
section
/-! DEFINITION. Frames on a screen link (11_record_formats.md "Screen-link messages") and the receiver that
assembles them from the bytes of the line (R197). The receiver turns a line's bytes into the commands
HELLO_REPLY, DONE, REFUSED, FRAME_DISCARDED and FRAME_GAP_TIMEOUT; its partial frame is no field of State,
because no row of the table delivers a single byte (log entry 37). -/

namespace Sys2Proof.Machine

/-- The sum of some bytes, modulo 256. -/
def byteSum : List Byte → Byte
  | [] => 0
  | b :: bs => b + byteSum bs

/-- A frame: start byte 126, length of kind, tag and body, kind, tag, body, and the check byte that makes
the sum from the length through the check a multiple of 256. -/
def frame (kind : Nat) (tag : Byte) (body : List Byte) : List Byte :=
  let inner := BitVec.ofNat 8 (body.length + 2) :: BitVec.ofNat 8 kind :: tag :: body
  126 :: inner ++ [-(byteSum inner)]

/-- The length byte that each kind from a renderer must carry (R197); none for another kind. -/
def lengthOfKind : Nat → Option Nat
  | 129 => some 6
  | 130 => some 2
  | 131 => some 3
  | _ => none

/-- The command a whole frame is, without its start byte: `inner` is length, kind, tag, body, check (R197).
Bits 2..7 of the first body byte of a HELLO-REPLY are ignored (R143 reads bits 0 and 1). -/
def frameCommand (t : Time) (link : Screen16) (inner : List Byte) : Instr :=
  if lengthOfKind (u8 inner 1) = some (u8 inner 0) ∧ byteSum inner = 0 then
    if u8 inner 1 = 129 then .helloReply t link (inner.getD 2 0) (inner.getD 3 0) (u16 inner 4) (u8 inner 6)
    else if u8 inner 1 = 130 then .done t link (inner.getD 2 0)
    else .refused t link (inner.getD 2 0) (inner.getD 3 0)
  else .frameDiscarded t link

/-- What a receiver holds: the bytes of the partial frame after its start byte, newest last, and the time of
the last byte; none between frames (R197). -/
structure Receiver where
  partialFrame : Option (List Byte)
  lastByte : Time
  deriving DecidableEq, Repr

/-- The receiver after either reset: it holds no partial frame. R197, R153 and R139 give it no reset value (log entry
81). -/
def Receiver.reset : Receiver := { partialFrame := none, lastByte := 0 }

/-- A byte arrives between frames: it starts a frame or is discarded (R197). -/
def Receiver.start (t : Time) (b : Byte) : Receiver :=
  { partialFrame := if b = 126 then some [] else none, lastByte := t }

/-- A byte arrives (R197): bytes before a start byte are discarded; a frame is whole when the check byte its
length implies has arrived, and is then the command it is. A length byte below 2 leaves no room for a kind
and a tag; its frame is whole once its check byte has arrived like any other. A byte more than 1,000 µs after the
one before it ends a gap: the partial frame is discarded, and the byte is taken as one between frames. -/
def Receiver.byte (t : Time) (link : Screen16) (b : Byte) (r : Receiver) : Receiver × Option Instr :=
  match r.partialFrame with
  | none => (Receiver.start t b, none)
  | some inner =>
    if r.lastByte + Config.frameGap < t then (Receiver.start t b, some (.frameGapTimeout t link))
    else
      let inner := inner ++ [b]
      if inner.length = u8 inner 0 + 2 then
        ({ partialFrame := none, lastByte := t }, some (frameCommand t link inner))
      else ({ partialFrame := some inner, lastByte := t }, none)

/-- The end of a gap: a partial frame whose next byte has not come within 1,000 µs is discarded (R197). -/
def Receiver.gap (t : Time) (link : Screen16) (r : Receiver) : Receiver × Option Instr :=
  match r.partialFrame with
  | none => (r, none)
  | some _ =>
    if r.lastByte + Config.frameGap < t then
      ({ r with partialFrame := none }, some (.frameGapTimeout t link))
    else (r, none)

/-- The bytes of a line, each at its time, taken one after another, and the commands they are (R197). -/
def Receiver.feed (link : Screen16) (r : Receiver) : List (Time × Byte) → Receiver × List Instr
  | [] => (r, [])
  | (t, b) :: rest =>
    let taken := r.byte t link b
    let fed := Receiver.feed link taken.1 rest
    (fed.1, taken.2.toList ++ fed.2)

end Sys2Proof.Machine
end

