-- ==== Sys2Proof/Machine/Links.lean ====
section
/-! DEFINITION. What a link does by itself (07_screen_links.md): resolving a transition (R144, R145), sending
SHOW and CLEAR (R146, R147), entering PROBING (R142) and the LINK STATE records (R154). -/

namespace Sys2Proof.Machine

/-- The FADE capability, absent when none are recorded (R139). -/
def hasFade (c : Option Caps) : Bool := c.any (·.fade)

/-- The OVERLAP capability, absent when none are recorded (R139). -/
def hasOverlap (c : Option Caps) : Bool := c.any (·.overlap)

/-- F in µs, 0 when no capabilities are recorded. -/
def fadeMicros (c : Option Caps) : Nat := (c.map (·.fadeTime)).getD 0 * 1000

/-- The slot capacity; all four slots when no capabilities are recorded, which no sending link is (R139). -/
def capacityOf (c : Option Caps) : Nat := (c.map (·.capacity)).getD 4

/-- The transition of a SHOW, by the table of R144. -/
def resolveShow (override : TransOverride) (preferred : Transition) (c : Option Caps) : Transition :=
  match override with
  | .cut => .cut
  | .default =>
    match preferred with
    | .cut => .cut
    | .fade => if hasFade c then .fade else .cut
    | .cross => if hasFade c then (if hasOverlap c then .cross else .fade) else .cut

/-- The transition of a CLEAR (R145). -/
def resolveClear (override : TransOverride) (preferred : Transition) (c : Option Caps) : Transition :=
  match resolveShow override preferred c with
  | .cross => if hasFade c then .fade else .cut
  | tr => tr

/-- The transition time of R147. -/
def transitionTime (tr : Transition) (c : Option Caps) : Nat :=
  match tr with
  | .cut => 0
  | .fade => 2 * fadeMicros c
  | .cross => fadeMicros c

/-- The causes of a LINK STATE record, numbered from 1 in the order of R154. -/
inductive LinkCause
  | carrierUp | carrierLoss | helloReply | timeout | probe | reset
  deriving DecidableEq, Repr

/-- The code of a cause (R194). -/
def LinkCause.code : LinkCause → Nat
  | .carrierUp => 1 | .carrierLoss => 2 | .helloReply => 3 | .timeout => 4 | .probe => 5 | .reset => 6

/-- LINK STATE journalled without capabilities and without a message (R154). -/
def State.journalLink (i : Screen16) (old new : LinkState) (cause : LinkCause) (s : State) : State :=
  s.journal (.linkState i old.code new.code cause.code 0 0 0 0 0)

/-- A frame leaves on the transmit line of link `i`. -/
def State.transmit (i : Screen16) (bytes : List Byte) (s : State) : State := { s with sent := s.sent ++ [(i, bytes)] }

/-- The link's state after it has entered PROBING at time `t` (R142). The transition of a HELLO is CUT, and nothing
reads it (log entry 64). -/
def Link.probe (t : Time) (k : Link) : Link :=
  let tag := k.tag + 1
  { k with
    state := .probing
    tag := tag
    op := some { kind := .helloMsg, tag := tag, transition := .cut, sendTime := t, subject := none }
    replyTimer := none
    retryTimer := some (t + Config.helloRetry)
    hellos := 1 }

/-- The HELLO frame of a tag. -/
def helloFrame (tag : Byte) : List Byte := frame 1 tag []

/-- Link `i` enters PROBING: a new tag, HELLO sent, the retry timer set, LINK STATE journalled (R142, R154). -/
def State.enterProbing (i : Screen16) (cause : LinkCause) (s : State) : State :=
  let k := s.link i
  ((s.setLink i (k.probe s.clock)).transmit i (helloFrame (k.tag + 1))).journalLink i k.state .probing cause

/-- A slot at or above the slot capacity is sent EMPTY (R146). -/
def clampSlots (capacity : Nat) (slots : Vector SlotContent 4) : Vector SlotContent 4 :=
  Vector.ofFn fun i => if i.val < capacity then slots[i] else { lang := none, handle := none }

/-- One slot of a SHOW body: language, 255 for EMPTY, and handle, 0 for EMPTY. -/
def slotBytes (c : SlotContent) : List Byte :=
  le 1 ((c.lang.map (·.val)).getD 255) ++ le 4 ((c.handle.map (·.toNat)).getD 0)

/-- The frame of a SHOW or CLEAR (11_record_formats.md "Screen-link messages"). -/
def messageFrame (m : Message) (tag : Byte) (tr : Transition) (capacity : Nat) : List Byte :=
  if m.isShow then
    frame 2 tag (le 1 tr.code ++ (clampSlots capacity m.slots).toList.flatMap slotBytes ++
      le 1 (m.speaker.getD 0) ++ le 1 (bit m.drawPrefix))
  else frame 3 tag (le 1 tr.code)

/-- The transition a message resolves to on link `i` now (R144, R145). -/
def State.resolved (i : Screen16) (m : Message) (s : State) : Transition :=
  if m.isShow then resolveShow m.override (s.screen i).preferred (s.link i).caps
  else resolveClear m.override (s.screen i).preferred (s.link i).caps

/-- The link's state after it has sent a SHOW or CLEAR at time `t` (R146, R147). -/
def Link.busy (t : Time) (m : Message) (tr : Transition) (k : Link) : Link :=
  { k with
    state := .busy
    tag := k.tag + 1
    op := some { kind := if m.isShow then .showMsg else .clearMsg, tag := k.tag + 1, transition := tr,
                 sendTime := t, subject := m.subject.map fun p => (p.1, p.2.1) }
    replyTimer := some (t + Config.replyBase + transitionTime tr k.caps) }

/-- Link `i` sends a SHOW or CLEAR the arbiter gives it (R146, R147). -/
def State.linkSend (i : Screen16) (m : Message) (s : State) : State :=
  let k := s.link i
  let tr := s.resolved i m
  (s.setLink i (k.busy s.clock m tr)).transmit i (messageFrame m (k.tag + 1) tr (capacityOf k.caps))

/-- Link `i` is READY. -/
def State.linkReady (i : Screen16) (s : State) : Bool := (s.link i).state == .ready

/-- A received message is not taken: it is counted and has no other effect (R151). -/
def State.ignoreMessage (i : Screen16) (s : State) : State :=
  s.setLink i { s.link i with ignored := bump (s.link i).ignored }

end Sys2Proof.Machine
end

