-- ==== Sys2Proof/Machine/Arbiter.lean ====
section
/-! DEFINITION. The Screen Arbiter (06_screen_arbitration.md): sending and copying messages, granting and
removing, the evaluation of a screen (R119), link events (R127), finishes from desk and host (R129 to R131)
and the mirror pair (R133 to R135). -/

namespace Sys2Proof.Machine

/-! ### Messages -/

/-- Screen `i` is the mirror monitor. -/
def State.isMonitor (i : Screen16) (s : State) : Bool := s.arb.mirror.any fun p => p.2 == i

/-- The prefix length of a speaker; 0 with no script or beyond its speaker count (R125). -/
def State.prefixLength (speaker : Option Nat) (s : State) : Nat :=
  match speaker, s.wlk.script with
  | some n, some sc => if n ≤ sc.speakerCount then sc.speakers.getD (n - 1) 0 else 0
  | _, _ => 0

/-- The SHOW of an entry on a screen, under the layout in force there (R124). -/
def showMessage (x : Screen) (l : Level) (e : Entry) (override : TransOverride) : Message :=
  let speaker := if e.isNotice then none else e.speaker
  { isShow := true, slots := showSlots x.layout e.tuples, speaker := speaker,
    drawPrefix := prefixDrawn x.prefixMode x.lastSpeaker speaker, override := override,
    subject := some (l, e.ident, e.serial) }

/-- A CLEAR (R123). -/
def clearMessage (override : TransOverride) : Message :=
  { isShow := false, slots := Vector.replicate 4 { lang := none, handle := none }, speaker := none,
    drawPrefix := false, override := override, subject := none }

/-- A screen after it has been sent a message: the staged layout applies, a SHOW is counted, the on-screen
record names what was sent, and a speaker shown is the last shown (R114, R124, R136; for a monitor log entry
14). -/
def Screen.sentMessage (x : Screen) (m : Message) : Screen :=
  let y := if m.isShow then x.applyStaged.count .shown else x.applyStaged
  { y with
    onScreen := match m.subject with
      | some (l, _, n) => .entry l n
      | none => .blank
    lastSpeaker := if m.speaker.isSome then m.speaker else y.lastSpeaker }

/-- A message leaves on the READY link of screen `i`. -/
def State.deliver (i : Screen16) (m : Message) (s : State) : State :=
  (s.setScreen i ((s.screen i).sentMessage m)).linkSend i m

/-- The copy of a message for the monitor: sent when its link is READY, else held (R134). -/
def State.sendCopy (mon : Screen16) (m : Message) (s : State) : State :=
  if s.linkReady mon then s.deliver mon m else { s with arb := { s.arb with hold := some m } }

/-- A message leaves on screen `i` and, when that is the mirror source, is copied (R134). -/
def State.sendOn (i : Screen16) (m : Message) (s : State) : State :=
  match s.arb.mirror with
  | some (src, mon) => if src = i then (s.deliver i m).sendCopy mon m else s.deliver i m
  | none => s.deliver i m

/-- The minimum dwell of an entry as a SHOW of it is sent (R125). -/
def State.entryDwell (i : Screen16) (layout : Layout) (e : Entry) (drawn : Bool) (s : State) : Nat :=
  if e.isNotice then 0
  else minimumDwell s.arb.dwellBase s.arb.dwellPerChar e.dwellPercent e.dwellOverride
    (slotValues layout e.tuples (capacityOf (s.link i).caps) (if drawn then s.prefixLength e.speaker else 0))

/-- A SHOW of the entry `e` at level `l` is sent on screen `i`: the staged layout applies first, the entry's
minimum dwell is computed and its visible-since is now (R114, R120, R125). -/
def State.showEntry (i : Screen16) (l : Level) (e : Entry) (override : TransOverride) (s : State) : State :=
  let x := (s.screen i).applyStaged
  let m := showMessage x l e override
  let e := { e with minDwell := some (s.entryDwell i x.layout e m.drawPrefix), visibleSince := some s.clock }
  (s.setScreen i (x.setEntry l (some e))).sendOn i m

/-- A CLEAR is sent on screen `i` (R123). -/
def State.sendClear (i : Screen16) (override : TransOverride) (s : State) : State :=
  (s.setScreen i (s.screen i).applyStaged).sendOn i (clearMessage override)

/-- An event is counted on screen `i` (R136). -/
def State.countOn (i : Screen16) (ev : CountEvent) (s : State) : State := s.setScreen i ((s.screen i).count ev)

/-! ### The evaluation of a screen (R119) -/

/-- Step 1 at one level: a notice end that has been reached (R128). -/
def Screen.endNoticeAt (now : Time) (ready : Bool) (x : Screen) (l : Level) : Screen :=
  let x := if x.pendingAt[l].any (fun r => r.endTime.any fun t => decide (t ≤ now)) then x.setPending l none else x
  if x.stack[l].any (fun e => e.endTime.any fun t => decide (t ≤ now)) && !(x.isShownTop l && !ready)
  then x.setEntry l none else x

/-- Step 1: the notice ends that have been reached (R128). -/
def Screen.endNotices (now : Time) (ready : Bool) (x : Screen) : Screen :=
  allLevels.foldl (Screen.endNoticeAt now ready) x

/-- Step 2: a desk BLANK is carried out when the link is READY (R129). -/
def Screen.carryOutBlank (ready : Bool) (x : Screen) : Screen :=
  if x.blankPending && ready then
    let x := { x with blankPending := false }
    match x.visibleTop with
    | some (l, _) => if l = 0 then x else x.setEntry l none
    | none => x
  else x

/-- The entry a granted request becomes (R118, R120). -/
def Request.toEntry (serial : Nat) (r : Request) : Entry :=
  { isNotice := r.kind == .notice, ident := r.ident, tuples := r.tuples, speaker := r.speaker,
    dwellPercent := r.dwellPercent, dwellOverride := r.dwellOverride, override := r.override,
    minDwell := none, visibleSince := none, endTime := r.endTime, serial := serial }

/-- The next display entry takes the next serial number (log entry 31). -/
def State.nextSerial (s : State) : State := { s with arb := { s.arb with entrySerial := s.arb.entrySerial + 1 } }

/-- A grant without a message: the new entry takes its level's place (R120). -/
def State.insertSilently (i : Screen16) (l : Level) (r : Request) (s : State) : State :=
  (s.setScreen i (((s.screen i).setPending l none).setEntry l (some (r.toEntry s.arb.entrySerial)))).nextSerial

/-- A grant with a SHOW; a SHOW later than the release time plus the late tolerance is counted LATE (R120). -/
def State.grantShow (i : Screen16) (l : Level) (r : Request) (s : State) : State :=
  let e := r.toEntry s.arb.entrySerial
  let s := (s.setScreen i ((s.screen i).setPending l none)).nextSerial
  let s := if r.release + s.sch.lateTolerance < s.clock then s.countOn i .late else s
  s.showEntry i l e r.override

/-- The visible top `e` at level `m` is buried by a push: counted, and no longer visible (R120). -/
def State.bury (i : Screen16) (m : Level) (e : Entry) (s : State) : State :=
  s.setScreen i (((s.screen i).setEntry m (some { e with visibleSince := none })).count .preempted)

/-- A request found waiting on the dwell is counted and marked once (R121). It is found while the link is
READY (log entry 12). -/
def State.defer (i : Screen16) (l : Level) (r : Request) (s : State) : State :=
  if s.linkReady i && !r.deferred then
    s.setScreen i (((s.screen i).setPending l (some { r with deferred := true })).count .deferred)
  else s

/-- An eligible TITLE or NOTICE request at level `l` is judged (R120, R121). -/
def State.judgeShow (i : Screen16) (l : Level) (r : Request) (s : State) : State :=
  match (s.screen i).visibleTop with
  | none => if s.linkReady i then s.grantShow i l r else s
  | some (m, e) =>
    if l < m then (if s.linkReady i then (s.bury i m e).grantShow i l r else s)
    else if m < l then s.insertSilently i l r
    else if e.visibleSince.isNone then s.insertSilently i l r
    else if r.operator || e.dwellPassed s.clock then (if s.linkReady i then s.grantShow i l r else s)
    else s.defer i l r

/-- The visible top is sent when it differs from the on-screen record, with its own override, or a CLEAR with
the override given (R123). -/
def State.refreshScreen (i : Screen16) (override : TransOverride) (s : State) : State :=
  let x := s.screen i
  if s.linkReady i && x.onScreen != .unknown then
    match x.visibleTop with
    | some (l, e) => if x.onScreen = .entry l e.serial then s else s.showEntry i l e e.override
    | none => if x.onScreen = .blank then s else s.sendClear i override
  else s

/-- An eligible BLANK request at level `l` acts on the entry there (R122). -/
def State.judgeBlank (i : Screen16) (l : Level) (r : Request) (s : State) : State :=
  let x := s.screen i
  match x.stack[l] with
  | none => s.setScreen i (x.setPending l none)
  | some e =>
    if x.isShownTop l then
      if e.dwellPassed s.clock then
        if s.linkReady i then (s.setScreen i ((x.setPending l none).setEntry l none)).refreshScreen i r.override else s
      else s.defer i l r
    else s.setScreen i ((x.setPending l none).setEntry l none)

/-- Step 3 at one level. -/
def State.judge (i : Screen16) (s : State) (l : Level) : State :=
  match (s.screen i).pendingAt[l] with
  | none => s
  | some r =>
    if (s.screen i).eligible s.clock r then
      match r.kind with
      | .blank => s.judgeBlank i l r
      | .title => s.judgeShow i l r
      | .notice => s.judgeShow i l r
    else s

/-- The timers of screen `i` set again. -/
def State.retimeScreen (i : Screen16) (s : State) : State := s.setScreen i ((s.screen i).retime s.clock)

/-- Steps 1 to 3 of an evaluation: notice ends, the desk BLANK, and the pending requests in ascending level order
(R119). -/
def State.judgeRequests (i : Screen16) (s : State) : State :=
  let ready := s.linkReady i
  allLevels.foldl (State.judge i) (s.setScreen i (((s.screen i).endNotices s.clock ready).carryOutBlank ready))

/-- Step 4 of an evaluation, and the timers of the screen set again (R119). -/
def State.endEvaluation (i : Screen16) (s : State) : State := (s.refreshScreen i .default).retimeScreen i

/-- Screen `i` is evaluated (R119). A mirror monitor is driven by its source's messages alone (R133, log entry
13). -/
def State.evaluate (i : Screen16) (s : State) : State :=
  if s.isMonitor i then s else (s.judgeRequests i).endEvaluation i

/-! ### Requests -/

/-- A pending request is overwritten: a TITLE or NOTICE is counted and journalled (R116). -/
def State.overwrite (i : Screen16) (old new : Request) (s : State) : State :=
  match old.kind with
  | .blank => s
  | .title => (s.countOn i .skipped).journal (.titleSkipped i old.level .title 1 old.ident.number new.ident.number)
  | .notice => (s.countOn i .skipped).journal (.titleSkipped i old.level .notice 1 old.ident.number new.ident.number)

/-- A request arrives at screen `i` (R116). -/
def State.placeRequest (i : Screen16) (r : Request) (s : State) : State :=
  if s.isMonitor i then s
  else
    let s := match (s.screen i).pendingAt[r.level] with
      | none => s
      | some old => s.overwrite i old r
    (s.setScreen i ((s.screen i).setPending r.level (some r))).evaluate i

/-! ### Masks, link events (R115, R126, R127) -/

/-- Entries at masked levels lose their visible-since (R115, R118). -/
def Screen.hideMasked (x : Screen) : Screen :=
  { x with stack := Vector.ofFn fun l =>
      if x.masked l then x.stack[l].map fun e => { e with visibleSince := none } else x.stack[l] }

/-- Entries other than the visible top lose their visible-since (R115, R118, log entry 43). -/
def Screen.settleVisible (x : Screen) : Screen :=
  { x with stack := Vector.ofFn fun l =>
      if (x.visibleTop.any fun p => p.1 == l) then x.stack[l]
      else x.stack[l].map fun e => { e with visibleSince := none } }

/-- SET MASK on screen `i` (R115, R126). Level 0 is never masked. The visible top is settled after step 3 of the
evaluation: an unmasked entry that a pending request takes away there has buried nothing. -/
def State.setLevelMask (i : Screen16) (mask : BitVec 8) (s : State) : State :=
  let s := s.setScreen i { s.screen i with mask := mask &&& 0xFE#8 }.hideMasked
  if s.isMonitor i then s
  else
    let s := s.judgeRequests i
    (s.setScreen i (s.screen i).settleVisible).endEvaluation i

/-- The link of screen `i` is READY after DONE or REFUSED (R127, R134). -/
def State.linkReturned (i : Screen16) (s : State) : State :=
  if s.isMonitor i then
    match s.arb.hold with
    | some m => { s with arb := { s.arb with hold := none } }.deliver i m
    | none => s
  else if (s.screen i).clearOwed then
    (s.setScreen i { s.screen i with clearOwed := false }).sendClear i .cut
  else s.evaluate i

/-- The link of screen `i` became DOWN or FAULTED (R127). -/
def State.linkDark (i : Screen16) (s : State) : State :=
  s.setScreen i { s.screen i with onScreen := .unknown, blankPending := false, clearOwed := false }

/-- What a source shows, as a message with CUT under its layout in force (R133, R134); its speaker prefix is decided
anew (log entry 65). -/
def sourceCopy (x : Screen) : Message :=
  match x.visibleTop with
  | some (l, e) => showMessage x l e .cut
  | none => clearMessage .cut

/-- The link of screen `i` became READY from PROBING: the resync is sent (R127; for a monitor R134), and then the
screen is evaluated (R119). -/
def State.resync (i : Screen16) (s : State) : State :=
  match s.arb.mirror.filter fun p => p.2 == i with
  | some (src, _) => { s with arb := { s.arb with hold := none } }.deliver i (sourceCopy (s.screen src))
  | none =>
    let s := s.setScreen i ((s.screen i).endNotices s.clock true)
    let s := match (s.screen i).visibleTop with
      | some (l, e) => s.showEntry i l e .cut
      | none => s.sendClear i .cut
    s.evaluate i

/-! ### Finishes from the desk and the host, show-level events -/

/-- A desk BLANK sets a screen's flag when its link is READY or BUSY and its visible top is at level 1 or
above (R129). -/
def State.takesBlank (i : Screen16) (s : State) : Bool :=
  ((s.link i).state == .ready || (s.link i).state == .busy) &&
    ((s.screen i).visibleTop.any fun p => p.1 != 0)

/-- The flags a desk BLANK sets, on every screen that takes it (R129). -/
def State.pressBlank (s : State) : State :=
  allScreens.foldl (fun s i => if s.takesBlank i then s.setScreen i { s.screen i with blankPending := true } else s) s

/-- Some screen holds the BLANK-pending flag. -/
def State.blankHeld (s : State) : Bool := allScreens.any fun i => (s.screen i).blankPending

/-- Entries and requests removed at the levels of a mask (R130). -/
def Screen.clearLevels (levels : BitVec 8) (x : Screen) : Screen :=
  allLevels.foldl (fun x l => if levels.getLsbD l.val then (x.setPending l none).setEntry l none else x) x

/-- A host CLEAR (R130), the screens in ascending order, each evaluated before the next (log entry 63). -/
def State.hostClear (screens : BitVec 16) (levels : BitVec 8) (s : State) : State :=
  allScreens.foldl (fun s i =>
    if screens.getLsbD i.val then (s.setScreen i ((s.screen i).clearLevels levels)).evaluate i else s) s

/-- The pending TITLE or BLANK request at a level 2..7 (R131). -/
def Screen.cueRequest (x : Screen) (l : Level) : Option Request :=
  if 2 ≤ l.val then x.pendingAt[l].filter fun r => r.kind != .notice else none

/-- PAUSE at one level of a screen: the request is discarded, a TITLE counted and journalled (R131). No request replaces
it, and the replacing number is written 0 (log entry 33). -/
def State.pauseLevel (i : Screen16) (s : State) (l : Level) : State :=
  match (s.screen i).cueRequest l with
  | none => s
  | some r =>
    let s := s.setScreen i ((s.screen i).setPending l none)
    if r.kind = .title then (s.countOn i .skipped).journal (.titleSkipped i l .title 2 r.ident.number 0) else s

/-- PAUSE on every screen (R131), in ascending order, each evaluated before the next (log entry 63). -/
def State.pauseScreens (s : State) : State :=
  allScreens.foldl (fun s i => (allLevels.foldl (State.pauseLevel i) s).evaluate i) s

/-- STOP or LOCATE on one screen: cue requests and TITLE entries at levels 2..7 are removed (R131). -/
def Screen.dropCues (x : Screen) : Screen :=
  allLevels.foldl (fun x l =>
    let x := if (x.cueRequest l).isSome then x.setPending l none else x
    if 2 ≤ l.val && (x.stack[l].any fun e => !e.isNotice) then x.setEntry l none else x) x

/-- STOP or LOCATE on every screen (R131), in ascending order, each evaluated before the next (log entry 63). -/
def State.dropScreenCues (s : State) : State :=
  allScreens.foldl (fun s i => (s.setScreen i (s.screen i).dropCues).evaluate i) s

/-! ### Layouts and the mirror pair -/

/-- SET LAYOUT on screen `i` (R114). -/
def State.applyLayout (i : Screen16) (l : Layout) (s : State) : State :=
  s.setScreen i (if (s.screen i).stackEmpty then { s.screen i with layout := l, staged := none }
    else { s.screen i with staged := some l })

/-- The mirror pair ends: the monitor is an ordinary screen and a CLEAR with CUT is owed to it (R135). -/
def State.endMirror (s : State) : State :=
  match s.arb.mirror with
  | none => s
  | some (_, mon) =>
    let s := { s with arb := { s.arb with mirror := none, hold := none } }
    match (s.link mon).state with
    | .ready => s.sendClear mon .cut
    | .busy => s.setScreen mon { s.screen mon with onScreen := .unknown, clearOwed := true }
    | _ => s.setScreen mon { s.screen mon with onScreen := .unknown }

/-- A screen emptied as it becomes a monitor (R133). -/
def Screen.emptied (x : Screen) : Screen :=
  { x with pendingAt := Vector.replicate 8 none, stack := Vector.replicate 8 none, blankPending := false,
           clearOwed := false }

/-- A mirror pair is set; a pair that is set already ends first (R133). That this holds also of the very pair named, which
R133 does not speak of, is log entry 82, a DESIGN CHOICE. -/
def State.setMirrorPair (src mon : Screen16) (s : State) : State :=
  let s := s.endMirror
  let s := (s.setScreen mon (s.screen mon).emptied).retimeScreen mon
  let m := sourceCopy (s.screen src)
  { s with arb := { s.arb with mirror := some (src, mon) } }.sendCopy mon m

/-- Selectors replaced; a counter whose selector changes is set to 0 (R137). -/
def Screen.select (sel : Vector CountEvent 3) (x : Screen) : Screen :=
  { x with selectors := sel,
           counters := Vector.ofFn fun j => if sel[j] = x.selectors[j] then x.counters[j] else 0 }

/-- CLEAR COUNTERS (R137). -/
def State.clearCounters (screens : BitVec 16) (s : State) : State :=
  allScreens.foldl (fun s i =>
    if screens.getLsbD i.val then s.setScreen i { s.screen i with counters := Vector.replicate 3 0 } else s) s

end Sys2Proof.Machine
end

