-- ==== Sys2Proof/Machine/Titles.lean ====
section
/-! DEFINITION. The Descriptor Unit (05_title_descriptors.md): the cache with its pseudo-LRU marks (R101),
requests and pins (R102, R104), the wait queue (R103), fetches (R105, R106), WARM (R107), INVALIDATE (R108 to
R110) and LOAD (R111). Answers and reported re-fetches are results of these operations; the blocks that take
them are told by the caller. -/

namespace Sys2Proof.Machine

/-- The four ways of a set in ascending order. -/
def allWays : List (Fin 4) := [0, 1, 2, 3]

/-- The sets of the cache in ascending order. -/
def allSets : List (Fin 32) := List.finRange 32

/-- The way is free: it holds no entry (R100). -/
def Way.isFree (w : Way) : Bool := w.entry.isNone

/-- An entry still being looked up. -/
def EntryState.isFetching : EntryState → Bool
  | .fetching _ _ => true
  | .valid _ _ => false
  | .absent => false

/-- The way is eligible: it holds a VALID or ABSENT entry with pin count 0 (R101). -/
def Way.eligible (w : Way) : Bool := w.entry.any fun e => !e.state.isFetching && e.pins == 0

/-- Using way `w` sets the pair mark to the other pair and its pair's mark to its partner (R101). -/
def CacheSet.touch (x : CacheSet) (w : Fin 4) : CacheSet :=
  if w = 0 then { x with pairMark := true, mark0 := true }
  else if w = 1 then { x with pairMark := true, mark0 := false }
  else if w = 2 then { x with pairMark := false, mark1 := true }
  else { x with pairMark := false, mark1 := false }

/-- The two ways of the first pair, the one its mark names first. -/
def CacheSet.firstPair (x : CacheSet) : List (Fin 4) := if x.mark0 then [1, 0] else [0, 1]

/-- The two ways of the second pair, the one its mark names first. -/
def CacheSet.secondPair (x : CacheSet) : List (Fin 4) := if x.mark1 then [3, 2] else [2, 3]

/-- The candidate order of R101. -/
def CacheSet.candidates (x : CacheSet) : List (Fin 4) :=
  if x.pairMark then x.secondPair ++ x.firstPair else x.firstPair ++ x.secondPair

/-- The way a new entry takes: the lowest free one, else the first eligible candidate (R101, R102). -/
def CacheSet.choose (x : CacheSet) : Option (Fin 4) :=
  match allWays.find? fun w => x.ways[w].isFree with
  | some w => some w
  | none => x.candidates.find? fun w => x.ways[w].eligible

/-- The way that holds an entry for the key. -/
def CacheSet.find (x : CacheSet) (k : Key) : Option (Fin 4) :=
  allWays.find? fun w => x.ways[w].entry.any fun e => e.key == k

/-- The wait queue replaced. -/
def State.setQueue (q : List WaitItem) (s : State) : State := { s with du := { s.du with queue := q } }

/-- The key waits in the allocation wait queue (R103). -/
def State.keyWaits (k : Key) (s : State) : Bool := s.du.queue.any fun i => i.key == k

/-- The address of access `n` of a key's fetch: 0..3 in group h₁, 4..7 in group h₂ (R98, R99). -/
def fetchAddress (table exponent : Nat) (k : Key) (n : Nat) : Nat :=
  let group := if n < 4 then primaryGroup k exponent else secondaryGroup k exponent
  table + 128 * group + 32 * (n % 4)

/-- The detail of a fetch's MEMORY FAULT record (R106): the key and both group addresses. No rule names a table for it,
and its table byte is 0 (log entry 33). -/
def fetchDetail (table exponent : Nat) (k : Key) (n : Nat) : FaultDetail :=
  { table := 0, lang := k.lang.val, index := k.title, group1 := table + 128 * primaryGroup k exponent,
    group2 := table + 128 * secondaryGroup k exponent, secondary := decide (4 ≤ n) }

/-- The next access of the fetch on a way is made to the memory port: urgent when the entry is pinned, else
background (R105). While the way holds a cancelled read it is not made (R109). -/
def State.queueFetch (j : Fin 32) (w : Fin 4) (s : State) : State :=
  let way := s.way j w
  match way.entry, s.du.table with
  | some e, some (table, exponent) =>
    match e.state with
    | .fetching n false =>
      if way.cancelled then s
      else
        (s.setWay j w { way with entry := some { e with state := .fetching n true } }).enqueue
          (.read (.fetch j w) (fetchAddress table exponent e.key n) 32
            (if 0 < e.pins then .urgent else .background) (fetchDetail table exponent e.key n))
    | _ => s
  | _, _ => s

/-- A new FETCHING entry takes way `w`, which is used, and its fetch starts (R102, R103, R107). -/
def State.allocate (j : Fin 32) (w : Fin 4) (k : Key) (pins : Nat) (s : State) : State :=
  let s := s.setWay j w { s.way j w with entry := some { key := k, state := .fetching 0 false, pins := pins } }
  (s.setCacheSet j ((s.cacheSet j).touch w)).queueFetch j w

/-- Way `w` may have become eligible or free: the oldest waiting item of its set takes it (R103). -/
def State.serve (j : Fin 32) (w : Fin 4) (s : State) : State :=
  if (s.way j w).isFree || (s.way j w).eligible then
    match s.du.queue.find? fun i => setOf i.key == j with
    | none => s
    | some i => (s.setQueue (s.du.queue.erase i)).allocate j w i.key i.pins
  else s

/-- The pin count of the entry on a way changed. -/
def State.setPins (j : Fin 32) (w : Fin 4) (f : Nat → Nat) (s : State) : State :=
  let way := s.way j w
  s.setWay j w { way with entry := way.entry.map fun e => { e with pins := f e.pins } }

/-- A request that found its key, or did not (R112). -/
def State.countRequest (hit : Bool) (s : State) : State :=
  { s with du := if hit then { s.du with hits := bump s.du.hits } else { s.du with misses := bump s.du.misses } }

/-- What the entry on a way answers at once. -/
def Way.answer (w : Way) : KeyResult :=
  match w.entry with
  | some e => match e.state with
    | .fetching _ _ => .pending
    | .valid h c => .present h c
    | .absent => .absent
  | none => .pending

/-- A requester asks for a key (R102, R103): the state after, and the answer it has at once. -/
def State.requestKey (k : Key) (s : State) : State × KeyResult :=
  let j := setOf k
  match (s.cacheSet j).find k with
  | some w =>
    let s := (s.setPins j w (· + 1)).countRequest true
    (s.setCacheSet j ((s.cacheSet j).touch w), (s.way j w).answer)
  | none =>
    let s := s.countRequest false
    if s.keyWaits k then
      (s.setQueue (s.du.queue.map fun i => if i.key = k then { i with pins := i.pins + 1 } else i), .pending)
    else
      match (s.cacheSet j).choose with
      | some w => (s.allocate j w k 1, .pending)
      | none =>
        if s.du.queue.length < Config.waitQueueMax then
          (s.setQueue (s.du.queue ++ [{ key := k, joined := s.clock, pins := 1 }]), .pending)
        else (s, .faulted)

/-- A requester releases its pin on a key (R104). -/
def State.releaseKey (k : Key) (s : State) : State :=
  let j := setOf k
  match (s.cacheSet j).find k with
  | some w => (s.setPins j w (· - 1)).serve j w
  | none =>
    s.setQueue ((s.du.queue.map fun i => if i.key = k then { i with pins := i.pins - 1 } else i).filter
      fun i => i.key != k || decide (0 < i.pins))

/-- A requester releases its pins on its keys, in the order of its list (log entry 62). A key answered FAULTED is
pinned no more (R106). -/
def State.releaseKeys (ks : List (Key × KeyResult)) (s : State) : State :=
  ks.foldl (fun s p => if p.2 = .faulted then s else s.releaseKey p.1) s

/-- The fetch on a way has ended with the result given (R105, steps 1 and 2). -/
def State.endFetch (j : Fin 32) (w : Fin 4) (e : CacheEntry) (r : Option (BitVec 32 × Nat)) (s : State) : State :=
  s.setWay j w { s.way j w with entry := some { e with state := match r with
    | some (h, c) => .valid h c
    | none => .absent } }

/-- The result of a fetch as an answer (R89). -/
def answerOf : Option (BitVec 32 × Nat) → KeyResult
  | some (h, c) => .present h c
  | none => .absent

/-- An access of a fetch has completed with the bytes given (R99, R105): the state after, and the answer when
the fetch has ended. -/
def State.fetchAnswered (j : Fin 32) (w : Fin 4) (d : List Byte) (s : State) : State × Option (Key × KeyResult) :=
  match (s.way j w).entry with
  | none => (s, none)
  | some e =>
    match e.state with
    | .fetching n true =>
      let r := matchAccess e.key d
      if r.isSome || decide (7 ≤ n) then (s.endFetch j w e r, some (e.key, answerOf r))
      else
        ((s.setWay j w { s.way j w with entry := some { e with state := .fetching (n + 1) false } }).queueFetch j w, none)
    | _ => (s, none)

/-- The cancelled read of a way has ended, by answer or by fault: the way's new fetch may start (R109). -/
def State.endCancelled (j : Fin 32) (w : Fin 4) (s : State) : State :=
  (s.setWay j w { s.way j w with cancelled := false }).queueFetch j w

/-- An access of a fetch has faulted: the way is freed, and the answer FAULTED is for its key (R106). -/
def State.fetchFaulted (j : Fin 32) (w : Fin 4) (s : State) : State × Option (Key × KeyResult) :=
  match (s.way j w).entry with
  | none => (s, none)
  | some e => (s.setWay j w { s.way j w with entry := none }, some (e.key, .faulted))

/-- One key of a WARM (R107). -/
def State.warmKey (k : Key) (s : State) : State :=
  let j := setOf k
  match (s.cacheSet j).find k with
  | some w => s.setCacheSet j ((s.cacheSet j).touch w)
  | none =>
    if s.keyWaits k then s
    else match (s.cacheSet j).choose with
      | some w => s.allocate j w k 0
      | none => s

/-- The fetch of an entry has an access made to the memory port. -/
def EntryState.outstanding : EntryState → Bool
  | .fetching _ q => q
  | .valid _ _ => false
  | .absent => false

/-- INVALIDATE reaches the entry on a way (R108, R109): an unpinned entry is removed, a pinned one is fetched
again from access 0 and its re-fetch is reported. -/
def State.invalidateWay (j : Fin 32) (w : Fin 4) (s : State) : State × List Key :=
  let way := s.way j w
  match way.entry with
  | none => (s, [])
  | some e =>
    let cancelled := way.cancelled || e.state.outstanding
    if e.pins = 0 then ((s.setWay j w { entry := none, cancelled := cancelled }).serve j w, [])
    else
      ((s.setWay j w { entry := some { e with state := .fetching 0 false }, cancelled := cancelled }).queueFetch j w,
        [e.key])

/-- INVALIDATE of one key (R108). -/
def State.invalidateKey (k : Key) (s : State) : State × List Key :=
  match (s.cacheSet (setOf k)).find k with
  | some w => s.invalidateWay (setOf k) w
  | none => (s, [])

/-- INVALIDATE of all keys, set by set and way by way (R110). -/
def State.invalidateAll (s : State) : State × List Key :=
  allSets.foldl (fun p j => allWays.foldl (fun (q : State × List Key) w =>
    ((q.1.invalidateWay j w).1, q.2 ++ (q.1.invalidateWay j w).2)) p) (s, [])

/-- A way emptied by a LOAD: an outstanding access becomes a cancelled read (R111). -/
def Way.drop (w : Way) : Way :=
  { entry := none, cancelled := w.cancelled || w.entry.any fun e => e.state.outstanding }

/-- The unit when a LOAD is taken (R111). -/
def Descriptors.dropped (d : Descriptors) : Descriptors :=
  { Descriptors.reset with sets := d.sets.map fun x => { CacheSet.reset with ways := x.ways.map Way.drop } }

end Sys2Proof.Machine
end

