-- ==== Sys2Proof/Machine/Timing.lean ====
section
/-! DEFINITION. The Cue Scheduler up to the fire (04_cue_timing.md): leads (R78), the prediction of POSITION
cues (R79) and its gate (R81), the timing of GO and FOLLOW cues (R84 to R86), and what the tracker's
hand-overs do (R80, R82). -/

namespace Sys2Proof.Machine

/-! ### The armed list -/

/-- The armed cue list replaced. -/
def State.setArmed (es : List Armed) (s : State) : State := { s with sch := { s.sch with armed := es } }

/-- The entry is of this cue in this pass. -/
def Armed.isOf (e : Armed) (cue pass : Nat) : Bool := e.cue == cue && e.pass == pass

/-- The armed entry of a cue in a pass. -/
def State.armedEntry (cue pass : Nat) (s : State) : Option Armed := s.sch.armed.find? fun e => e.isOf cue pass

/-- The armed entry of a cue in a pass changed. -/
def State.updateArmed (cue pass : Nat) (f : Armed → Armed) (s : State) : State :=
  s.setArmed (s.sch.armed.map fun e => if e.isOf cue pass then f e else e)

/-- The place of a section in a running order. -/
def orderIndex (order : List Nat) (sec : Nat) : Nat := order.findIdx fun n => n == sec

/-- Performance order (R75): by running order, then pass, then cue index. -/
def performsBefore (order : List Nat) (a b : Armed) : Bool :=
  decide (orderIndex order a.sec < orderIndex order b.sec) ||
  (decide (orderIndex order a.sec = orderIndex order b.sec) &&
    (decide (a.pass < b.pass) || (decide (a.pass = b.pass) && decide (a.cue < b.cue))))

/-- An entry takes the place performance order gives it (R76). -/
def insertArmed (order : List Nat) (e : Armed) : List Armed → List Armed
  | [] => [e]
  | x :: xs => if performsBefore order e x then e :: x :: xs else x :: insertArmed order e xs

/-- The descriptors-complete flag: no key result is PENDING (R75). -/
def Armed.isComplete (e : Armed) : Bool := e.keys.all fun p => p.2 != .pending

/-! ### Leads (R78) -/

/-- The cue addresses screen `i` (R78). -/
def State.addresses (c : Cue) (s : State) (i : Screen16) : Bool :=
  c.scope.getLsbD i.val && !s.isMonitor i &&
    (c.action == .blank || (layoutLangs (s.screen i).layout).any fun g => c.langs.getLsbD g.val)

/-- The addressed screens of a cue, ascending (R78). -/
def State.addressed (c : Cue) (s : State) : List Screen16 := allScreens.filter (s.addresses c)

/-- The lead of screen `i` for a cue: its latency, and F when the transition resolves to FADE (R78). -/
def State.leadOf (c : Cue) (s : State) (i : Screen16) : Nat :=
  let caps := (s.link i).caps
  let tr := match c.action with
    | .title => resolveShow c.override (s.screen i).preferred caps
    | .blank => resolveClear c.override (s.screen i).preferred caps
  (s.screen i).latency + if tr = .fade then fadeMicros caps else 0

/-- The cue lead L_c: the largest lead among the addressed screens, 0 when there is none (R78). -/
def State.cueLead (c : Cue) (s : State) : Nat := maxOf ((s.addressed c).map (s.leadOf c))

/-! ### Predicting and gating -/

/-- The effective position P = B − absorb count of the tracker view (R79). -/
def TrackerView.effective (v : TrackerView) : Int := (v.beat : Int) - (v.absorb : Int)

/-- The appearance time that the tracker view predicts for a target (R79, steps 1 to 3), held at 0. -/
def TrackerView.appearance (v : TrackerView) (b : Int) (tick : Nat) : Time :=
  ((v.tLast : Int) + ((b - v.effective) * (v.period : Int) + (roundHalfUp (tick * v.period) 120 : Int))).toNat

/-- A POSITION entry predicted from the tracker view (R79); its timing state is left to the gate. -/
def State.predict (s : State) (e : Armed) : Armed :=
  match e.target with
  | none => e
  | some (b, tick) =>
    let a := s.sch.view.appearance b tick
    let lead := s.cueLead e.copy
    { e with appear := some a, lead := some lead, fire := some (a - lead) }

/-- TIMED at T, or DUE when T has been reached. -/
def timedOrDue (now : Time) (fire : Option Time) : Timing :=
  match fire with
  | some t => if t ≤ now then .due else .timed
  | none => .gated

/-- The gate of R81 under a tracker view, for a target beat and tick. -/
def gateOf (v : TrackerView) (now : Time) (b : Int) (tick : Nat) (fire : Option Time) : Timing :=
  let p := v.effective
  match v.state with
  | .suspended => .gated
  | .locking => .gated
  | .lost => .gated
  | .freewheel => if v.fermata && (decide (p < b) || (decide (b = p) && decide (0 < tick))) then .gated else timedOrDue now fire
  | .tracking =>
    if v.fermata && (decide (p < b) || (decide (b = p) && decide (0 < tick))) then .gated
    else match v.confidence with
      | .steady => timedOrDue now fire
      | .loose => if p < b then .gated else timedOrDue now fire
      | .erratic => if (if tick = 0 then decide (p < b) else decide (p < b + 1)) then .gated else .due

/-- A POSITION entry passes through the gate; at a move into a CALLED section the table is not applied
(R81). -/
def State.gate (s : State) (moved : Bool) (e : Armed) : Armed :=
  match e.target with
  | none => e
  | some (b, tick) =>
    { e with timing := if moved then timedOrDue s.clock e.fire else gateOf s.sch.view s.clock b tick e.fire }

/-- An armed POSITION entry that is GATED or TIMED is predicted and gated (R80, R81). -/
def State.repredict (s : State) (moved : Bool) (e : Armed) : Armed :=
  if e.timing = .gated ∨ e.timing = .timed then s.gate moved (s.predict e) else e

/-- The tracker view replaced. -/
def State.setView (v : TrackerView) (s : State) : State := { s with sch := { s.sch with view := v } }

/-- What the tracker hands over now (R35, R74). -/
def State.currentView (s : State) : TrackerView :=
  { state := s.trk.state, confidence := s.trk.confidence, beat := s.trk.beat, absorb := s.trk.absorb,
    tLast := s.trk.tLast, period := s.trk.period, fermata := s.trk.facts.fermata }

/-- The hand-over of a counted beat (R80); firing follows it. -/
def State.handBeat (moved : Bool) (s : State) : State :=
  let s := s.setView s.currentView
  s.setArmed (s.sch.armed.map (s.repredict moved))

/-- A TIMED POSITION entry returns to GATED (R82). -/
def gatePosition (e : Armed) : Armed :=
  if e.target.isSome && e.timing == .timed then { e with timing := .gated } else e

/-- The hand-over of a change of tracker state (R82). -/
def State.handState (s : State) : State :=
  let s := s.setView { s.sch.view with state := s.trk.state }
  s.setArmed (s.sch.armed.map gatePosition)

/-! ### GO and FOLLOW cues -/

/-- An entry timed from a GO at `g` (R84, R86). -/
def State.timeFromGo (g : Time) (s : State) (e : Armed) : Armed :=
  let lead := s.cueLead e.copy
  { e with lead := some lead, appear := some (g + lead), fire := some g, timing := .due }

/-- The follow delay of a cue, 0 for another anchor. -/
def Cue.delay (c : Cue) : Nat :=
  match c.anchor with
  | .follow d => d
  | _ => 0

/-- The cue is anchored FOLLOW. -/
def Cue.isFollow (c : Cue) : Bool :=
  match c.anchor with
  | .follow _ => true
  | _ => false

/-- A FOLLOW entry timed from an appearance time (R85). -/
def State.timeFollow (from_ : Time) (s : State) (e : Armed) : Armed :=
  let lead := s.cueLead e.copy
  let a := from_ + e.copy.delay
  { e with lead := some lead, appear := some a, fire := some (a - lead), timing := timedOrDue s.clock (some (a - lead)) }

/-- When a cue fires, the FOLLOW entry whose predecessor it was is timed from its A (R85, R90 step 7): one TIMED by an
earlier fire anew, while a DUE one keeps its A, T and lead (R77). -/
def State.timeFollower (cue pass : Nat) (appear : Time) (s : State) : State :=
  s.updateArmed (cue + 1) pass fun e =>
    if e.copy.isFollow && e.timing != .due then s.timeFollow appear e else e

/-! ### Keys -/

/-- The keys a cue needs now: each language of its mask that the layout of an addressed screen names (R76), in
ascending language (log entry 60). -/
def State.keysOf (c : Cue) (s : State) : List Key :=
  match c.action with
  | .blank => []
  | .title =>
    (allLangs.filter fun g => c.langs.getLsbD g.val &&
      ((s.addressed c).any fun i => (layoutLangs (s.screen i).layout).contains g)).map fun g =>
        { title := c.title, lang := g }

/-- Keys requested one after another, with the results they have at once (R76). -/
def State.requestKeys (ks : List Key) (s : State) : State × List (Key × KeyResult) :=
  ks.foldl (fun p k => ((p.1.requestKey k).1, p.2 ++ [(k, (p.1.requestKey k).2)])) (s, [])

/-- The keys of some requests answered FAULTED: the requester holds no pin on them (R103, R106). -/
def unpinnedOf (ks : List (Key × KeyResult)) : List Key := (ks.filter fun p => p.2 == .faulted).map (·.1)

/-- The keys on which an entry holds a pin, with their results (R104). -/
def Armed.pinnedKeys (e : Armed) : List (Key × KeyResult) := e.keys.filter fun p => !e.unpinned.contains p.1

/-- The entry waits for an answer for the key. -/
def Armed.awaits (k : Key) (e : Armed) : Bool := e.keys.any fun p => p.1 == k && p.2 == .pending

/-- An answer for a key is written into every result that is PENDING on it (R89); with FAULTED the pin on it is
gone (R106). -/
def Armed.answerKey (k : Key) (r : KeyResult) (e : Armed) : Armed :=
  { e with
    keys := e.keys.map fun p => if p.1 = k ∧ p.2 = .pending then (k, r) else p
    unpinned := if r = .faulted ∧ e.awaits k ∧ k ∉ e.unpinned then e.unpinned ++ [k] else e.unpinned }

/-- A reported re-fetch returns the result for a key to PENDING, a FAULTED one too (R89, R108). That it holds no
pin on the key then stays so (R106, log entry 45). -/
def Armed.refetchKey (k : Key) (e : Armed) : Armed :=
  { e with keys := e.keys.map fun p => if p.1 = k then (k, .pending) else p }

/-! ### Show-level events -/

/-- The armed list is emptied: every pin released, no fire record (R95, R104). The entries release theirs in list
order, each in the order of its keys (log entry 62). No offer review comes of it (log entry 75). -/
def State.emptyArmed (s : State) : State :=
  let es := s.sch.armed
  let s := { s with sch := { s.sch with armed := [], fireRecord := none } }
  es.foldl (fun s e => s.releaseKeys e.pinnedKeys) s

/-- PAUSE: every TIMED entry becomes GATED (R96). -/
def State.pauseTimers (s : State) : State :=
  s.setArmed (s.sch.armed.map fun e => if e.timing = .timed then { e with timing := .gated } else e)

/-- RESUME takes up the FOLLOW entries that PAUSE gated, with the T they held (R96). -/
def State.resumeFollows (s : State) : State :=
  s.setArmed (s.sch.armed.map fun e =>
    if e.target.isNone && e.timing == .gated then { e with timing := timedOrDue s.clock e.fire } else e)

end Sys2Proof.Machine
end

