-- ==== Sys2Proof/Machine/Tracking.lean ====
section
/-! DEFINITION. The Beat Tracker's changes of state that no beat makes (02_beat_tracking.md R48 to R50), its
records (R51), and the positions of the score map it reads: bars, tempo in force (R6) and bar facts. -/

namespace Sys2Proof.Machine

/-! ### The score map -/

/-- Section `n` of the script held. -/
def Walker.sec (w : Walker) (n : Nat) : Option Section := w.script.bind fun sc => sc.sections[n]?

/-- The bars of a section (R4). -/
def Walker.barsOf (w : Walker) (x : Section) : List Bar :=
  match w.script with
  | some sc => (sc.bars.drop x.firstBar).take x.barCount
  | none => []

/-- The beats of some bars. -/
def beatsIn (bars : List Bar) : Nat := (bars.map (·.beats)).sum

/-- The length S of a section in beats (03_walking_the_score "Mapping a beat"). -/
def Walker.lengthOf (w : Walker) (x : Section) : Nat := beatsIn (w.barsOf x)

/-- The tempo in force at bar `n` of a section: the latest mark of bars 1..n, else the nominal period (R6). -/
def Walker.tempoAt (w : Walker) (x : Section) (n : Nat) : Nat :=
  match (((w.barsOf x).take n).filter fun b => b.mark != 0).getLast? with
  | some b => b.mark * 100
  | none => x.nominal

/-- The facts of a bar, at a beat of it (R5, R25). -/
def Bar.facts (b : Bar) (beatInBar : Nat) : BarFacts :=
  { beats := b.beats, beatInBar := beatInBar, fermata := b.fermata, mark := b.mark }

/-- The notional bar of END, and of the tracker after a reset (R25, R54). -/
def notionalBar : BarFacts := { beats := 1, beatInBar := 1, fermata := false, mark := 0 }

/-- The facts of bar `n` of a section at its beat 1. -/
def Walker.factsAt (w : Walker) (x : Section) (n : Nat) : BarFacts :=
  match (w.barsOf x)[n - 1]? with
  | some b => b.facts 1
  | none => notionalBar

/-! ### The tracker -/

/-- The tracker replaced. -/
def State.setTracker (k : Tracker) (s : State) : State := { s with trk := k }

/-- The causes of a TRACKER STATE record, numbered from 1 in the order of R51. -/
inductive TrackCause
  | arrival | timeout | sectionChange | directive | lockoutStart | lockoutEnd
  deriving DecidableEq, Repr

/-- The code of a cause (R194). -/
def TrackCause.code : TrackCause → Nat
  | .arrival => 1 | .timeout => 2 | .sectionChange => 3 | .directive => 4 | .lockoutStart => 5 | .lockoutEnd => 6

/-- TRACKER STATE journalled for the tracker as it now stands (R51). -/
def State.journalTracker (old : TrackerState) (cause : TrackCause) (s : State) : State :=
  s.journal (.trackerState old.code s.trk.state.code cause.code s.trk.beat s.trk.period)

/-- The tracker as it becomes SUSPENDED (R48, R50). -/
def Tracker.suspended (k : Tracker) : Tracker :=
  { k with state := .suspended, timeout := none, absorb := 0, synthetic := 0, bounces := 0 }

/-- A change of tracker state that is not made while a beat is settled is journalled and handed to the
scheduler (R51, R52). -/
def State.trackerChanged (old : TrackerState) (cause : TrackCause) (s : State) : State :=
  if s.trk.state = old then s else (s.journalTracker old cause).handState

/-- The tracker becomes SUSPENDED at PAUSE, STOP or the automatic end (R50). -/
def State.suspendTracker (cause : TrackCause) (s : State) : State :=
  (s.setTracker s.trk.suspended).trackerChanged s.trk.state cause

/-- The tracker becomes LOCKING as the show walks from a CALLED into a BEAT section (R48). -/
def State.lockFromCalled (x : Section) (s : State) : State :=
  (s.setTracker { s.trk with
    state := .locking, period := s.wlk.tempoAt x 1, ring := [], confidence := .loose, absorb := 0,
    synthetic := 0, bounces := 0, timeout := none }).trackerChanged s.trk.state .sectionChange

/-- The tracker becomes LOCKING at RESUME into a BEAT section, with E and the ring kept (R50). -/
def State.lockForResume (s : State) : State :=
  (s.setTracker { s.trk with
    state := .locking, absorb := 0, bounces := 0, timeout := none }).trackerChanged s.trk.state .directive

/-- ARM and LOCATE position the tracker at bar `n` of a section (R49). -/
def State.positionTracker (x : Section) (n : Nat) (s : State) : State :=
  let k := s.trk
  (s.setTracker
    { k with
      state := match x.mode with | .beat => .locking | .called => .suspended
      beat := 0, tLast := 0, bReal := 0, tReal := 0
      period := match x.mode with | .beat => s.wlk.tempoAt x n | .called => k.period
      ring := [], confidence := .loose, absorb := 0, counted := false, synthetic := 0, bounces := 0
      timeout := none, facts := s.wlk.factsAt x n }).trackerChanged k.state .directive

end Sys2Proof.Machine
end

