-- ==== Sys2Proof/Machine/Walking.lean ====
section
/-! DEFINITION. The Score Walker (03_walking_the_score.md): offering cues (R62 to R66), the fire cursor and GO
(R57 to R61), mapping beats and moving between sections (R54, R55), positioning (R71), and the automatic end
that its reports can bring (R175). -/

namespace Sys2Proof.Machine

/-- The walker replaced. -/
def State.setWalker (w : Walker) (s : State) : State := { s with wlk := w }

/-! ### The running order -/

/-- The sections that play in version `v`, ascending (R12). -/
def runningOrder (secs : List Section) (v : Nat) : List Nat :=
  (List.range secs.length).filter fun n => (secs[n]?).any fun x => x.versions.getLsbD v

/-- The entry that follows `n` in a running order (R12). -/
def nextIn : List Nat → Nat → Option Nat
  | [], _ => none
  | m :: ms, n => if m = n then ms.head? else nextIn ms n

/-- The section after `n` (R12). -/
def Walker.nextSec (w : Walker) (n : Nat) : Option Nat := w.order.bind fun o => nextIn o n

/-- The cue index one past a section's last cue. -/
def Section.cueEnd (x : Section) : Nat := x.firstCue + x.cueCount

/-! ### Records of the walker -/

/-- The causes of a SECTION ENTERED record (11_record_formats.md). -/
inductive EnterCause
  | beat | go | arm | locate
  deriving DecidableEq, Repr

/-- The code of a cause. -/
def EnterCause.code : EnterCause → Nat
  | .beat => 1 | .go => 2 | .arm => 3 | .locate => 4

/-- SECTION ENTERED journalled for the section in force (R55, R61, R71; for END log entry 33). -/
def State.journalEntered (cause : EnterCause) (s : State) : State :=
  let mode := match s.wlk.inForce with
    | .sec n => (s.wlk.sec n).map fun x : Section => x.mode.code
    | _ => none
  s.journal (.sectionEntered (mode.getD 0) s.wlk.pass cause.code s.wlk.inForce.code s.wlk.origin s.trk.beat)

/-- The reasons of a DESK IGNORED record, with their codes (11_record_formats.md). -/
inductive IgnoreReason
  | engineState | beatSection | exitAlreadySet | showPassed | goOwed | withdrawn | noHistory | nothingShown
  deriving DecidableEq, Repr

/-- The code of a reason. -/
def IgnoreReason.code : IgnoreReason → Nat
  | .engineState => 1 | .beatSection => 2 | .exitAlreadySet => 3 | .showPassed => 4 | .goOwed => 5
  | .withdrawn => 6 | .noHistory => 7 | .nothingShown => 8

/-- The ignored count of a line rises (R160, R161). -/
def State.countIgnored (l : Line) (s : State) : State :=
  s.setLine l { s.line l with ignored := bump (s.line l).ignored }

/-- An arrival that is not acted on: DESK IGNORED is journalled and the line's ignored count rises (R160,
R161). -/
def State.ignoreDesk (l : Line) (reason : IgnoreReason) (s : State) : State :=
  (s.journal (.deskIgnored (lineCode l) reason.code s.ctl.engine.code s.wlk.inForce.code s.trk.beat)).countIgnored l

/-- An owed GO is withdrawn at PAUSE, LOCATE or STOP (R60, R161). -/
def State.withdrawGo (s : State) : State :=
  match s.wlk.owedGo with
  | none => s
  | some _ => (s.setWalker { s.wlk with owedGo := none }).ignoreDesk .go .withdrawn

/-! ### Offering cues -/

/-- An offer read whose result is to be discarded (R68). -/
def Access.discardOffer (a : Access) : Access :=
  { a with purpose := match a.purpose with
    | .offer _ => .offer true
    | p => p }

/-- The result of an offer read in flight is to be discarded (R68; log entry 20). -/
def State.discardRead (s : State) : State :=
  let p := s.smi.port
  s.setPort { p with
    urgent := p.urgent.map Access.discardOffer
    inFlight := p.inFlight.map fun f => { f with access := f.access.discardOffer } }

/-- The engine states in which the walker offers cues (R64). -/
def EngineState.offers : EngineState → Bool
  | .armed => true | .running => true | .pausing => true | .paused => true
  | _ => false

/-- B + look-ahead. -/
def State.horizon (s : State) : Int := (s.trk.beat : Int) + (s.wlk.lookAhead : Int)

/-- The cursor stands in the pass in force of section `n` (R62, log entry 22). -/
def Walker.inPass (w : Walker) (c : Cursor) : Bool := w.inForce == .sec c.sec && c.origin == some w.origin

/-- The cursor at the first cue of a section. -/
def cursorAt (n : Nat) (x : Section) (pass : Nat) (origin : Option Int) : Cursor :=
  { sec := n, pass := pass, origin := origin, cue := x.firstCue }

/-- Where a cursor that has no cue left in its pass goes, by the first row of R66 that describes it; none while
it waits or stops. `x` is its section. -/
def State.leavePass (s : State) (c : Cursor) (x : Section) : Option Cursor :=
  let w := s.wlk
  let o := c.origin.getD 0
  let len : Int := (w.lengthOf x : Int)
  let next := (w.nextSec c.sec).bind fun m => (w.sec m).map fun y => (m, y)
  match x.mode with
  | .beat =>
    if x.vamp && w.inForce == .sec c.sec && decide (o < w.origin) then
      some (cursorAt c.sec x (min Config.passMax (c.pass + 1)) (some (o + len)))
    else if x.vamp && !(w.inPass c && w.exitFlag) then none
    else match next with
      | none => none
      | some (m, y) =>
        match y.mode with
        | .called => if o + len - 1 ≤ s.horizon then some (cursorAt m y 1 none) else none
        | .beat => some (cursorAt m y 1 (some (o + len)))
  | .called =>
    match next with
    | none => none
    | some (m, y) =>
      match y.mode with
      | .called => some (cursorAt m y 1 none)
      | .beat => if w.inForce = .sec m then some (cursorAt m y 1 (some w.origin)) else none

/-- The cursor leaves passes that have no cue left, as far as R66 lets it; `fuel` bounds the passes. -/
def State.advanceCursor : Nat → State → State
  | 0, s => s
  | n + 1, s =>
    match s.wlk.cursor with
    | none => s
    | some c =>
      match s.wlk.sec c.sec with
      | none => s
      | some x =>
        if c.cue < x.cueEnd then s
        else match s.leavePass c x with
          | none => s
          | some c' => State.advanceCursor n (s.setWalker { s.wlk with cursor := some c', waiting := none, heldBack := false })

/-- The fire cursor stands on this cue of the section in force (R58). -/
def Walker.atFireCursor (w : Walker) (c : Cursor) : Bool :=
  w.inForce == .sec c.sec && w.fireCursor == some c.cue

/-- The cue at the cursor is in the window of a CALLED section, but for the FOLLOW case (R65). -/
def Walker.calledWindow (w : Walker) (c : Cursor) : Bool :=
  decide (w.calledOffers < Config.calledWindow) || w.atFireCursor c

/-- The cue one below the cursor, in the same pass, was the last cue handed (R65). -/
def Walker.followsHanded (w : Walker) (c : Cursor) : Bool :=
  decide (0 < c.cue) && w.lastHanded == some (c.cue - 1, c.pass)

/-- The cue at the cursor is not held back (R65; R67 step 6; log entry 19). In a CALLED section whose window is full the
cue behind the one handed last is read once all the same: only its record tells whether it is a FOLLOW cue, and any
other is then held back (log entry 19). -/
def State.mayRead (s : State) (c : Cursor) (x : Section) : Bool :=
  match x.mode with
  | .beat =>
    (s.wlk.waiting.all fun b => decide (b ≤ s.horizon)) &&
      !(s.wlk.heldBack && (s.armedEntry c.cue c.pass).isSome)
  | .called => s.wlk.calledWindow c || (s.wlk.followsHanded c && !s.wlk.heldBack)

/-- The read of the cue at the cursor starts (R64, R15). -/
def State.startOffer (c : Cursor) (sc : Script) (s : State) : State :=
  (s.setWalker { s.wlk with reading := true }).enqueue
    (.read (.offer false) (sc.cueTable + 32 * c.cue) 32 .urgent FaultDetail.none)

/-- The cue at the cursor is read when the conditions of R64 hold. -/
def State.offerAtCursor (s : State) : State :=
  match s.wlk.cursor, s.wlk.script with
  | some c, some sc =>
    match s.wlk.sec c.sec with
    | none => s
    | some x =>
      if !s.wlk.reading && decide (s.sch.armed.length < Config.armedMax) && decide (c.cue < x.cueEnd) && s.mayRead c x
      then s.startOffer c sc else s
  | _, _ => s

/-- The walker reviews its offers (R64, R66). -/
def State.reviewOffers (s : State) : State :=
  if s.ctl.engine.offers then (s.advanceCursor 600).offerAtCursor else s

/-- The walk has left the pass with this section and origin; a CALLED section has one pass, and is left whatever origin
its cursor carries (`none`, log entry 77). A cursor that still stands before cues of it is moved to the first cue of the
section in force and its pass, and the cues passed over are journalled (R66; at END log entry 23). A read in flight is
of a cue passed over, and is discarded (log entry 20). The callers journal the move itself first (log entry 68). -/
def State.overrun (sec : Nat) (origin : Option Int) (s : State) : State :=
  match s.wlk.cursor, s.wlk.sec sec with
  | some c, some x =>
    if c.sec = sec ∧ (origin = none ∨ c.origin = origin) ∧ c.cue < x.cueEnd then
      let new := match s.wlk.inForce with
        | .sec m => (s.wlk.sec m).map fun y =>
            cursorAt m y s.wlk.pass (match y.mode with | .beat => some s.wlk.origin | .called => none)
        | _ => none
      ((s.setWalker { s.wlk with cursor := new, waiting := none, heldBack := false }).discardRead).journal
        (.cueRejected 12 c.cue 0 (x.cueEnd - c.cue))
    else s
  | _, _ => s

/-! ### The fire cursor and GO -/

/-- The fire cursor passes cues that were dropped or passed over at step 3 of R67 (R58). `fuel` bounds the
cues. -/
def skipUnhanded (unhanded : List (Nat × Nat)) (pass last : Nat) : Nat → Nat → Nat
  | 0, c => c
  | n + 1, c => if c < last ∧ (c, pass) ∈ unhanded then skipUnhanded unhanded pass last n (c + 1) else c

/-- The first cue of a section from `c` on that the fire cursor can stand on, or the section's end. -/
def Walker.fireFrom (w : Walker) (x : Section) (c : Nat) : Nat :=
  skipUnhanded w.unhanded w.pass x.cueEnd x.cueCount c

/-- An automatic end: with the walker at END and the armed list empty in RUNNING, the show ends (R175). -/
def State.testEnd (s : State) : State :=
  if s.ctl.engine = .running ∧ s.wlk.inForce = .endOfShow ∧ s.sch.armed = [] then
    let s := s.suspendTracker .sectionChange
    let s := (s.setWalker { s.wlk with history := [], owedGo := none }).discardRead
    s.changeEngine .ended .automaticEnd none 0 0
  else s

/-- The section in force becomes END (R55, R61, R73). Its record carries the pass and the pass origin held, and the fire
cursor becomes none from a CALLED section too (log entry 58). -/
def State.passShow (cause : EnterCause) (s : State) : State :=
  (s.setWalker { s.wlk with inForce := .endOfShow, fireCursor := none, exitFlag := false }).journalEntered cause

/-- The section in force becomes the CALLED section `m` (R55, R61; pass origin log entry 24). -/
def State.enterCalled (m : Nat) (y : Section) (cause : EnterCause) (s : State) : State :=
  let w := { s.wlk with inForce := .sec m, pass := 1, exitFlag := false }
  (s.setWalker { w with fireCursor := some (w.fireFrom y y.firstCue) }).journalEntered cause

/-- A GO enters the BEAT section `m` from a CALLED one: its origin is the lock beat, and the tracker becomes
LOCKING (R61, R48). -/
def State.enterBeatByGo (m : Nat) (y : Section) (s : State) : State :=
  let origin : Int := if s.trk.counted then (s.trk.beat : Int) + 1 else (s.trk.beat : Int)
  let walked := if s.trk.counted then some s.trk.beat else none
  ((s.setWalker { s.wlk with
      inForce := .sec m, pass := 1, origin := origin, walked := walked, fireCursor := none,
      exitFlag := false }).journalEntered .go).lockFromCalled y

/-- A GO of time `g` acts on the fire cursor, or on the section's end (R59, R61). `fuel` bounds the sections
one GO can enter. OVERRUN is journalled after SECTION ENTERED and TRACKER STATE (log entry 68). -/
def State.goCalled : Nat → Time → State → State
  | 0, _, s => s
  | n + 1, g, s =>
    match s.wlk.inForce with
    | .sec k =>
      match s.wlk.sec k, s.wlk.fireCursor with
      | some x, some c =>
        if c < x.cueEnd then
          match s.armedEntry c s.wlk.pass with
          | none => s.setWalker { s.wlk with owedGo := some g }
          | some e =>
            if !e.copy.isFollow && e.timing == .due then s.setWalker { s.wlk with owedGo := some g }
            else s.updateArmed c s.wlk.pass (s.timeFromGo g)
        else
          match s.wlk.nextSec k with
          | none => ((s.passShow .go).overrun k none).testEnd
          | some m =>
            match s.wlk.sec m with
            | none => s
            | some y =>
              match y.mode with
              | .called => State.goCalled n g ((s.enterCalled m y .go).overrun k none)
              | .beat => (s.enterBeatByGo m y).overrun k none
      | _, _ => s
    | _ => s

/-- A GO of time `g` that the walker takes in RUNNING (R57, R59). Firing and the offer review follow it. -/
def State.takeGo (g : Time) (s : State) : State :=
  match s.wlk.inForce with
  | .none => s
  | .endOfShow => s.ignoreDesk .go .showPassed
  | .sec n =>
    match s.wlk.sec n with
    | none => s
    | some x =>
      match x.mode with
      | .beat =>
        if x.vamp then
          if s.wlk.exitFlag then s.ignoreDesk .go .exitAlreadySet
          else s.setWalker { s.wlk with exitFlag := true }
        else s.ignoreDesk .go .beatSection
      | .called =>
        if s.wlk.owedGo.isSome then s.ignoreDesk .go .goOwed else s.goCalled 300 g

/-- The owed GO acts on the fire cursor, which has moved (R60). -/
def State.actOwedGo (s : State) : State :=
  match s.wlk.owedGo with
  | none => s
  | some g => (s.setWalker { s.wlk with owedGo := none }).goCalled 300 g

/-- The cue at the fire cursor of the section in force has been fired, dropped or passed over: the cursor moves
from `c`, and an owed GO acts (R58, R60). -/
def State.moveFireCursor (c : Nat) (s : State) : State :=
  match s.wlk.inForce with
  | .sec n =>
    match s.wlk.sec n with
    | some x =>
      if s.wlk.fireCursor.isSome then
        (s.setWalker { s.wlk with fireCursor := some (s.wlk.fireFrom x c) }).actOwedGo
      else s
    | none => s
  | _ => s

/-- The scheduler reports that the cue of an entry has fired and has left the list (R58, R90 step 6). -/
def State.cueFired (e : Armed) (s : State) : State :=
  let called := (s.wlk.sec e.sec).any fun x => x.mode == .called
  let s := if called then s.setWalker { s.wlk with calledOffers := s.wlk.calledOffers - 1 } else s
  let s := if called && s.wlk.inForce == .sec e.sec && s.wlk.fireCursor == some e.cue && s.wlk.pass == e.pass
    then s.moveFireCursor (e.cue + 1) else s
  s.reviewOffers

/-! ### Mapping beats -/

/-- The bar that holds beat `d` of a pass, counted from 0: bar number, beat-in-bar, bar (R54). -/
def findBar (bars : List Bar) (n d : Nat) : Option (Nat × Nat × Bar) :=
  match bars with
  | [] => none
  | b :: bs => if d < b.beats then some (n, d + 1, b) else findBar bs (n + 1) (d - b.beats)

/-- The section in force moves on at the final beat `b` of a pass (R55): the state after, and whether the show
has moved into a CALLED section. `n` and `x` are the section left. OVERRUN is journalled after SECTION ENTERED (log
entry 68). -/
def State.endPass (n : Nat) (x : Section) (b : Nat) (s : State) : State × Bool :=
  let old := some s.wlk.origin
  if x.vamp && !s.wlk.exitFlag then
    (((s.setWalker { s.wlk with pass := min Config.passMax (s.wlk.pass + 1), origin := (b : Int) + 1 }).journalEntered
      .beat).overrun n old, false)
  else
    match (s.wlk.nextSec n).bind fun m => (s.wlk.sec m).map fun y => (m, y) with
    | none => ((s.passShow .beat).overrun n old, false)
    | some (m, y) =>
      match y.mode with
      | .called => ((s.enterCalled m y .beat).overrun n old, true)
      | .beat =>
        (((s.setWalker { s.wlk with
            inForce := .sec m, pass := 1, origin := (b : Int) + 1, exitFlag := false }).journalEntered .beat).overrun
          n old, false)

/-- What the walker answers for a beat: whether it was newly mapped, and whether the show has moved into a
CALLED section (R54). The bar facts it gives stand in the tracker. -/
structure Mapped where
  fresh : Bool
  moved : Bool
  deriving DecidableEq, Repr

/-- The tracker hands show beat `b` to the walker (R54). A beat handed again is answered with the facts already
held, but END answers every beat with the notional bar (log entry 55). -/
def State.mapBeat (b : Nat) (s : State) : State × Mapped :=
  let again := s.wlk.walked.any fun v => decide (b ≤ v)
  match s.wlk.inForce with
  | .endOfShow =>
    ((s.setWalker { s.wlk with walked := if again then s.wlk.walked else some b }).setTracker
      { s.trk with facts := notionalBar }, ⟨!again, false⟩)
  | .none => (s, ⟨false, false⟩)
  | .sec n =>
    if again then (s, ⟨false, false⟩)
    else
      match s.wlk.sec n with
      | none => (s, ⟨false, false⟩)
      | some x =>
        let d := ((b : Int) - s.wlk.origin).toNat
        match findBar (s.wlk.barsOf x) 1 d with
        | none => (s, ⟨false, false⟩)
        | some (bar, beat, r) =>
          let s := (s.setWalker { s.wlk with
            walked := some b, position := some { sec := n, pass := s.wlk.pass, bar := bar, beat := beat } }).setTracker
              { s.trk with facts := r.facts beat }
          if d + 1 = s.wlk.lengthOf x then
            let r := s.endPass n x b
            (r.1.reviewOffers, ⟨true, r.2⟩)
          else (s.reviewOffers, ⟨true, false⟩)

/-! ### Positioning -/

/-- ARM and LOCATE place the walker at bar `n` of section `k` (R71); the running order and the look-ahead
stand already. The cursor origin is the pass origin, in a CALLED section too. -/
def State.positionWalker (k n : Nat) (x : Section) (cause : EnterCause) (s : State) : State :=
  let origin : Int := match x.mode with
    | .beat => -(beatsIn ((s.wlk.barsOf x).take (n - 1)) : Int)
    | .called => 0
  let bar := match x.mode with | .beat => n | .called => 1
  ((s.setWalker { s.wlk with
    inForce := .sec k, pass := 1, origin := origin, walked := none
    position := some { sec := k, pass := 1, bar := bar, beat := 1 }
    exitFlag := false
    cursor := some (cursorAt k x 1 (some origin))
    waiting := none, lastHanded := none, owedGo := none
    fireCursor := match x.mode with | .beat => none | .called => some x.firstCue
    calledOffers := 0, history := [], unhanded := [], heldBack := false }).discardRead).journalEntered cause

end Sys2Proof.Machine
end

