-- ==== Sys2Proof/Machine/Firing.lean ====
section
/-! DEFINITION. Firing (04_cue_timing.md R87, R90 to R94): which DUE entry may fire, what a fire places,
journals and reports, and the loop that fires all that may. -/

namespace Sys2Proof.Machine

/-- The handle and character count an entry holds for a language, when its result is PRESENT. -/
def presentTuple (keys : List (Key × KeyResult)) (g : Lang) : Option Tuple :=
  (keys.find? fun p => p.1.lang == g).bind fun p =>
    match p.2 with
    | .present h c => some { lang := g, handle := h, chars := c }
    | _ => none

/-- The tuples of every PRESENT language, ascending (R90). -/
def presentTuples (keys : List (Key × KeyResult)) : List Tuple := allLangs.filterMap (presentTuple keys)

/-- The tuples for a screen: the languages its layout names that lie in the cue's mask and are PRESENT (R90). -/
def screenTuples (layout : Layout) (mask : BitVec 8) (keys : List (Key × KeyResult)) : List Tuple :=
  (presentTuples keys).filter fun t => mask.getLsbD t.lang.val && (layoutLangs layout).contains t.lang

/-- 0 stands for none in a cue record's speaker and dwell override (R10). -/
def nonZero (n : Nat) : Option Nat := if n = 0 then none else some n

/-- The request a fired cue places at screen `i` (R90, R92). -/
def State.cueRequest (e : Armed) (i : Screen16) (tuples : List Tuple) (s : State) : Request :=
  { level := e.copy.level, kind := match e.copy.action with | .title => .title | .blank => .blank
    ident := .cue e.cue e.copy.number, tuples := tuples
    speaker := match e.copy.action with | .title => nonZero e.copy.speaker | .blank => none
    dwellPercent := e.dwellPercent
    dwellOverride := match e.copy.action with | .title => nonZero e.copy.dwellOverride | .blank => none
    override := e.copy.override, release := e.appear.getD 0 - s.leadOf e.copy i, operator := false,
    endTime := none, deferred := false }

/-- A fired cue at one screen of its scope (R90, R92): the request is placed when there is one, and the screen
joins the mask of screens that received a request. -/
def fireAt (e : Armed) (p : State × BitVec 16) (i : Screen16) : State × BitVec 16 :=
  if e.copy.scope.getLsbD i.val && !p.1.isMonitor i then
    match e.copy.action with
    | .blank => (p.1.placeRequest i (p.1.cueRequest e i []), p.2 ||| BitVec.twoPow 16 i.val)
    | .title =>
      let ts := screenTuples (p.1.screen i).layout e.copy.langs e.keys
      if ts.isEmpty then p else (p.1.placeRequest i (p.1.cueRequest e i ts), p.2 ||| BitVec.twoPow 16 i.val)
  else p

/-- Why a language is missing from a fired TITLE cue, as the code of a DESCRIPTOR MISSING record (R91). The layout of
every screen in scope counts for NOT REQUESTED, the monitor's too. -/
def State.missingReason (e : Armed) (s : State) (g : Lang) : Option Nat :=
  if e.copy.langs.getLsbD g.val then
    match e.keys.find? fun p => p.1.lang == g with
    | some (_, .absent) => some 1
    | some (_, .faulted) => some 2
    | some _ => none
    | none =>
      if allScreens.any fun i => e.copy.scope.getLsbD i.val && (layoutLangs (s.screen i).layout).contains g
      then some 3 else none
  else none

/-- The missing languages of a TITLE entry with their reasons, ascending (R91). -/
def State.missing (e : Armed) (s : State) : List (Lang × Nat) :=
  match e.copy.action with
  | .blank => []
  | .title => allLangs.filterMap fun g => (s.missingReason e g).map fun r => (g, r)

/-- CUE FIRED, and CUE LATE when the fire came later than T plus the late tolerance (R90, R93, R94). -/
def State.journalFire (e : Armed) (screens : BitVec 16) (s : State) : State :=
  let fire := e.fire.getD 0
  let s := s.journal (.cueFired e.pass e.sec e.copy.action.code e.copy.anchor.code e.cue e.copy.number screens
    (e.appear.getD 0) fire)
  if fire + s.sch.lateTolerance < s.clock then s.journal (.cueLate e.pass e.cue e.copy.number (s.clock - fire)) else s

/-- One DESCRIPTOR MISSING record for each missing language (R91). -/
def State.journalMissing (e : Armed) (ms : List (Lang × Nat)) (s : State) : State :=
  ms.foldl (fun s m => s.journal (.descriptorMissing m.1 m.2 e.cue e.copy.number e.copy.title)) s

/-- A history entry is pushed on top, and the oldest of 16 is dropped (R69). -/
def State.pushHistory (h : HistoryEntry) (s : State) : State :=
  s.setWalker { s.wlk with history := (h :: s.wlk.history).take Config.historyMax }

/-- The history entry of a fired TITLE cue (R69). -/
def Armed.historyEntry (e : Armed) (screens : BitVec 16) : HistoryEntry :=
  { cue := e.cue, number := e.copy.number, sec := e.sec, pass := e.pass, level := e.copy.level,
    override := e.copy.override, screens := screens, tuples := presentTuples e.keys,
    speaker := nonZero e.copy.speaker, dwellPercent := e.dwellPercent,
    dwellOverride := nonZero e.copy.dwellOverride }

/-- A fired TITLE cue is pushed to the history; a BLANK is not (R69, R92). -/
def State.remember (e : Armed) (screens : BitVec 16) (s : State) : State :=
  match e.copy.action with
  | .blank => s
  | .title => s.pushHistory (e.historyEntry screens)

/-- The entry leaves the list, and the fire record names it (R90 steps 4 and 5). An emptied list is reported
to Show Control (R95, R175). -/
def State.leaveList (e : Armed) (s : State) : State :=
  ({ s with sch := { s.sch with
      fireRecord := some { cue := e.cue, pass := e.pass, appear := e.appear.getD 0 }
      armed := s.sch.armed.filter fun x => !x.isOf e.cue e.pass } }).testEnd

/-- An entry fires (R90 to R93). -/
def State.fireEntry (e : Armed) (s : State) : State :=
  let ms := s.missing e
  let p := allScreens.foldl (fireAt e) (s, 0)
  (((((((p.1.journalFire e p.2).journalMissing e ms).remember e p.2).releaseKeys e.pinnedKeys).leaveList e).cueFired
    e).timeFollower e.cue e.pass (e.appear.getD 0))

/-- A PENDING key of the entry waits in the allocation wait queue (R87). -/
def State.waitsForWay (e : Armed) (s : State) : Bool := e.keys.any fun p => p.2 == .pending && s.keyWaits p.1

/-- The first entry that may fire in list order: DUE and complete, with no entry ahead that is DUE and
incomplete and does not wait for a way (R87). -/
def State.firstFirable (s : State) : List Armed → Option Armed
  | [] => none
  | e :: es =>
    if e.timing = .due then
      if e.isComplete then some e
      else if s.waitsForWay e then s.firstFirable es else none
    else s.firstFirable es

/-- Firing is open: the engine is RUNNING and FREEZE is released (R87). -/
def State.mayFire (s : State) : Bool := s.ctl.engine == .running && !s.sch.freeze

/-- DUE entries fire one after another; `fuel` bounds their number, which is at most 32. -/
def State.fireLoop : Nat → State → State
  | 0, s => s
  | n + 1, s =>
    if s.mayFire then
      match s.firstFirable s.sch.armed with
      | none => s
      | some e => State.fireLoop n (s.fireEntry e)
    else s

/-- Every entry that R87 allows fires. -/
def State.fireAll (s : State) : State := s.fireLoop (s.sch.armed.length + 1)

/-- A GO of time `g` in RUNNING: the walker takes it, what it made DUE fires, and offers are reviewed (R57, R59,
R64). -/
def State.pressGo (g : Time) (s : State) : State := ((s.takeGo g).fireAll).reviewOffers

end Sys2Proof.Machine
end

