-- ==== Sys2Proof/Machine/Beats.lean ====
section
/-! DEFINITION. Counted beats (02_beat_tracking.md): settling (R35 to R37), bar corrections (R43, R44), the
classes of arrival (R29 to R32, R40, R41), bounces and the noise lockout (R46), and synthetic beats (R38,
R39). -/

namespace Sys2Proof.Machine

/-- What mapping a run of beats has found: the last tempo mark of a bar whose first beat was reached, and
whether the show has moved into a CALLED section (R35, R36). -/
structure RunResult where
  mark : Option Nat
  moved : Bool
  count : Nat
  deriving DecidableEq, Repr

/-- Beats `b`, `b + 1`, … are handed to the walker one by one, `n` of them, until one moves the show into a
CALLED section (R35 step 1, R54). The show beat follows. -/
def State.runBeats : Nat → Nat → RunResult → State → State × RunResult
  | 0, _, r, s => (s, r)
  | n + 1, b, r, s =>
    let q := (s.setTracker { s.trk with beat := b }).mapBeat b
    let facts := q.1.trk.facts
    let mark := if q.2.fresh && facts.beatInBar == 1 && facts.mark != 0 then some facts.mark else r.mark
    let r := { mark := mark, moved := q.2.moved, count := r.count + 1 }
    if q.2.moved then (q.1, r) else State.runBeats n (b + 1) r q.1

/-- Nothing run yet. -/
def RunResult.start : RunResult := { mark := none, moved := false, count := 0 }

/-- The beats of a counted beat are handed to the walker (R35 step 1, R54): `n` of them from `first` on, and B again
when `n` is 0 because the beat was absorbed or the show beat did not move (log entry 55). -/
def State.handRun (first n : Nat) (s : State) : State × RunResult :=
  if n = 0 then s.runBeats 1 s.trk.beat RunResult.start else s.runBeats n first RunResult.start

/-- A bar correction's amount journalled (R43, R51). -/
def State.journalCorrection (m n : Nat) (amount : Int) (s : State) : State :=
  s.journal (.barCorrection m n amount s.trk.beat)

/-- The bar correction of a counted DOWNBEAT (R43, R44). -/
def State.correctBar (r : RunResult) (s : State) : State × RunResult :=
  let m := s.trk.facts.beatInBar
  let n := s.trk.facts.beats
  if m = 1 then (s.setTracker { s.trk with absorb := 0 }, r)
  else if n < 2 * m then
    let q := (s.setTracker { s.trk with absorb := 0 }).runBeats (n - m + 1) (s.trk.beat + 1) { r with count := 0 }
    ((q.1.setTracker { q.1.trk with bReal := q.1.trk.beat }).journalCorrection m n (q.2.count : Int), q.2)
  else ((s.setTracker { s.trk with absorb := m - 1 }).journalCorrection m n (-((m - 1 : Nat) : Int)), r)

/-- A tempo mark reached: E becomes it and the ring is emptied (R36). -/
def State.applyMark (mark : Option Nat) (s : State) : State :=
  match mark with
  | none => s
  | some n => s.setTracker { s.trk with period := n * 100, ring := [], confidence := .loose }

/-- The beat timeout after a settled beat (R37). -/
def Tracker.timeoutAfter (k : Tracker) : Option Time :=
  match k.state with
  | .tracking => if k.facts.fermata then none else some (k.tLast + 3 * k.period / 2)
  | .freewheel => if k.facts.fermata then none else some (k.tLast + 3 * k.period / 2)
  | _ => none

/-- How a beat is settled: whether it is real, may correct the bar (a DOWNBEAT not in LOCKING), and arms the
timeout (all but the eighth synthetic beat, R39). -/
structure Settle where
  isReal : Bool
  corrects : Bool
  arms : Bool
  deriving DecidableEq, Repr

/-- A counted beat is settled (R35), its beats being `n` from `first` on. BAR CORRECTION is journalled before the
TRACKER STATE of a run that ends in a CALLED section (log entry 56). Firing follows the hand-over, and then the test
for the automatic end when the section in force has become END (R175, log entry 16). -/
def State.settle (how : Settle) (first n : Nat) (s : State) : State :=
  let ended := s.wlk.inForce == .endOfShow
  let q := s.handRun first n
  let s := q.1
  let s := if how.isReal then s.setTracker { s.trk with bReal := s.trk.beat } else s
  let q := if how.corrects && !q.2.moved then s.correctBar q.2 else (s, q.2)
  let s := q.1
  let moved := q.2.moved
  let s := if moved then (s.setTracker s.trk.suspended).journalTracker s.trk.state .sectionChange else s
  let s := s.applyMark q.2.mark
  let s := s.setTracker { s.trk with timeout := if how.arms then s.trk.timeoutAfter else none }
  let s := (s.handBeat moved).fireAll
  if ended then s else s.testEnd

/-- The number of beats a counted beat raises the show beat by, and the absorb count left: a beat is absorbed
while the absorb count is above 0 (R45). -/
def Tracker.absorbs (k : Tracker) : Nat × Nat := if 0 < k.absorb then (0, k.absorb - 1) else (1, 0)

/-- A counted beat changes the tracker state; the change is journalled with the show beat that is counted
(R29, R38, R40, R41, R51; log entry 47). -/
def State.becomeState (new : TrackerState) (cause : TrackCause) (beat : Nat) (s : State) : State :=
  (s.setTracker { s.trk with state := new }).journal
    (.trackerState s.trk.state.code new.code cause.code beat s.trk.period)

/-- A lock beat (R29). -/
def State.lockBeat (s : State) : State :=
  let k := s.trk
  let b := if k.counted then k.beat + 1 else k.beat
  let s := s.setTracker { k with tLast := s.clock, tReal := s.clock, counted := true, synthetic := 0, bounces := 0 }
  (s.becomeState .tracking .arrival b).settle ⟨true, false, true⟩ b 1

/-- A bounce; the eighth in a run starts a noise lockout (R30, R46). -/
def State.bounce (s : State) : State :=
  let s := s.setTracker { s.trk with bounces := s.trk.bounces + 1 }
  if Config.bounceLimit ≤ s.trk.bounces then
    ((s.setTracker { s.trk with lockout := some (s.clock + Config.lockoutLength) }).journalTracker s.trk.state
      .lockoutStart).setCause .tracker
  else s

/-- An after-fermata beat (R31). -/
def State.afterFermata (down : Bool) (s : State) : State :=
  let k := s.trk
  (s.setTracker { k with
    tLast := s.clock, tReal := s.clock, synthetic := 0, bounces := 0, absorb := k.absorbs.2 }).settle
      ⟨true, down, true⟩ (k.beat + 1) k.absorbs.1

/-- A normal beat (R32). -/
def State.normalBeat (down : Bool) (s : State) : State :=
  let k := s.trk
  let interval := s.clock - k.tLast
  let e := smoothed k.period interval k.weight
  let ring := pushRing k.ring interval
  (s.setTracker { k with
    tLast := s.clock, tReal := s.clock, synthetic := 0, bounces := 0, absorb := k.absorbs.2, period := e,
    ring := ring, confidence := confidenceOf ring e }).settle ⟨true, down, true⟩ (k.beat + 1) k.absorbs.1

/-- An arrival in FREEWHEEL is matched against the last real beat (R40). -/
def State.matchedArrival (down : Bool) (s : State) : State :=
  let k := s.trk
  let target := max k.beat (k.bReal + roundHalfUp (s.clock - k.tReal) k.period)
  let s := s.setTracker { k with tLast := s.clock, tReal := s.clock, synthetic := 0, bounces := 0 }
  (s.becomeState .tracking .arrival target).settle ⟨true, down, true⟩ (k.beat + 1) (target - k.beat)

/-- The recovering arrival in LOST (R41). -/
def State.recoverLost (down : Bool) (s : State) : State :=
  let k := s.trk
  let s := s.setTracker { k with tLast := s.clock, tReal := s.clock, synthetic := 0, bounces := 0 }
  (s.becomeState .tracking .arrival (k.beat + 1)).settle ⟨true, down, true⟩ (k.beat + 1) 1

/-- A beat arrival reaches the tracker (R26, R30, R46). -/
def State.beatArrival (down : Bool) (s : State) : State :=
  if s.trk.lockout.isSome then s
  else match s.trk.state with
    | .suspended => s
    | .locking => s.lockBeat
    | .tracking =>
      if s.clock - s.trk.tLast < s.trk.period / 2 then s.bounce
      else if s.trk.facts.fermata then s.afterFermata down
      else s.normalBeat down
    | .freewheel => s.matchedArrival down
    | .lost => s.recoverLost down

/-- The tracker becomes LOST after its eighth synthetic beat has been handed over (R39, R52; log entry 15). -/
def State.becomeLost (s : State) : State :=
  if s.trk.state = .freewheel then
    (((s.setTracker { s.trk with state := .lost, timeout := none }).journalTracker .freewheel .timeout).setCause
      .tracker).handState
  else s

/-- A synthetic beat (R38, R39). -/
def State.syntheticBeat (s : State) : State :=
  let k := s.trk
  let last := decide (Config.syntheticLimit ≤ k.synthetic + 1)
  let s := s.setTracker { k with
    tLast := k.tLast + k.period, synthetic := k.synthetic + 1, absorb := k.absorbs.2 }
  let s := if k.state = .tracking then
    (s.becomeState .freewheel .timeout (k.beat + k.absorbs.1)).setCause .tracker else s
  let s := s.settle ⟨false, false, !last⟩ (k.beat + 1) k.absorbs.1
  if last then s.becomeLost else s

end Sys2Proof.Machine
end

