-- ==== Sys2Proof/Machine/Offers.lean ====
section
/-! DEFINITION. What becomes of a cue record once it has been read: the disposal of an offer read (R67, R68)
and the arming of a cue (R76). -/

namespace Sys2Proof.Machine

/-- An element joins a list that does not hold it. -/
def addOnce (p : Nat × Nat) (l : List (Nat × Nat)) : List (Nat × Nat) := if p ∈ l then l else l ++ [p]

/-- The cursor moves on from a cue that is not handed. With `unhanded` the cue was dropped or passed over at
step 2, 3 or 4 of R67, and the fire cursor passes it (R58, log entry 18); without, it is already armed. -/
def State.passCue (c : Cursor) (unhanded : Bool) (s : State) : State :=
  let w := s.wlk
  let s := s.setWalker { w with
    cursor := some { c with cue := c.cue + 1 }, waiting := none, heldBack := false
    unhanded := if unhanded then addOnce (c.cue, c.pass) w.unhanded else w.unhanded }
  if unhanded && w.atFireCursor c then s.moveFireCursor c.cue else s

/-- The cue is dropped with a reason: CUE REJECTED (R67 step 1, R68). -/
def State.dropCue (c : Cursor) (reason number : Nat) (s : State) : State :=
  (s.journal (.cueRejected reason c.cue number 0)).passCue c true

/-- The target of a POSITION cue in the pass of the cursor (R63). -/
def State.targetOf (s : State) (c : Cursor) (x : Section) (a : Anchor) : Option (Int × Nat) :=
  match a with
  | .position bar beat tick =>
    some (c.origin.getD 0 + (beatsIn ((s.wlk.barsOf x).take (bar - 1)) : Int) + ((beat - 1 : Nat) : Int), tick)
  | _ => none

/-- The first timing state of a new entry (R76): `owed` is the owed GO that came with it. -/
def State.firstTiming (owed : Option Time) (s : State) (e : Armed) : Armed :=
  match e.copy.anchor with
  | .position _ _ _ =>
    if s.sch.view.state = .tracking ∨ s.sch.view.state = .freewheel then s.gate false (s.predict e)
    else { e with timing := .gated }
  | .go => match owed with
    | some g => s.timeFromGo g e
    | none => { e with timing := .waiting }
  | .follow _ => match owed with
    | some g => s.timeFromGo g e
    | none =>
      if (s.armedEntry (e.cue - 1) e.pass).isSome then { e with timing := .waiting }
      else match s.sch.fireRecord with
        | some f => s.timeFollow (if f.cue = e.cue - 1 ∧ f.pass = e.pass then f.appear else s.clock) e
        | none => s.timeFollow s.clock e

/-- A handed cue is armed: its place, its first timing state, its keys (R76). -/
def State.armCue (c : Cursor) (x : Section) (copy : Cue) (target : Option (Int × Nat)) (owed : Option Time)
    (s : State) : State :=
  let e : Armed := s.firstTiming owed
    { cue := c.cue, pass := c.pass, sec := c.sec, copy := copy, dwellPercent := x.dwellPercent, target := target,
      appear := none, fire := none, lead := none, timing := .waiting, keys := [],
      unpinned := [] }
  let q := s.requestKeys (s.keysOf copy)
  q.1.setArmed (insertArmed (q.1.wlk.order.getD []) { e with keys := q.2, unpinned := unpinnedOf q.2 } q.1.sch.armed)

/-- The owed GO that goes with the cue at the cursor: that of the fire cursor, to a GO or a FOLLOW cue (R60,
R67). -/
def Walker.owedFor (w : Walker) (c : Cursor) (copy : Cue) : Option Time :=
  match copy.anchor with
  | .position _ _ _ => none
  | _ => if w.atFireCursor c then w.owedGo else none

/-- The cue at the cursor is handed to the scheduler (R67 step 7, R58). -/
def State.handCue (c : Cursor) (x : Section) (copy : Cue) (target : Option (Int × Nat)) (s : State) : State :=
  let w := s.wlk
  let owed := w.owedFor c copy
  (s.setWalker { w with
    cursor := some { c with cue := c.cue + 1 }, waiting := none, heldBack := false
    lastHanded := some (c.cue, c.pass), unhanded := w.unhanded.filter fun p => p != (c.cue, c.pass)
    owedGo := if owed.isSome then none else w.owedGo
    calledOffers := if x.mode = .called then w.calledOffers + 1 else w.calledOffers }).armCue c x copy target owed

/-- A checked record is disposed of, by steps 2 to 7 of R67. -/
def State.disposeCue (c : Cursor) (x : Section) (copy : Cue) (s : State) : State :=
  let target := s.targetOf c x copy.anchor
  if copy.passRule = .firstPass ∧ 1 < c.pass then s.passCue c true
  else if copy.isFollow ∧ (c.cue - 1, c.pass) ∈ s.wlk.unhanded then s.passCue c true
  else if target.any fun p => decide (p.1 < 0) then s.passCue c true
  else if target.any fun p => decide (s.horizon < p.1) then
    s.setWalker { s.wlk with waiting := target.map (·.1) }
  else if (s.armedEntry c.cue c.pass).isSome then
    match x.mode with
    | .called => s.passCue c false
    | .beat => s.setWalker { s.wlk with heldBack := true }
  else if x.mode = .called ∧ !(s.wlk.calledWindow c || (copy.isFollow && s.wlk.followsHanded c)) then
    s.setWalker { s.wlk with heldBack := true }
  else s.handCue c x copy target

/-- A read record of the cue at the cursor: checked, then disposed of (R67). -/
def State.takeOffer (d : List Byte) (s : State) : State :=
  match s.wlk.cursor, s.wlk.script with
  | some c, some sc =>
    match s.wlk.sec c.sec with
    | none => s
    | some x =>
      match checkCue sc.sections sc.bars sc.speakerCount c.cue d with
      | some code => s.dropCue c code.code (u16 d 0)
      | none => s.disposeCue c x (parseCue d)
  | _, _ => s

/-- The offer read has ended, with the bytes read or with a fault (none). A discarded read hands nothing and
journals nothing (R67, R68). What an owed GO made DUE, or an arming, then fires, and offers are reviewed. -/
def State.endOffer (discarded : Bool) (d : Option (List Byte)) (s : State) : State :=
  let s := s.setWalker { s.wlk with reading := false }
  let s := if discarded then s else
    match d with
    | some d => s.takeOffer d
    | none => match s.wlk.cursor with
      | some c => s.dropCue c 11 0
      | none => s
  s.fireAll.reviewOffers

end Sys2Proof.Machine
end

