-- ==== Sys2Proof/Machine/Scan.lean ====
section
/-! DEFINITION. The directive slots: scans (R186, R187), the abandon sweep (R189) and the writing of outcomes
(R188). A step that ends an access calls `State.freePort` last (log entry 8). -/

namespace Sys2Proof.Machine

/-- The scan in progress replaced. -/
def State.setScan (x : Scan) (s : State) : State := { s with smi := { s.smi with scan := x } }

/-- The outcomes not yet written replaced. -/
def State.setOutcomes (os : List OutcomeRecord) (s : State) : State := { s with smi := { s.smi with outcomes := os } }

/-- The four result words of an outcome are queued, to be followed by DONE (R188). -/
def State.queueOutcome (o : OutcomeRecord) (s : State) : State :=
  s.enqueue (.writing (.resultWords o.slot) (s.resultAddress o.slot) (resultBytes o.results) .urgent)

/-- The read of one slot's state during a search (R187, step 3). -/
def State.searchSlot (slot : Slot) (left : Nat) (s : State) : State :=
  (s.setScan (.search slot left)).enqueue (.read (.scanState slot) (s.slotAddress slot) 4 .background FaultDetail.none)

/-- The read of one slot's state during the abandon sweep (R189). -/
def State.sweepSlot (slot : Slot) (s : State) : State :=
  (s.setScan (.sweepRead slot)).enqueue (.read (.sweepState slot) (s.slotAddress slot) 4 .background FaultDetail.none)

/-- The search begins at the slot after the rotation pointer (R187, step 3). -/
def State.beginSearch (s : State) : State := s.searchSlot (s.smi.rotation + 1) 16

/-- The scan goes on after its outcomes: the sweep while it is pending, else the search (R187). -/
def State.afterOutcomes (s : State) : State := if s.smi.sweepPending then s.sweepSlot 0 else s.beginSearch

/-- Step 1 of a scan (R187): outcome writes in flight are waited for, then the oldest unwritten outcome is
written, and when none is left the scan goes on. -/
def State.scanOutcomes (s : State) : State :=
  match s.smi.outcomes with
  | [] => s.afterOutcomes
  | o :: os =>
    if (o :: os).any (·.writing) then s.setScan (.outcomes false)
    else ((s.setOutcomes ({ o with writing := true } :: os)).setScan (.outcomes false)).queueOutcome o

/-- No scan is running and no directive is in progress (R186). -/
def State.scanFree (s : State) : Bool := s.smi.scan == .idle && s.ctl.progress.isNone

/-- An owed scan starts when nothing holds it (R186). A directive in progress holds it, also one that the scan just
ended has taken (log entry 76). -/
def State.startOwedScan (s : State) : State :=
  if s.smi.scanRequest && s.scanFree then { s with smi := { s.smi with scanRequest := false } }.scanOutcomes else s

/-- A scan is requested (R186). -/
def State.requestScan (s : State) : State :=
  if s.scanFree then s.scanOutcomes else { s with smi := { s.smi with scanRequest := true } }

/-- The scan ends; an owed one starts (R186). -/
def State.endScan (s : State) : State := (s.setScan .idle).startOwedScan

/-- The search goes on at the next slot, up to the sixteenth (R187, steps 3 and 4). -/
def State.nextSlot (slot : Slot) (left : Nat) (s : State) : State :=
  if left ≤ 1 then s.endScan else s.searchSlot (slot + 1) (left - 1)

/-- The sweep goes on at the next slot, or is done and the search begins (R189, R187). -/
def State.nextSweep (slot : Slot) (s : State) : State :=
  if slot = 15 then { s with smi := { s.smi with sweepPending := false } }.beginSearch else s.sweepSlot (slot + 1)

/-- The 64 bytes of a POSTED slot are read in two accesses (R187, step 4). -/
def State.readSlot (slot : Slot) (left : Nat) (half : List Byte) (s : State) : State :=
  let second := !half.isEmpty
  (s.setScan (.slotRead slot left half)).enqueue
    (.read (.scanSlot slot second) (s.slotAddress slot + 32 * bit second) 32 .background FaultDetail.none)

/-- TAKEN is written to a slot that is still POSTED (R187, step 5). While an outcome is unwritten or its writes
are in flight nothing is taken, and the scan ends (R188, log entry 11). -/
def State.queueTake (slot : Slot) (d : List Byte) (s : State) : State :=
  if s.smi.outcomes.isEmpty then
    (s.setScan (.take slot (slotKind d) (slotWords d))).enqueue
      (.writing (.take slot) (s.slotAddress slot) (stateWord 2 0) .background)
  else s.endScan

/-- Show Control hands back an outcome: its writes are queued (R188). -/
def State.handBack (slot : Slot) (code : OutcomeCode) (results : List Nat) (s : State) : State :=
  let o : OutcomeRecord := { slot := slot, code := code, results := results, writing := true }
  (s.setOutcomes (s.smi.outcomes ++ [o])).queueOutcome o

/-- The directive in progress is finished: its outcome is handed back, no directive is in progress, and an
owed scan starts (R166, R186). -/
def State.complete (code : OutcomeCode) (results : List Nat) (s : State) : State :=
  match s.ctl.progress with
  | none => s
  | some p => ({ s with ctl := { s.ctl with progress := none } }.handBack p.slot code results).startOwedScan

/-- The writing outcome of a slot. -/
def State.writingOutcome (slot : Slot) (s : State) : Option OutcomeRecord :=
  s.smi.outcomes.find? fun o => o.slot == slot && o.writing

/-- A scan that waited for outcome writes goes on, or ends, once none is in flight (R187, step 1). It waits so for those
of an outcome handed back meanwhile too (log entry 79). -/
def State.outcomesSettled (s : State) : State :=
  match s.smi.scan with
  | .outcomes faulted =>
    if s.smi.outcomes.any (·.writing) then s else if faulted then s.endScan else s.scanOutcomes
  | _ => s

/-- The result words of an outcome are written; DONE follows (R188). That the DONE write joins the queue only now,
at the BASE that then holds, is log entry 70. -/
def State.resultsWritten (slot : Slot) (s : State) : State :=
  match s.writingOutcome slot with
  | none => s
  | some o => s.enqueue (.writing (.doneWord slot) (s.slotAddress slot) (stateWord 3 o.code.code) .urgent)

/-- DONE is written: the outcome is complete and CAUSE.DIRECTIVE is set (R188). -/
def State.doneWritten (slot : Slot) (s : State) : State :=
  match s.writingOutcome slot with
  | none => s
  | some o => ((s.setOutcomes (s.smi.outcomes.erase o)).setCause .directive).outcomesSettled

/-- A write of an outcome faulted: it is an unwritten outcome, and a scan that waited for it ends (R187,
R188). -/
def State.outcomeFaulted (slot : Slot) (s : State) : State :=
  match s.writingOutcome slot with
  | none => s
  | some o =>
    let s := s.setOutcomes (s.smi.outcomes.map fun q => if q = o then { q with writing := false } else q)
    match s.smi.scan with
    | .outcomes _ => (s.setScan (.outcomes true)).outcomesSettled
    | _ => s

/-- A swept slot holds TAKEN: its result words are written as 0, then DONE with ABANDONED (R189). -/
def State.sweepTaken (slot : Slot) (s : State) : State :=
  (s.setScan (.sweepResults slot)).enqueue
    (.writing (.sweepResults slot) (s.resultAddress slot) (resultBytes []) .urgent)

/-- The DONE write of a swept slot (R189). -/
def State.sweepDoneWrite (slot : Slot) (s : State) : State :=
  (s.setScan (.sweepDone slot)).enqueue
    (.writing (.sweepDone slot) (s.slotAddress slot) (stateWord 3 OutcomeCode.abandoned.code) .urgent)

/-- The oldest journal record has left the queue, written or not; the next one is written (R191). -/
def State.dropJournalHead (s : State) : State :=
  { s with smi := { s.smi with journalPhase := .idle, journalQueue := s.smi.journalQueue.tail } }.startJournalWrite

/-- The count write that follows a record write: the record's sequence number plus 1 (R191). -/
def State.writeJournalCount (s : State) : State :=
  match s.smi.journalQueue with
  | [] => s
  | r :: _ =>
    { s with smi := { s.smi with journalPhase := .count } }.enqueue
      (.writing .journalCount s.smi.base (le 4 ((r.seq + 1) % Config.wrap32)) .urgent)

/-- A journal write faulted (R191): the record leaves the queue, one more write is lost, CAUSE.MEMORY is set. -/
def State.journalFaulted (s : State) : State :=
  ({ s with smi := { s.smi with journalLost := bump s.smi.journalLost } }.setCause .memory).dropJournalHead

end Sys2Proof.Machine
end

