-- ==== Sys2Proof/Machine/Notices.lean ====
section
/-! DEFINITION. NOTICE (R176) and AMEND CUE (R97, R177), and the delivery of a key's answer to the armed entries
and to the NOTICE in progress (R89, R102). -/

namespace Sys2Proof.Machine

/-- The work of the directive in progress replaced. -/
def State.setWork (w : Work) (s : State) : State :=
  { s with ctl := { s.ctl with progress := s.ctl.progress.map fun p => { p with work := w } } }

/-- The NOTICE in progress. -/
def State.noticeWork (s : State) : Option NoticeWork :=
  match s.ctl.progress with
  | some p => match p.work with
    | .notice w => some w
    | _ => none
  | none => none

/-- The NOTICE request at a screen (R128, R176; dwell, speaker and override log entry 30). -/
def State.noticeRequest (w : NoticeWork) (tuples : List Tuple) (s : State) : Request :=
  { level := w.level, kind := .notice, ident := .notice w.title, tuples := tuples, speaker := none,
    dwellPercent := 100, dwellOverride := none, override := .default, release := s.clock, operator := false,
    endTime := if w.duration = 0 then none else some (s.clock + w.duration * 1000000), deferred := false }

/-- What placing a notice has found: screens that received a request, and whether every one so far carries
every language its layout names. -/
structure Placed where
  screens : BitVec 16
  whole : Bool
  deriving DecidableEq, Repr

/-- A notice at one screen (R176). -/
def placeNoticeAt (w : NoticeWork) (p : State × Placed) (i : Screen16) : State × Placed :=
  if w.screens.getLsbD i.val then
    let langs := layoutLangs (p.1.screen i).layout
    let ts := (presentTuples w.keys).filter fun t => langs.contains t.lang
    if ts.isEmpty then (p.1, { p.2 with whole := false })
    else (p.1.placeRequest i (p.1.noticeRequest w ts),
      { screens := p.2.screens ||| BitVec.twoPow 16 i.val, whole := p.2.whole && ts.length == langs.length })
  else p

/-- The languages whose answer was not PRESENT, as a mask. -/
def notPresent (keys : List (Key × KeyResult)) : Nat :=
  keys.foldl (fun n p => match p.2 with
    | .present _ _ => n
    | _ => n + 2 ^ p.1.lang.val) 0

/-- When every key of the NOTICE in progress has an answer, its requests are placed, its pins released and its
outcome handed back (R176). -/
def State.placeNotice (s : State) : State :=
  match s.noticeWork with
  | none => s
  | some w =>
    if w.keys.all fun p => p.2 != .pending then
      let q := allScreens.foldl (placeNoticeAt w) (s, { screens := 0, whole := true })
      (q.1.releaseKeys w.keys).complete (if q.2.whole then .ok else .partialDone)
        [q.2.screens.toNat, notPresent w.keys]
    else s

/-- The answer for a key is written into the NOTICE in progress (R102). -/
def State.answerNotice (k : Key) (r : KeyResult) (s : State) : State :=
  match s.noticeWork with
  | none => s
  | some w =>
    s.setWork (.notice { w with keys := w.keys.map fun p => if p.1 = k ∧ p.2 = .pending then (k, r) else p })

/-- An answer for a key is handed to the armed entries and to the NOTICE in progress (R89, R102). When it completes
both, the cues fire before the NOTICE is placed (log entry 69). -/
def State.deliverAnswer (k : Key) (r : KeyResult) (s : State) : State :=
  let s := s.setArmed (s.sch.armed.map (Armed.answerKey k r))
  ((s.answerNotice k r).fireAll).placeNotice

/-- Reported re-fetches: the results for the keys return to PENDING (R89, R108). -/
def State.reportRefetches (ks : List Key) (s : State) : State :=
  ks.foldl (fun s k => s.setArmed (s.sch.armed.map (Armed.refetchKey k))) s

/-- The screens of a NOTICE: those named, less the mirror monitor (R176). -/
def State.noticeScreens (mask : BitVec 16) (s : State) : List Screen16 :=
  allScreens.filter fun i => mask.getLsbD i.val && !s.isMonitor i

/-- Some screens as a mask. -/
def maskOf (l : List Screen16) : BitVec 16 := l.foldl (fun m i => m ||| BitVec.twoPow 16 i.val) 0

/-- The keys of a NOTICE, ascending: each language that the layout of a notice screen names (R176). -/
def State.noticeKeys (title : Nat) (screens : List Screen16) (s : State) : List Key :=
  (allLangs.filter fun g => screens.any fun i => (layoutLangs (s.screen i).layout).contains g).map fun g =>
    { title := title, lang := g }

/-- A NOTICE requests a key; one that waits for a way is not waited for: its answer is FAULTED and its pin is
released (R176). -/
def noticeRequestKey (p : State × List (Key × KeyResult)) (k : Key) : State × List (Key × KeyResult) :=
  let q := p.1.requestKey k
  if q.1.keyWaits k then (q.1.releaseKey k, p.2 ++ [(k, .faulted)]) else (q.1, p.2 ++ [(k, q.2)])

/-- NOTICE is carried out (R176). -/
def State.beginNotice (n : NoticeParams) (s : State) : State :=
  let screens := s.noticeScreens n.screens
  let keys := s.noticeKeys n.title screens
  if keys.isEmpty then s.complete .partialDone [0, 0]
  else
    let q := keys.foldl noticeRequestKey (s, [])
    let w : NoticeWork :=
      { title := n.title, level := n.level, duration := n.duration, screens := maskOf screens, keys := q.2 }
    (q.1.setWork (.notice w)).placeNotice

/-! ### AMEND CUE -/

/-- The read of a cue record for AMEND CUE is queued, in the urgent class (R15, R177). -/
def State.beginAmend (cue : Nat) (s : State) : State :=
  match s.wlk.script with
  | none => s
  | some sc =>
    (s.setWork (.amend cue)).enqueue (.read .amend (sc.cueTable + 32 * cue) 32 .urgent
      { FaultDetail.none with table := TableName.cue.code, index := cue })

/-- The timing fields of an armed copy that a record would change, as bits 0..7 of the result (R177; those of
the anchor the armed copy holds, compared as the record's bytes hold them, log entry 48). -/
def timingDiffers (copy : Cue) (d : List Byte) : Nat :=
  let fields := match copy.anchor with
    | .position bar beat tick =>
      [u16 d 12 != bar, u8 d 14 != beat, u8 d 15 != tick, false]
    | .follow delay => [false, false, false, u32 d 16 != delay]
    | .go => [false, false, false, false]
  bitsOf ([u8 d 2 != copy.action.code, u8 d 3 != copy.anchor.code, u8 d 4 != copy.level.val,
    u8 d 5 != (match copy.passRule with | .firstPass => 0 | .everyPass => 1)] ++ fields)

/-- The cue number and the presentation fields of a copy replaced (R97, R177), from a BLANK record too (log entry
67). -/
def Cue.present (copy new : Cue) : Cue :=
  { copy with number := new.number, title := new.title, langs := new.langs, scope := new.scope,
              speaker := new.speaker, dwellOverride := new.dwellOverride, override := new.override }

/-- An armed entry takes the amended copy. When its title or its languages change, or the screens it addresses,
whose layouts count, new keys are requested and keys no longer needed are released, in the order of the entry's keys
(R97, R76; log entries 48, 60, 62). A BLANK record amends an armed TITLE copy like any other (log entry 67). -/
def State.amendEntry (new : Cue) (s : State) (e : Armed) : State :=
  let copy := e.copy.present new
  if copy.title = e.copy.title ∧ copy.langs = e.copy.langs ∧ s.addressed copy = s.addressed e.copy then
    s.updateArmed e.cue e.pass fun x => { x with copy := copy }
  else
  let need := s.keysOf copy
  let kept := e.keys.filter fun p => need.contains p.1
  let gone := e.pinnedKeys.filter fun p => !need.contains p.1
  let q := s.requestKeys (need.filter fun k => !(e.keys.any fun p => p.1 == k))
  (q.1.updateArmed e.cue e.pass fun x => { x with
    copy := copy, keys := kept ++ q.2, unpinned := e.unpinned.filter need.contains ++ unpinnedOf q.2 }).releaseKeys gone

/-- The AMEND CUE read has completed (R177). A cue armed in several passes has its entries reworked in list order, each
with its requests and then its releases before the next: R177 and R97 give those entries no order, and this one is log
entry 83, a DESIGN CHOICE. An entry that the amendment lets fire does so before the outcome is handed back (log entry
69). -/
def State.amendRead (cue : Nat) (d : List Byte) (s : State) : State :=
  match s.wlk.script with
  | none => s
  | some sc =>
    match checkCue sc.sections sc.bars sc.speakerCount cue d with
    | some code => s.complete .refusedParameter [0, 0, code.code]
    | none =>
      let es := s.sch.armed.filter fun e => e.cue == cue
      let differs := es.foldl (fun n e => n ||| timingDiffers e.copy d) 0
      ((es.foldl (State.amendEntry (parseCue d)) s).fireAll).complete
        (if differs = 0 then .ok else .partialDone) [differs]

end Sys2Proof.Machine
end

