-- ==== Sys2Proof/Machine/Loading.lean ====
section
/-! DEFINITION. LOAD (R16 to R23, R168): the script is read table by table in 32-byte accesses, each record is
checked as it is read, and the LOAD ends with OK, with the first fault found, or with a memory fault. -/

namespace Sys2Proof.Machine

/-- The start of the table being read. -/
def LoadWork.start (w : LoadWork) : Nat :=
  match w.table with
  | .header => w.headerAddress
  | .sec => w.header.sectionTable
  | .bar => w.header.barTable
  | .speaker => w.header.speakerTable
  | .cue => w.header.cueTable
  | .title => w.header.titleTable

/-- The length in bytes of the table being read (R18). -/
def LoadWork.length (w : LoadWork) : Nat :=
  match w.table with
  | .header => 64
  | .sec => 16 * w.header.sectionCount
  | .bar => 4 * w.header.barCount
  | .speaker => w.header.speakerCount
  | .cue => 32 * w.header.cueCount
  | .title => 0

/-- The length in bytes of a record of the table being read (R194). -/
def LoadWork.recordSize (w : LoadWork) : Nat :=
  match w.table with
  | .header => 64
  | .sec => 16
  | .bar => 4
  | .speaker => 1
  | .cue => 32
  | .title => 128

/-- The index of the first record that the outstanding access holds (R23). -/
def LoadWork.index (w : LoadWork) : Nat := w.next / w.recordSize

/-- The length of the next access: 32 bytes, or what is left of the table (01_the_score_map "Checking the script
at LOAD"). -/
def LoadWork.accessLength (w : LoadWork) : Nat := min 32 (w.length - w.next)

/-- The next LOAD read is queued, in the background class (R184). -/
def State.queueLoad (w : LoadWork) (s : State) : State :=
  (s.setWork (.load w)).enqueue (.read .load (w.start + w.next) w.accessLength .background
    { FaultDetail.none with table := w.table.code, index := w.index })

/-- LOAD ends without a script: the engine becomes IDLE and the outcome is handed back (R168, R179). -/
def State.failLoad (code : OutcomeCode) (table : TableName) (index fault : Nat) (s : State) : State :=
  (s.changeEngine .idle .loadEnd s.progressSlot 0 code.code).complete code [table.code, index, fault, 0]

/-- The work of a LOAD that begins. -/
def LoadWork.begin (address : Nat) : LoadWork :=
  { headerAddress := address, table := .header, next := 0, buffer := [], header := Header.blank, sections := [],
    bars := [], speakers := [], lastPosition := none }

/-- LOAD is taken (R168): the engine is LOADING, the blocks drop the script they held, and the header is read,
unless its address does not fit (R17, R195). -/
def State.beginLoad (address : Nat) (s : State) : State :=
  let s := s.changeEngine .loading .load s.progressSlot 0 0
  let s := s.discardRead
  let s := { s with
    wlk := { Walker.reset with reading := s.wlk.reading }, du := s.du.dropped
    arb := { s.arb with dwellBase := 0, dwellPerChar := 0 } }
  if regionFits address 64 4 then s.queueLoad (LoadWork.begin address)
  else s.failLoad .scriptRejected .header 0 FaultCode.extent.code

/-- The blocks take the values of a script that passed every check (R2, R14, R111), the engine becomes LOADED,
and the outcome is OK with the four counts (R168). -/
def State.finishLoad (w : LoadWork) (s : State) : State :=
  let h := w.header
  let sc : Script :=
    { sectionCount := h.sectionCount, barCount := h.barCount, cueCount := h.cueCount,
      speakerCount := h.speakerCount, cueTable := h.cueTable, sections := w.sections, bars := w.bars,
      speakers := w.speakers }
  let s := { s with
    wlk := { s.wlk with script := some sc }, du := { s.du with table := some (h.titleTable, h.exponent) }
    arb := { s.arb with dwellBase := h.dwellBase, dwellPerChar := h.dwellPerChar } }
  (s.changeEngine .loaded .loadEnd s.progressSlot 0 OutcomeCode.ok.code).complete .ok
    [h.sectionCount, h.barCount, h.cueCount, h.speakerCount]

/-- A fault a LOAD found: table, index, code. -/
structure LoadFault where
  table : TableName
  index : Nat
  code : FaultCode
  deriving DecidableEq, Repr

/-- The header's 64 bytes are checked, then the regions (R17, R18). -/
def LoadWork.takeHeader (base : Nat) (w : LoadWork) (d : List Byte) : Except LoadFault LoadWork :=
  let h := parseHeader d
  match checkHeader d with
  | some c => .error ⟨.header, 0, c⟩
  | none =>
    match checkRegions base w.headerAddress h with
    | some (t, c) => .error ⟨t, 0, c⟩
    | none => .ok { w with header := h }

/-- A section record is checked, and after the last one the coverage (R19). -/
def LoadWork.takeSection (w : LoadWork) (d : List Byte) : Except LoadFault LoadWork :=
  let i := w.sections.length
  match checkSection w.sections d with
  | some c => .error ⟨.sec, i, c⟩
  | none =>
    let secs := w.sections ++ [parseSection d]
    if secs.length = w.header.sectionCount ∧ !coverageOk w.header secs then .error ⟨.sec, i, .coverage⟩
    else .ok { w with sections := secs }

/-- A bar record is checked (R20). -/
def LoadWork.takeBar (w : LoadWork) (d : List Byte) : Except LoadFault LoadWork :=
  match checkBar d with
  | some c => .error ⟨.bar, w.bars.length, c⟩
  | none => .ok { w with bars := w.bars ++ [parseBar d] }

/-- A speaker record is checked (R20). -/
def LoadWork.takeSpeaker (w : LoadWork) (d : List Byte) : Except LoadFault LoadWork :=
  match checkSpeaker (u8 d 0) with
  | some c => .error ⟨.speaker, w.speakers.length, c⟩
  | none => .ok { w with speakers := w.speakers ++ [u8 d 0] }

/-- The order check of R22: the position does not come before that of the nearest earlier POSITION cue of the
same section. -/
def LoadWork.orderOk (w : LoadWork) (firstCue : Nat) (p : Nat × Nat × Nat) : Bool :=
  match w.lastPosition with
  | some (f, q) => !(f == firstCue && positionBefore p q)
  | none => true

/-- A cue record is checked by the record checks and, for a POSITION cue, the order check (R21, R22). -/
def LoadWork.takeCue (w : LoadWork) (i : Nat) (d : List Byte) : Except LoadFault LoadWork :=
  match checkCue w.sections w.bars w.header.speakerCount i d with
  | some c => .error ⟨.cue, i, c⟩
  | none =>
    match parseAnchor d with
    | .position bar beat tick =>
      let f := ((ownerOf w.sections i).map (·.firstCue)).getD 0
      if w.orderOk f (bar, beat, tick) then .ok { w with lastPosition := some (f, bar, beat, tick) }
      else .error ⟨.cue, i, .order⟩
    | _ => .ok w

/-- The records of an access, one after another from index `i`; `n` of them. The header is taken when its
second half has come. -/
def LoadWork.takeRecords (base : Nat) : Nat → Nat → List Byte → LoadWork → Except LoadFault LoadWork
  | 0, _, _, w => .ok w
  | n + 1, i, d, w =>
    let r := match w.table with
      | .header => w.takeHeader base d
      | .sec => w.takeSection (d.take 16)
      | .bar => w.takeBar (d.take 4)
      | .speaker => w.takeSpeaker (d.take 1)
      | .cue => w.takeCue i (d.take 32)
      | .title => .ok w
    match r with
    | .error f => .error f
    | .ok w' => LoadWork.takeRecords base n (i + 1) (d.drop w.recordSize) w'

/-- The table read after this one (R16). A speaker count of 0 means no speaker table is read (R11). -/
def LoadWork.nextTable (w : LoadWork) : Option TableName :=
  match w.table with
  | .header => some .sec
  | .sec => some .bar
  | .bar => if w.header.speakerCount = 0 then some .cue else some .speaker
  | .speaker => some .cue
  | .cue => none
  | .title => none

/-- The LOAD goes on with the next access, the next table, or its end (R16). -/
def State.continueLoad (w : LoadWork) (s : State) : State :=
  if w.next < w.length then s.queueLoad w
  else match w.nextTable with
    | some t => s.queueLoad { w with table := t, next := 0, buffer := [] }
    | none => s.finishLoad w

/-- A LOAD read has completed: the records it holds are checked (R16). -/
def State.loadRead (w : LoadWork) (d : List Byte) (s : State) : State :=
  let length := w.accessLength
  if w.table = .header ∧ w.next = 0 then
    s.continueLoad { w with next := length, buffer := d.take length }
  else
    let bytes := if w.table = .header then w.buffer ++ d.take length else d.take length
    let records := if w.table = .header then 1 else length / w.recordSize
    match w.takeRecords s.smi.base records w.index bytes with
    | .error f => s.failLoad .scriptRejected f.table f.index f.code.code
    | .ok w' => s.continueLoad { w' with next := w.next + length }

/-- The LOAD in progress. -/
def State.loadWork (s : State) : Option LoadWork :=
  match s.ctl.progress with
  | some p => match p.work with
    | .load w => some w
    | _ => none
  | none => none

/-- The cue index of the AMEND CUE in progress. -/
def State.amendWork (s : State) : Option Nat :=
  match s.ctl.progress with
  | some p => match p.work with
    | .amend c => some c
    | _ => none
  | none => none

end Sys2Proof.Machine
end

