-- ==== Sys2Proof/Machine/Control.lean ====
section
/-! DEFINITION. Show Control (09_show_control.md): taking a directive (R166), its three checks, what each
directive does, the quiet test of a pause (R172), and the start of the show (R175). -/

namespace Sys2Proof.Machine

/-! ### Taking a directive -/

/-- A directive row takes a directive whose TAKEN write is the access in flight, when the kind read from the
slot is one of the row's (R187 step 5; log entries 2, 7): the rotation pointer becomes its slot, the scan ends,
and the directive is in progress while `body` carries it out. An outcome of a held PAUSE that was handed back after
the TAKEN write had been queued does not hold it up (log entry 11). -/
def State.takeKind (kinds : Nat → Bool) (body : Nat → List Nat → State → State) (s : State) : State :=
  match s.smi.scan, s.inFlight with
  | .take slot kind words, some a =>
    if a.purpose = .take slot ∧ kinds kind then
      let p : Progress := { slot := slot, kind := kind, words := words, work := .none }
      let s := { s with
        smi := { s.smi with rotation := slot, scan := .idle }, ctl := { s.ctl with progress := some p } }
      ((body kind words s).startOwedScan).freePort
    else s
  | _, _ => s

/-- The state and parameter checks of R166, then the directive's act. A directive refused changes nothing but
its outcome. -/
def State.checked (kind : Nat) (read : List Nat → State → Option α) (act : α → State → State) (words : List Nat)
    (s : State) : State :=
  if allowedIn kind s.ctl.engine then
    match read words s with
    | some a => act a s
    | none => s.complete .refusedParameter []
  else s.complete .refusedState []

/-- A directive of one kind is taken (R166). -/
def State.takeDirective (kind : Nat) (read : List Nat → State → Option α) (act : α → State → State) (s : State) :
    State :=
  s.takeKind (fun k => k == kind) fun _ words s => s.checked kind read act words

/-- A directive without parameters. -/
def noParameters (_ : List Nat) (_ : State) : Option Unit := some ()

/-- A directive that completes at once with OK. -/
def State.completeOk (s : State) : State := s.complete .ok []

/-! ### ARM and LOCATE -/

/-- ARM's parameters (R167): in range, and the start section in the running order of the version. -/
def readArmFor (words : List Nat) (s : State) : Option Arming :=
  match readArm words, s.wlk.script with
  | some a, some sc =>
    if word words 1 ∈ runningOrder sc.sections (word words 0) then some a else none
  | _, _ => none

/-- ARM (R169). An owed GO is withdrawn without a record (R60). The first offer review comes after the last step, and
before the outcome (log entry 73). -/
def State.armShow (a : Arming) (s : State) : State :=
  let slot := s.progressSlot
  let k := a.start.getD 0
  let s := { s with ctl := { s.ctl with arming := a } }.emptyArmed
  let s := { s with sch := { s.sch with lateTolerance := a.lateTolerance } }
  let order := (s.wlk.script.map fun sc => runningOrder sc.sections (a.version.getD 0)).getD []
  let s := s.setWalker { s.wlk with order := some order, lookAhead := a.lookAhead }
  let s := match s.wlk.sec k with
    | some x => (s.positionWalker k 1 x .arm).positionTracker x 1
    | none => s
  let s := s.setTracker { s.trk with weight := a.smoothing }
  let s := s.setPort { s.smi.port with weight := a.weight }
  (s.changeEngine .armed .arm slot 0 0).reviewOffers.completeOk

/-- LOCATE's parameters (R167): the section in the running order and, for a BEAT section, the bar. -/
def readLocate (words : List Nat) (s : State) : Option (Nat × Nat × Section) :=
  match s.wlk.sec (word words 0) with
  | some x =>
    if word words 0 ∈ s.wlk.order.getD [] then
      match x.mode with
      | .beat => if 1 ≤ word words 1 ∧ word words 1 ≤ x.barCount then some (word words 0, word words 1, x) else none
      | .called => some (word words 0, 1, x)
    else none
  | none => none

/-- LOCATE (R170). The record of a withdrawn GO comes before SECTION ENTERED (log entry 74), and the first offer review
after the last step and before the outcome (log entry 73). -/
def State.locateShow (p : Nat × Nat × Section) (s : State) : State :=
  let s := s.emptyArmed.withdrawGo
  let s := (s.positionWalker p.1 p.2.1 p.2.2 .locate).positionTracker p.2.2 p.2.1
  s.dropScreenCues.reviewOffers.completeOk

/-! ### PAUSE, RESUME, STOP -/

/-- No link is BUSY. -/
def State.isQuiet (s : State) : Bool := allScreens.all fun i => (s.link i).state != .busy

/-- The quiet test of a held PAUSE (R172). -/
def State.testQuiet (s : State) : State :=
  match s.ctl.heldPause with
  | none => s
  | some slot =>
    if s.isQuiet then
      let s := (s.changeEngine .paused .quiet (some slot) 0 0).handBack slot .ok []
      { s with ctl := { s.ctl with heldPause := none } }
    else s

/-- PAUSE (R171). -/
def State.pauseShow (s : State) : State :=
  let slot := s.progressSlot
  let s := (s.changeEngine .pausing .pause slot 0 0).pauseTimers
  let s := ((s.suspendTracker .directive).withdrawGo).pauseScreens
  { s with ctl := { s.ctl with progress := none, heldPause := slot } }.testQuiet

/-- The section in force is a BEAT section. -/
def State.inBeatSection (s : State) : Bool :=
  match s.wlk.inForce with
  | .sec n => (s.wlk.sec n).any fun x => x.mode == .beat
  | _ => false

/-- The section in force is a CALLED section. -/
def State.inCalledSection (s : State) : Bool :=
  match s.wlk.inForce with
  | .sec n => (s.wlk.sec n).any fun x => x.mode == .called
  | _ => false

/-- RESUME (R173). The DUE entries fire, then the FOLLOW entries that PAUSE gated are taken up and those that
are DUE fire (R96, log entry 46). In END the tracker stays SUSPENDED (log entry 57). -/
def State.resumeShow (s : State) : State :=
  let slot := s.progressSlot
  let s := if s.inBeatSection then s.lockForResume else s
  let s := s.changeEngine .running .resume slot 0 0
  ((s.fireAll.resumeFollows).fireAll).completeOk

/-- STOP (R174). The outcome of a held PAUSE is handed back before that of the STOP. -/
def State.stopShow (s : State) : State :=
  let slot := s.progressSlot
  let s := s.emptyArmed.withdrawGo
  let s := (s.setWalker { s.wlk with history := [], calledOffers := 0 }).discardRead
  let s := (s.suspendTracker .directive).dropScreenCues
  let s := match s.ctl.heldPause with
    | some p => { s with ctl := { s.ctl with heldPause := none } }.handBack p .abandoned []
    | none => s
  (s.changeEngine .ended .stop slot 0 0).completeOk

/-! ### The start of the show -/

/-- The start arrival: the engine becomes RUNNING and DUE entries are checked (R159, R175). -/
def State.startShow (l : Line) (s : State) : State := (s.changeEngine .running .start none (lineCode l) 0).fireAll

/-! ### Directives of the other blocks -/

/-- SET MIRROR (R133, R135). OFF with no pair set changes nothing (R167). -/
def State.setMirrorTo (p : Option (Screen16 × Screen16)) (s : State) : State :=
  match p with
  | none => s.endMirror.completeOk
  | some (src, mon) => (s.setMirrorPair src mon).completeOk

/-- PROBE SCREEN, with the outcome of R152. -/
def State.probeLink (i : Screen16) (s : State) : State :=
  match (s.link i).state with
  | .ready => (s.enterProbing i .probe).complete .ok []
  | .faulted => (s.enterProbing i .probe).complete .ok []
  | .down => s.complete .noCarrier []
  | .busy => s.complete .refusedState []
  | .probing => s.complete .refusedState []

/-- AMEND CUE's parameter (R167, R24): a cue index below the cue count held. -/
def readCueIndex (words : List Nat) (s : State) : Option Nat :=
  if word words 0 < (s.wlk.script.map (·.cueCount)).getD 0 then some (word words 0) else none

/-- INVALIDATE of one key or of all (R108, R110). -/
def State.invalidateKeys (k : Option Key) (s : State) : State :=
  let q := match k with
    | some k => s.invalidateKey k
    | none => s.invalidateAll
  (q.1.reportRefetches q.2).completeOk

/-- WARM (R107). -/
def State.warmKeys (ks : List Key) (s : State) : State := (ks.foldl (fun s k => s.warmKey k) s).completeOk

end Sys2Proof.Machine
end

