-- ==== Sys2Proof/Machine/Desk.lean ====
section
/-! DEFINITION. The desk commands (08_the_desk_port.md): edges and their debounce (R156), the FREEZE level
(R157), routing by the engine state (R158 to R160), and BACK (R70). -/

namespace Sys2Proof.Machine

/-- The outcome of every command of the part. -/
abbrev Result := Host.Outcome State Fault Refusal

/-! ### Edges and routing -/

/-- An edge is accepted: the line has no last accepted edge, or it is at least 8,000 µs ago (R156). -/
def LinePort.accepts (now : Time) (x : LinePort) : Bool := x.lastEdge.all fun t => decide (t + Config.debounce ≤ now)

/-- A line after an accepted edge (R156, R157). -/
def LinePort.accept (now : Time) (x : LinePort) : LinePort :=
  { x with lastEdge := some now, accepted := bump x.accepted }

/-- A line after an edge set aside (R156, R157). -/
def LinePort.setAside (x : LinePort) : LinePort := { x with debounced := bump x.debounced }

/-- A rising edge on an edge line: accepted and routed, or debounced (R156; log entry 42). -/
def State.risingEdge (l : Line) (route : State → State) (s : State) : State :=
  let x := { s.line l with level := true }
  if x.accepts s.clock then route (s.setLine l (x.accept s.clock)) else s.setLine l x.setAside

/-- A beat arrival is routed (R158, R159, R160). One ignored for the engine state is counted and not
journalled. -/
def State.routeBeat (l : Line) (s : State) : State :=
  let down := l == .downbeat
  match s.ctl.engine with
  | .running => s.beatArrival down
  | .armed => if s.inBeatSection then (s.startShow l).beatArrival down else s.countIgnored l
  | _ => s.countIgnored l

/-- A GO is routed (R158, R159, R160). -/
def State.routeGo (s : State) : State :=
  match s.ctl.engine with
  | .running => s.pressGo s.clock
  | .armed => if s.inCalledSection then (s.startShow .go).pressGo s.clock else s.ignoreDesk .go .engineState
  | _ => s.ignoreDesk .go .engineState

/-- The request BACK places at a screen for a history entry (R70). -/
def State.backRequest (h : HistoryEntry) (tuples : List Tuple) (s : State) : Request :=
  { level := h.level, kind := .title, ident := .cue h.cue h.number, tuples := tuples, speaker := h.speaker,
    dwellPercent := h.dwellPercent, dwellOverride := h.dwellOverride, override := h.override,
    release := s.clock, operator := true, endTime := none, deferred := false }

/-- BACK at one screen (R70 step 2). -/
def State.backAt (h : HistoryEntry) (s : State) (i : Screen16) : State :=
  if h.screens.getLsbD i.val && !s.isMonitor i then
    let ts := h.tuples.filter fun t => (layoutLangs (s.screen i).layout).contains t.lang
    if ts.isEmpty then s else s.placeRequest i (s.backRequest h ts)
  else s

/-- BACK moves the cursors to the popped cue when the section in force is CALLED and the cue belongs to it in
the pass in force (R70 step 3). Which cues from it on were dropped or passed over is forgotten, since each is read
again (log entry 59). The offer cursor carries no origin then (log entry 77). -/
def State.backCursors (popped : HistoryEntry) (s : State) : State :=
  let w := s.wlk
  if s.inCalledSection && w.inForce == .sec popped.sec && w.pass == popped.pass then
    (s.setWalker { w with
      cursor := some { sec := popped.sec, pass := popped.pass, origin := none, cue := popped.cue }
      fireCursor := some popped.cue, waiting := none, heldBack := false
      unhanded := w.unhanded.filter fun p => !(decide (popped.cue ≤ p.1) &&
        ((w.sec popped.sec).any fun x => decide (p.1 < x.cueEnd))) }).discardRead
  else s

/-- A BACK that the walker takes (R70), the screens in ascending order (log entry 63). It ends an owed GO, without a
record (R60, log entry 53), and is followed by an offer review, whether or not it moved the cursors (log entry 80). -/
def State.takeBack (s : State) : State :=
  match s.wlk.history with
  | popped :: top :: rest =>
    let s := s.setWalker { s.wlk with history := top :: rest, owedGo := none }
    ((allScreens.foldl (State.backAt top) s).backCursors popped).reviewOffers
  | _ => s.ignoreDesk .back .noHistory

/-- A BACK is routed (R158, R160). -/
def State.routeBack (s : State) : State :=
  match s.ctl.engine with
  | .running => s.takeBack
  | _ => s.ignoreDesk .back .engineState

/-- A BLANK that the arbiter takes (R129): every flag is set, and then the flagged screens are evaluated in ascending
order (log entry 78). -/
def State.takeBlank (s : State) : State :=
  let s := s.pressBlank
  if s.blankHeld then
    allScreens.foldl (fun s i => if (s.screen i).blankPending then s.evaluate i else s) s
  else s.ignoreDesk .blank .nothingShown

/-- A BLANK is routed (R158, R160). -/
def State.routeBlank (s : State) : State :=
  match s.ctl.engine with
  | .running => s.takeBlank
  | .pausing => s.takeBlank
  | .paused => s.takeBlank
  | .ended => s.takeBlank
  | _ => s.ignoreDesk .blank .engineState

/-! ### FREEZE -/

/-- The level is handed to the scheduler; a release fires what waited (R87, R88, R157). -/
def State.handFreeze (asserted : Bool) (s : State) : State :=
  let s := { s with sch := { s.sch with freeze := asserted } }
  if asserted then s else s.fireAll

/-- A change of the FREEZE level is accepted at the time `at_`: now, or the end of the window (R157). -/
def State.acceptFreeze (at_ : Time) (s : State) : State :=
  let x := s.line .freeze
  let s := s.setLine .freeze (x.accept at_)
  ({ s with desk := { s.desk with
      freezeLevel := x.level, freezeWindow := some (at_ + Config.debounce) } }).handFreeze x.level

/-- An edge on FREEZE (R157). -/
def State.freezeEdge (active : Bool) (s : State) : State :=
  let s := s.setLine .freeze { s.line .freeze with level := active }
  if s.desk.freezeWindow.all fun w => decide (w ≤ s.clock) then
    if active = s.desk.freezeLevel then s else s.acceptFreeze s.clock
  else s.setLine .freeze (s.line .freeze).setAside

/-- The FREEZE window ends (R157). -/
def State.endFreezeWindow (s : State) : State :=
  match s.desk.freezeWindow with
  | some w =>
    if w ≤ s.clock then
      if (s.line .freeze).level = s.desk.freezeLevel then { s with desk := { s.desk with freezeWindow := none } }
      else s.acceptFreeze w
    else s
  | none => s

/-! ### The commands -/

/-- BEAT (R156, R158). -/
def execBeat (t : Time) (s : State) : Result := .next ((s.begin t).risingEdge .beat (State.routeBeat .beat))

/-- DOWNBEAT (R156, R158, R43). -/
def execDownbeat (t : Time) (s : State) : Result :=
  .next ((s.begin t).risingEdge .downbeat (State.routeBeat .downbeat))

/-- GO (R156, R158, R59). -/
def execGo (t : Time) (s : State) : Result := .next ((s.begin t).risingEdge .go State.routeGo)

/-- BACK (R156, R158, R70). -/
def execBack (t : Time) (s : State) : Result := .next ((s.begin t).risingEdge .back State.routeBack)

/-- BLANK (R156, R158, R129). -/
def execBlank (t : Time) (s : State) : Result := .next ((s.begin t).risingEdge .blank State.routeBlank)

/-- LINE_FALLING_EDGE (R156): the input level changes and nothing else. -/
def execLineFallingEdge (t : Time) (l : Line) (s : State) : Result :=
  let s := s.begin t
  .next (s.setLine l { s.line l with level := false })

/-- FREEZE (R157). -/
def execFreeze (t : Time) (active : Bool) (s : State) : Result := .next ((s.begin t).freezeEdge active)

/-- FREEZE_WINDOW_END (R157). -/
def execFreezeWindowEnd (t : Time) (s : State) : Result := .next (s.begin t).endFreezeWindow

/-- The lockout ends (R47): it turns off, the bounce run becomes 0, and the end is journalled. -/
def State.endLockout (s : State) : State :=
  match s.trk.lockout with
  | some e =>
    if e ≤ s.clock then
      (s.setTracker { s.trk with lockout := none, bounces := 0 }).journalTracker s.trk.state .lockoutEnd
    else s
  | none => s

/-- LOCKOUT_END (R47). -/
def execLockoutEnd (t : Time) (s : State) : Result := .next (s.begin t).endLockout

/-- The beat timeout expires (R37, R38). -/
def State.expireBeat (s : State) : State :=
  match s.trk.timeout with
  | some e => if e ≤ s.clock then s.syntheticBeat else s
  | none => s

/-- BEAT_TIMEOUT (R38). -/
def execBeatTimeout (t : Time) (s : State) : Result := .next (s.begin t).expireBeat

/-- The entry is TIMED and its T has come (R83). -/
def Armed.expires (now : Time) (e : Armed) : Bool := e.timing == .timed && e.fire.any fun f => decide (f ≤ now)

/-- Two POSITION entries of one pass share a position, and so a target (R9). -/
def Armed.sharesPosition (e x : Armed) : Bool :=
  e.target.isSome && x.sec == e.sec && x.pass == e.pass && x.target == e.target

/-- The fire timer of an armed entry expires: a TIMED entry whose T has come is DUE, together with every entry of
its position whose T has come, and what may fire fires, in list order (R9, R83, R87; log entry 66). -/
def State.expireFire (cue pass : Nat) (s : State) : State :=
  match s.armedEntry cue pass with
  | some e =>
    if e.expires s.clock then
      (s.setArmed (s.sch.armed.map fun x =>
        if (x.isOf cue pass || e.sharesPosition x) && x.expires s.clock then { x with timing := .due } else x)).fireAll
    else s
  | none => s

/-- FIRE_TIMER (R83). -/
def execFireTimer (t : Time) (cue pass : Nat) (s : State) : Result := .next ((s.begin t).expireFire cue pass)

end Sys2Proof.Machine
end

