-- ==== Sys2Proof/Machine/LinkEvents.lean ====
section
/-! DEFINITION. The commands of the screen links and of the screens' timers (06_screen_arbitration.md,
07_screen_links.md). -/

namespace Sys2Proof.Machine

/-! ### Screen timers -/

/-- A timer that has expired. -/
def expired (now : Time) (timer : Option Time) : Bool := timer.any fun e => decide (e ≤ now)

/-- RELEASE_TIMER (R117). -/
def execReleaseTimer (t : Time) (i : Screen16) (s : State) : Result :=
  let s := s.begin t
  .next (if expired s.clock (s.screen i).releaseTimer then s.evaluate i else s)

/-- DWELL_TIMER (R121). -/
def execDwellTimer (t : Time) (i : Screen16) (s : State) : Result :=
  let s := s.begin t
  .next (if expired s.clock (s.screen i).dwellTimer then s.evaluate i else s)

/-- NOTICE_TIMER (R128). -/
def execNoticeTimer (t : Time) (i : Screen16) (s : State) : Result :=
  let s := s.begin t
  .next (if expired s.clock (s.screen i).noticeTimer then s.evaluate i else s)

/-! ### Carrier -/

/-- Carrier rises (R141): taken in DOWN, where the link enters PROBING. -/
def State.riseCarrier (i : Screen16) (s : State) : State :=
  let k := s.link i
  let s := s.setLink i { k with carrier := true }
  if k.state = .down then s.enterProbing i .carrierUp else s

/-- CARRIER_UP (R141). -/
def execCarrierUp (t : Time) (i : Screen16) (s : State) : Result := .next ((s.begin t).riseCarrier i)

/-- A link without carrier (R141): the operation in flight is abandoned and the timers stop. -/
def Link.dropped (k : Link) : Link :=
  { k with state := .down, carrier := false, op := none, replyTimer := none, retryTimer := none }

/-- Carrier falls (R141): taken in any state other than DOWN. -/
def State.fallCarrier (i : Screen16) (s : State) : State :=
  let k := s.link i
  if k.state = .down then s.setLink i { k with carrier := false }
  else
    let s := ((((s.setLink i k.dropped).journalLink i k.state .down .carrierLoss).setCause .screen).linkDark i)
    if k.state = .busy then s.testQuiet else s

/-- CARRIER_LOSS (R141). -/
def execCarrierLoss (t : Time) (i : Screen16) (s : State) : Result := .next ((s.begin t).fallCarrier i)

/-! ### HELLO -/

/-- The HELLO retry timer expires in PROBING: HELLO is sent again with the same tag (R142; the send time of the
operation stays, log entry 49). -/
def State.retryHello (i : Screen16) (s : State) : State :=
  let k := s.link i
  if k.state = .probing ∧ expired s.clock k.retryTimer then
    (s.setLink i { k with
      hellos := bump k.hellos, retryTimer := some (s.clock + Config.helloRetry) }).transmit i (helloFrame k.tag)
  else s

/-- HELLO_RETRY_TIMER (R142). -/
def execHelloRetryTimer (t : Time) (i : Screen16) (s : State) : Result := .next ((s.begin t).retryHello i)

/-- A HELLO-REPLY is taken: PROBING, the episode's tag, fields in range (R143). -/
def Link.takesHello (k : Link) (tag : Byte) (fade capacity : Nat) : Bool :=
  k.state == .probing && k.tag == tag && decide (fade ≤ 2000) && decide (1 ≤ capacity) && decide (capacity ≤ 4)

/-- A HELLO-REPLY (R143, R151). -/
def State.helloReplied (i : Screen16) (tag caps : Byte) (fade capacity : Nat) (s : State) : State :=
  let k := s.link i
  if k.takesHello tag fade capacity then
    let c : Caps := { fade := caps.getLsbD 0, overlap := caps.getLsbD 1, fadeTime := fade, capacity := capacity }
    let s := s.setLink i { k with state := .ready, caps := some c, op := none, retryTimer := none }
    (s.journal (.linkState i k.state.code LinkState.ready.code LinkCause.helloReply.code 0 0 (capsBits (some c))
      fade 0)).resync i
  else s.ignoreMessage i

/-- HELLO_REPLY (R143). -/
def execHelloReply (t : Time) (i : Screen16) (tag caps : Byte) (fade capacity : Nat) (s : State) : Result :=
  .next ((s.begin t).helloReplied i tag caps fade capacity)

/-! ### Replies -/

/-- A DONE or REFUSED is taken: BUSY, and the tag of the operation in flight (R148, R149). -/
def Link.takesReply (k : Link) (tag : Byte) : Bool := k.state == .busy && k.op.any fun o => o.tag == tag

/-- A link that has left BUSY for another state: no operation, no reply timer. -/
def Link.leaveBusy (state : LinkState) (k : Link) : Link := { k with state := state, op := none, replyTimer := none }

/-- A DONE (R148): the arbiter is told, then Show Control. -/
def State.replyDone (i : Screen16) (tag : Byte) (s : State) : State :=
  let k := s.link i
  if k.takesReply tag then (((s.setLink i (k.leaveBusy .ready)).linkReturned i).testQuiet) else s.ignoreMessage i

/-- DONE (R148). -/
def execDone (t : Time) (i : Screen16) (tag : Byte) (s : State) : Result := .next ((s.begin t).replyDone i tag)

/-- The reason of a REFUSED: 1 UNKNOWN HANDLE, 2 UNSUPPORTED LAYOUT, else 3 UNSPECIFIED (R149). -/
def refusalReason (reason : Byte) : Nat := if reason = 1 then 1 else if reason = 2 then 2 else 3

/-- A REFUSED (R149). A CLEAR has no entry: its level and entry number are written 0 (log entry 33). -/
def State.replyRefused (i : Screen16) (tag reason : Byte) (s : State) : State :=
  let k := s.link i
  if k.takesReply tag then
    let message := (k.op.map fun o => o.kind.code).getD 0
    let subject := k.op.bind fun o => o.subject
    let s := (s.setLink i (k.leaveBusy .ready)).countOn i .refused
    let s := s.journal (.titleRefused i message (refusalReason reason) ((subject.map fun p => p.1.val).getD 0) tag
      ((subject.map fun p => p.2.number).getD 0))
    (s.linkReturned i).testQuiet
  else s.ignoreMessage i

/-- REFUSED (R149). -/
def execRefused (t : Time) (i : Screen16) (tag reason : Byte) (s : State) : Result :=
  .next ((s.begin t).replyRefused i tag reason)

/-- FRAME_DISCARDED (R151, R197). -/
def execFrameDiscarded (t : Time) (i : Screen16) (s : State) : Result := .next ((s.begin t).ignoreMessage i)

/-- A partial frame is discarded at the end of a gap and counted (R151, R197). -/
def execFrameGapTimeout (t : Time) (i : Screen16) (s : State) : Result :=
  let s := s.begin t
  .next (s.ignoreMessage i)

/-- The reply timer expires in BUSY: the link is FAULTED (R150). -/
def State.expireReply (i : Screen16) (s : State) : State :=
  let k := s.link i
  if k.state = .busy ∧ expired s.clock k.replyTimer then
    let s := (s.setLink i (k.leaveBusy .faulted)).countOn i .faults
    let s := s.journal (.linkState i k.state.code LinkState.faulted.code LinkCause.timeout.code
      ((k.op.map fun o => o.kind.code).getD 0) ((k.op.map fun o => o.tag).getD 0) 0 0
      ((k.op.map fun o => o.sendTime).getD 0))
    ((s.setCause .screen).linkDark i).testQuiet
  else s

/-- REPLY_TIMER (R150). -/
def execReplyTimer (t : Time) (i : Screen16) (s : State) : Result := .next ((s.begin t).expireReply i)

end Sys2Proof.Machine
end

