-- ==== Sys2Proof/Machine/Registers.lean ====
section
/-! DEFINITION. The resets (R178, R180, and each block's column "after a soft reset") and the register writes
(R181, R182, R186). -/

namespace Sys2Proof.Machine

/-! ### Resets -/

/-- A link as a soft reset leaves it before it probes: the tag and the carrier are kept (R153). With carrier the
old state stays until the link enters PROBING, which journals it. -/
def Link.softReset (k : Link) : Link :=
  { Link.reset with state := if k.carrier then k.state else .down, carrier := k.carrier, tag := k.tag }

/-- The port at a soft reset: both queues emptied, and an access in flight abandoned, for which the port stays
held (R185). -/
def Port.softReset (p : Port) : Port :=
  { Port.reset with inFlight := p.inFlight.map fun f => { f with abandoned := true } }

/-- The interface at a soft reset (R180). -/
def Interface.softReset (now : Time) (m : Interface) : Interface :=
  { Interface.reset with
    base := m.base, enables := m.enables, scanTimer := now + Config.scanPeriod, port := m.port.softReset
    statusTimer := now + Config.statusPeriod }

/-- The Desk Port at a reset, each line sampled at its input level (R155). -/
def Desk.resetAt (levels : Vector Bool 6) : Desk := { Desk.reset with lines := levels.map LinePort.reset }

/-- Every block at its soft-reset values, but for the engine state, which Show Control journals last (R178). -/
def State.softValues (s : State) : State :=
  { clock := s.clock, smi := s.smi.softReset s.clock, ctl := { Control.reset with engine := s.ctl.engine },
    desk := Desk.resetAt (s.desk.lines.map fun x => x.level), trk := Tracker.reset, wlk := Walker.reset,
    sch := Scheduler.reset, du := Descriptors.reset, arb := Arbiter.reset, links := s.links.map Link.softReset,
    sent := s.sent, pending := s.pending }

/-- Links with carrier enter PROBING, ascending (R153). -/
def State.probeAll (cause : LinkCause) (s : State) : State :=
  allScreens.foldl (fun s i => if (s.link i).carrier then s.enterProbing i cause else s) s

/-- An active FREEZE input at a reset is accepted as an assertion at the reset time (R157, log entry 6). -/
def State.sampleFreeze (s : State) : State := if (s.line .freeze).level then s.acceptFreeze s.clock else s

/-- A soft reset (R178; order of its records log entry 28). -/
def State.softReset (s : State) : State :=
  ((s.softValues.probeAll .reset).sampleFreeze).changeEngine .idle .reset none 0 0

/-- RESET (R178, R181): a soft reset, and a scan is requested when SCAN is set too. -/
def execReset (t : Time) (value : BitVec 32) (s : State) : Result :=
  let s := (s.begin t).softReset
  .next (if value.getLsbD 0 then s.requestScan else s)

/-- Every block at its power-on values, the inputs sampled (R180, R139, R155). The queue of commands is the
model's and stays. -/
def State.powerOnValues (lines : BitVec 6) (carriers : BitVec 16) (s : State) : State :=
  { State.reset with
    desk := Desk.resetAt (Vector.ofFn fun i => lines.getLsbD i.val)
    links := Vector.ofFn fun i => { Link.reset with carrier := carriers.getLsbD i.val }
    pending := s.pending }

/-- POWER_ON_RESET (R180, R153, R157; log entry 6). -/
def execPowerOnReset (lines : BitVec 6) (carriers : BitVec 16) (s : State) : Result :=
  .next (((s.powerOnValues lines carriers).probeAll .carrierUp).sampleFreeze)

/-! ### Register writes -/

/-- SCAN (R181, R186). -/
def execScan (t : Time) (_value : BitVec 32) (s : State) : Result := .next (s.begin t).requestScan

/-- BASE (R181): accepted while the engine state is IDLE, ignored in any other. -/
def execBase (t : Time) (value : BitVec 32) (s : State) : Result :=
  let s := s.begin t
  .next (if s.ctl.engine = .idle then { s with smi := { s.smi with base := baseOf value } } else s)

/-- CAUSE (R181, R182). -/
def execCause (t : Time) (value : BitVec 32) (s : State) : Result :=
  let s := s.begin t
  .next { s with smi := { s.smi with flags := s.smi.flags.clearBits value, enables := Cause.ofHigh value } }

/-- REGISTER_WRITE_IGNORED (R181; log entry 40). -/
def execRegisterWriteIgnored (t : Time) (_address _value : BitVec 32) (s : State) : Result := .next (s.begin t)

/-- SCAN_TIMER (R186): re-armed 4,000 µs after the expiry, and a scan is requested. -/
def execScanTimer (t : Time) (s : State) : Result :=
  let s := s.begin t
  .next (if s.smi.scanTimer ≤ s.clock then
    { s with smi := { s.smi with scanTimer := s.smi.scanTimer + Config.scanPeriod } }.requestScan else s)

/-- STATUS_TIMER (R192): re-armed 50,000 µs after the expiry, and a status refresh is requested. -/
def execStatusTimer (t : Time) (s : State) : Result :=
  let s := s.begin t
  .next (if s.smi.statusTimer ≤ s.clock then
    { s with smi := { s.smi with statusTimer := s.smi.statusTimer + Config.statusPeriod } }.requestRefresh else s)

end Sys2Proof.Machine
end

