-- ==== Sys2Proof/Machine/Directives.lean ====
section
/-! DEFINITION. The directive rows (R166, R167): each takes the directive whose TAKEN write completes (log entry
7). -/

namespace Sys2Proof.Machine

/-- UNKNOWN_KIND (R166, R196): a kind of 0 or above 18. -/
def execUnknownKind (t : Time) (s : State) : Result :=
  .next ((s.begin t).takeKind (fun k => k == 0 || decide (18 < k)) fun _ _ s => s.complete .unknownKind [])

/-- LOAD (R168). The address is checked by R17, not at the take. -/
def execLoad (t : Time) (s : State) : Result :=
  .next ((s.begin t).takeDirective 1 (fun ws _ => some (word ws 0)) State.beginLoad)

/-- ARM (R169). -/
def execArm (t : Time) (s : State) : Result := .next ((s.begin t).takeDirective 2 readArmFor State.armShow)

/-- PAUSE (R171). -/
def execPause (t : Time) (s : State) : Result :=
  .next ((s.begin t).takeDirective 3 noParameters fun _ => State.pauseShow)

/-- RESUME (R173). -/
def execResume (t : Time) (s : State) : Result :=
  .next ((s.begin t).takeDirective 4 noParameters fun _ => State.resumeShow)

/-- STOP (R174). -/
def execStop (t : Time) (s : State) : Result :=
  .next ((s.begin t).takeDirective 5 noParameters fun _ => State.stopShow)

/-- LOCATE (R170). -/
def execLocate (t : Time) (s : State) : Result := .next ((s.begin t).takeDirective 6 readLocate State.locateShow)

/-- NOTICE (R176). -/
def execNotice (t : Time) (s : State) : Result :=
  .next ((s.begin t).takeDirective 7 (fun ws _ => readNotice ws) State.beginNotice)

/-- CLEAR (R130). -/
def execClear (t : Time) (s : State) : Result :=
  .next ((s.begin t).takeDirective 8 (fun ws _ => some (screenMask (word ws 0), levelMask (word ws 1)))
    fun p s => (s.hostClear p.1 p.2).completeOk)

/-- SET MASK (R115). -/
def execSetMask (t : Time) (s : State) : Result :=
  .next ((s.begin t).takeDirective 9
    (fun ws _ => (readScreen (word ws 0)).map fun i => (i, levelMask (word ws 1)))
    fun p s => (s.setLevelMask p.1 p.2).completeOk)

/-- SET LAYOUT (R114). -/
def execSetLayout (t : Time) (s : State) : Result :=
  .next ((s.begin t).takeDirective 10 (fun ws _ => readLayout ws) fun p s => (s.applyLayout p.1 p.2).completeOk)

/-- SET SCREEN (R132). -/
def execSetScreen (t : Time) (s : State) : Result :=
  .next ((s.begin t).takeDirective 11 (fun ws _ => readSettings ws) fun p s =>
    (s.setScreen p.1 { s.screen p.1 with
      latency := p.2.1, preferred := p.2.2.1, prefixMode := p.2.2.2 }).completeOk)

/-- SET MIRROR (R133, R135). -/
def execSetMirror (t : Time) (s : State) : Result :=
  .next ((s.begin t).takeDirective 12 (fun ws _ => readMirror ws) State.setMirrorTo)

/-- PROBE SCREEN (R152). -/
def execProbeScreen (t : Time) (s : State) : Result :=
  .next ((s.begin t).takeDirective 13 (fun ws _ => readScreen (word ws 0)) State.probeLink)

/-- AMEND CUE (R177). -/
def execAmendCue (t : Time) (s : State) : Result := .next ((s.begin t).takeDirective 14 readCueIndex State.beginAmend)

/-- INVALIDATE (R108, R110). -/
def execInvalidate (t : Time) (s : State) : Result :=
  .next ((s.begin t).takeDirective 15 (fun ws _ => readInvalidate ws) State.invalidateKeys)

/-- WARM (R107). -/
def execWarm (t : Time) (s : State) : Result :=
  .next ((s.begin t).takeDirective 16 (fun ws _ => readWarm ws) State.warmKeys)

/-- SELECT COUNTERS (R137). -/
def execSelectCounters (t : Time) (s : State) : Result :=
  .next ((s.begin t).takeDirective 17 (fun ws _ => readSelectors ws) fun p s =>
    (s.setScreen p.1 ((s.screen p.1).select p.2)).completeOk)

/-- CLEAR COUNTERS (R137). -/
def execClearCounters (t : Time) (s : State) : Result :=
  .next ((s.begin t).takeDirective 18 (fun ws _ => some (screenMask (word ws 0)))
    fun m s => (s.clearCounters m).completeOk)

end Sys2Proof.Machine
end

