-- ==== Sys2Proof/Machine/Answers.lean ====
section
/-! DEFINITION. The answers of the memory port (R184, R185): each command answers the access in flight when that
is one of its row's (log entry 2), the requester acts, and the port then grants the next access (log entry 8). -/

namespace Sys2Proof.Machine

/-- The access in flight is answered: when `f` gives the act of its purpose, that is done and the port is freed. -/
def State.answer (f : Purpose → Option (State → State)) (s : State) : State :=
  match s.inFlight with
  | some a => match f a.purpose with
    | some act => (act s).freePort
    | none => s
  | none => s

/-! ### Scans, the sweep and outcomes -/

/-- A slot's state read in a search (R187 step 3). -/
def State.slotStateRead (slot : Slot) (d : List Byte) (s : State) : State :=
  match s.smi.scan with
  | .search _ left => if slotState d = 1 then s.readSlot slot left [] else s.nextSlot slot left
  | _ => s

/-- SCAN_STATE_READ (R187). -/
def execScanStateRead (t : Time) (d : List Byte) (s : State) : Result :=
  .next ((s.begin t).answer fun
    | .scanState slot => some (State.slotStateRead slot d)
    | _ => none)

/-- Half of a POSTED slot read (R187 step 4). -/
def State.slotHalfRead (slot : Slot) (d : List Byte) (s : State) : State :=
  match s.smi.scan with
  | .slotRead _ left half =>
    if half.isEmpty then s.readSlot slot left d
    else if slotState (half ++ d) = 1 then s.queueTake slot (half ++ d)
    else s.nextSlot slot left
  | _ => s

/-- SCAN_SLOT_READ (R187; one command for each of the two accesses, log entry 9). -/
def execScanSlotRead (t : Time) (d : List Byte) (s : State) : Result :=
  .next ((s.begin t).answer fun
    | .scanSlot slot _ => some (State.slotHalfRead slot d)
    | _ => none)

/-- A slot's state read in the sweep (R189). -/
def State.sweepStateRead (slot : Slot) (d : List Byte) (s : State) : State :=
  match s.smi.scan with
  | .sweepRead _ => if slotState d = 2 then s.sweepTaken slot else s.nextSweep slot
  | _ => s

/-- SWEEP_STATE_READ (R189). -/
def execSweepStateRead (t : Time) (d : List Byte) (s : State) : Result :=
  .next ((s.begin t).answer fun
    | .sweepState slot => some (State.sweepStateRead slot d)
    | _ => none)

/-- RESULT_WORDS_WRITE (R188, R189): the DONE write follows. -/
def execResultWordsWrite (t : Time) (s : State) : Result :=
  .next ((s.begin t).answer fun
    | .resultWords slot => some (State.resultsWritten slot)
    | .sweepResults slot => some (State.sweepDoneWrite slot)
    | _ => none)

/-- DONE_WRITE (R188, R189): CAUSE.DIRECTIVE is set. -/
def execDoneWrite (t : Time) (s : State) : Result :=
  .next ((s.begin t).answer fun
    | .doneWord slot => some (State.doneWritten slot)
    | .sweepDone slot => some fun s => (s.setCause .directive).nextSweep slot
    | _ => none)

/-! ### Reads of the script and of titles -/

/-- LOAD_READ_COMPLETE (R16). -/
def execLoadReadComplete (t : Time) (d : List Byte) (s : State) : Result :=
  .next ((s.begin t).answer fun
    | .load => some fun s => match s.loadWork with
      | some w => s.loadRead w d
      | none => s
    | _ => none)

/-- OFFER_READ_COMPLETE (R67, R68). -/
def execOfferReadComplete (t : Time) (d : List Byte) (s : State) : Result :=
  .next ((s.begin t).answer fun
    | .offer discarded => some (State.endOffer discarded (some d))
    | _ => none)

/-- AMEND_READ_COMPLETE (R177). -/
def execAmendReadComplete (t : Time) (d : List Byte) (s : State) : Result :=
  .next ((s.begin t).answer fun
    | .amend => some fun s => match s.amendWork with
      | some c => s.amendRead c d
      | none => s
    | _ => none)

/-- An answer for a key, if there is one, is handed on, and the way that gave it may serve a waiting item
(R105, R106). -/
def State.answerFrom (j : Fin 32) (w : Fin 4) (q : State × Option (Key × KeyResult)) : State :=
  match q.2 with
  | some p => (q.1.deliverAnswer p.1 p.2).serve j w
  | none => q.1

/-- FETCH_ACCESS_COMPLETE (R105). -/
def execFetchAccessComplete (t : Time) (d : List Byte) (s : State) : Result :=
  let s := s.begin t
  .next (s.answer fun
    | .fetch j w => if (s.way j w).cancelled then none else some fun s => State.answerFrom j w (s.fetchAnswered j w d)
    | _ => none)

/-- CANCELLED_READ_COMPLETE (R109). -/
def execCancelledReadComplete (t : Time) (s : State) : Result :=
  let s := s.begin t
  .next (s.answer fun
    | .fetch j w => if (s.way j w).cancelled then some (State.endCancelled j w) else none
    | _ => none)

/-! ### The journal and the status -/

/-- JOURNAL_RECORD_WRITE (R191): the count write follows. -/
def execJournalRecordWrite (t : Time) (s : State) : Result :=
  .next ((s.begin t).answer fun
    | .journalRecord => some State.writeJournalCount
    | _ => none)

/-- JOURNAL_COUNT_WRITE (R191): CAUSE.JOURNAL is set and the next record is written. -/
def execJournalCountWrite (t : Time) (s : State) : Result :=
  .next ((s.begin t).answer fun
    | .journalCount => some fun s => (s.setCause .journal).dropJournalHead
    | _ => none)

/-- A status write has completed: the next of the refresh is queued, or the refresh ends (R193). That it joins the
queue only now, at the BASE that then holds, is log entry 71. -/
def State.statusWritten (s : State) : State :=
  match s.smi.refresh with
  | .writing (w :: rest) owed => { s with smi := { s.smi with refresh := .writing rest owed } }.queueStatusWrite w
  | _ => s.endRefresh

/-- STATUS_WRITE (R193). -/
def execStatusWrite (t : Time) (s : State) : Result :=
  .next ((s.begin t).answer fun
    | .status => some State.statusWritten
    | _ => none)

/-! ### Faults -/

/-- The requesters of a MEMORY FAULT record (11_record_formats.md). -/
def Purpose.requester : Purpose → Nat
  | .load => 2
  | .amend => 2
  | .offer _ => 3
  | .fetch _ _ => 4
  | _ => 1

/-- The access is one of the journal's own writes (R191). -/
def Purpose.isJournal : Purpose → Bool
  | .journalRecord => true
  | .journalCount => true
  | _ => false

/-- The access is one of a fetch (R105). -/
def Purpose.isFetch : Purpose → Bool
  | .fetch _ _ => true
  | _ => false

/-- The requester is told FAULTED and acts (R185): scans (R187, R189), outcomes (R188), LOAD (R23), the walker
(R68), AMEND CUE (R177), fetches and cancelled reads (R106, R109), the journal (R191) and the status (R193). -/
def State.tellFault (p : Purpose) (s : State) : State :=
  match p with
  | .scanState _ => s.endScan
  | .scanSlot _ _ => s.endScan
  | .take _ => s.endScan
  | .resultWords slot => s.outcomeFaulted slot
  | .doneWord slot => s.outcomeFaulted slot
  | .sweepState _ => s.endScan
  | .sweepResults _ => s.endScan
  | .sweepDone _ => s.endScan
  | .load => match s.loadWork with
    | some w => s.failLoad .memoryFault w.table w.index 0
    | none => s
  | .offer discarded => s.endOffer discarded none
  | .amend => s.complete .memoryFault []
  | .fetch j w =>
    if (s.way j w).cancelled then s.endCancelled j w else State.answerFrom j w (s.fetchFaulted j w)
  | .journalRecord => s.journalFaulted
  | .journalCount => s.journalFaulted
  | .status => s.endRefresh

/-- MEMORY FAULT journalled at the grant time, and CAUSE.MEMORY set (R185). -/
def State.journalFault (f : InFlight) (s : State) : State :=
  let a := f.access
  let d := a.detail
  (s.journalAt f.granted (.memoryFault a.purpose.requester a.length a.write.isSome (a.cls == .background)
    d.secondary a.address d.table d.lang d.index d.group1 d.group2)).setCause .memory

/-- The access in flight is faulted when 100 µs have passed since its grant; one that a soft reset abandoned is
only let go (R185). The record of a faulted fetch follows what the Descriptor Unit does (R106); those of the other
requesters are produced first (log entry 27). -/
def State.timeOut (s : State) : State :=
  match s.smi.port.inFlight with
  | none => s
  | some f =>
    if f.granted + Config.accessLimit ≤ s.clock then
      if f.abandoned then s.freePort
      else if f.access.purpose.isJournal then (s.tellFault f.access.purpose).freePort
      else if f.access.purpose.isFetch then ((s.tellFault f.access.purpose).journalFault f).freePort
      else ((s.journalFault f).tellFault f.access.purpose).freePort
    else s

/-- ACCESS_TIMEOUT (R185). -/
def execAccessTimeout (t : Time) (s : State) : Result := .next (s.begin t).timeOut

/-- A late answer is discarded; that of an access a soft reset abandoned lets the port go (R185; log entry 41). -/
def State.lateAnswer (ofAbandoned : Bool) (s : State) : State :=
  match s.smi.port.inFlight with
  | some f => if ofAbandoned && f.abandoned then s.freePort else s
  | none => s

/-- LATE_ANSWER (R185). -/
def execLateAnswer (t : Time) (ofAbandoned : Bool) (s : State) : Result := .next ((s.begin t).lateAnswer ofAbandoned)

end Sys2Proof.Machine
end

