-- ==== Sys2Proof/Machine/Dispatch.lean ====
section
/-! DEFINITION. One arm for each command of the opcode table: a direct call of its meaning. -/

namespace Sys2Proof.Machine

/-- The effect of a command on everything but the queue. -/
def exec (i : Instr) (s : State) : Host.Outcome State Fault Refusal :=
  match i with
  | .powerOnReset lines carriers => Sys2Proof.Machine.execPowerOnReset lines carriers s
  | .reset t value => Sys2Proof.Machine.execReset t value s
  | .scan t value => Sys2Proof.Machine.execScan t value s
  | .base t value => Sys2Proof.Machine.execBase t value s
  | .cause t value => Sys2Proof.Machine.execCause t value s
  | .registerWriteIgnored t address value => Sys2Proof.Machine.execRegisterWriteIgnored t address value s
  | .scanTimer t => Sys2Proof.Machine.execScanTimer t s
  | .scanStateRead t data => Sys2Proof.Machine.execScanStateRead t data s
  | .scanSlotRead t data => Sys2Proof.Machine.execScanSlotRead t data s
  | .unknownKind t => Sys2Proof.Machine.execUnknownKind t s
  | .load t => Sys2Proof.Machine.execLoad t s
  | .arm t => Sys2Proof.Machine.execArm t s
  | .pause t => Sys2Proof.Machine.execPause t s
  | .resume t => Sys2Proof.Machine.execResume t s
  | .stop t => Sys2Proof.Machine.execStop t s
  | .locate t => Sys2Proof.Machine.execLocate t s
  | .notice t => Sys2Proof.Machine.execNotice t s
  | .clear t => Sys2Proof.Machine.execClear t s
  | .setMask t => Sys2Proof.Machine.execSetMask t s
  | .setLayout t => Sys2Proof.Machine.execSetLayout t s
  | .setScreen t => Sys2Proof.Machine.execSetScreen t s
  | .setMirror t => Sys2Proof.Machine.execSetMirror t s
  | .probeScreen t => Sys2Proof.Machine.execProbeScreen t s
  | .amendCue t => Sys2Proof.Machine.execAmendCue t s
  | .invalidate t => Sys2Proof.Machine.execInvalidate t s
  | .warm t => Sys2Proof.Machine.execWarm t s
  | .selectCounters t => Sys2Proof.Machine.execSelectCounters t s
  | .clearCounters t => Sys2Proof.Machine.execClearCounters t s
  | .resultWordsWrite t => Sys2Proof.Machine.execResultWordsWrite t s
  | .doneWrite t => Sys2Proof.Machine.execDoneWrite t s
  | .sweepStateRead t data => Sys2Proof.Machine.execSweepStateRead t data s
  | .loadReadComplete t data => Sys2Proof.Machine.execLoadReadComplete t data s
  | .offerReadComplete t data => Sys2Proof.Machine.execOfferReadComplete t data s
  | .amendReadComplete t data => Sys2Proof.Machine.execAmendReadComplete t data s
  | .fetchAccessComplete t data => Sys2Proof.Machine.execFetchAccessComplete t data s
  | .cancelledReadComplete t => Sys2Proof.Machine.execCancelledReadComplete t s
  | .journalRecordWrite t => Sys2Proof.Machine.execJournalRecordWrite t s
  | .journalCountWrite t => Sys2Proof.Machine.execJournalCountWrite t s
  | .statusTimer t => Sys2Proof.Machine.execStatusTimer t s
  | .statusWrite t => Sys2Proof.Machine.execStatusWrite t s
  | .accessTimeout t => Sys2Proof.Machine.execAccessTimeout t s
  | .lateAnswer t ofAbandoned => Sys2Proof.Machine.execLateAnswer t ofAbandoned s
  | .beat t => Sys2Proof.Machine.execBeat t s
  | .downbeat t => Sys2Proof.Machine.execDownbeat t s
  | .go t => Sys2Proof.Machine.execGo t s
  | .back t => Sys2Proof.Machine.execBack t s
  | .blank t => Sys2Proof.Machine.execBlank t s
  | .lineFallingEdge t line => Sys2Proof.Machine.execLineFallingEdge t line s
  | .freeze t active => Sys2Proof.Machine.execFreeze t active s
  | .freezeWindowEnd t => Sys2Proof.Machine.execFreezeWindowEnd t s
  | .lockoutEnd t => Sys2Proof.Machine.execLockoutEnd t s
  | .beatTimeout t => Sys2Proof.Machine.execBeatTimeout t s
  | .fireTimer t cue pass => Sys2Proof.Machine.execFireTimer t cue pass s
  | .releaseTimer t screen => Sys2Proof.Machine.execReleaseTimer t screen s
  | .dwellTimer t screen => Sys2Proof.Machine.execDwellTimer t screen s
  | .noticeTimer t screen => Sys2Proof.Machine.execNoticeTimer t screen s
  | .carrierUp t link => Sys2Proof.Machine.execCarrierUp t link s
  | .carrierLoss t link => Sys2Proof.Machine.execCarrierLoss t link s
  | .helloRetryTimer t link => Sys2Proof.Machine.execHelloRetryTimer t link s
  | .helloReply t link tag caps fade capacity => Sys2Proof.Machine.execHelloReply t link tag caps fade capacity s
  | .done t link tag => Sys2Proof.Machine.execDone t link tag s
  | .refused t link tag reason => Sys2Proof.Machine.execRefused t link tag reason s
  | .frameDiscarded t link => Sys2Proof.Machine.execFrameDiscarded t link s
  | .frameGapTimeout t link => Sys2Proof.Machine.execFrameGapTimeout t link s
  | .replyTimer t link => Sys2Proof.Machine.execReplyTimer t link s

end Sys2Proof.Machine
end

