-- ==== Sys2Proof/Safety.lean ====
section
/-! DEFINITION. What the statements about the part are made of: the standing conditions of a sound state
(`State.sound`), and the words in which a statement says what the memory port, the journal and a directive hold. -/

namespace Sys2Proof.Machine

/-! ### Sound states -/

/-- A free port has nothing waiting (R184): it grants as soon as it can. -/
def Port.sound (p : Port) : Prop := p.inFlight = none → p.urgent = [] ∧ p.background = []

/-- The journal queue holds at most 16 records, and a write is outstanding exactly while it holds one (R190,
R191). -/
def Interface.journalSound (m : Interface) : Prop :=
  m.journalQueue.length ≤ Config.journalQueueMax ∧ (m.journalPhase = .idle ↔ m.journalQueue = [])

/-- BASE is a multiple of 16,384 within show memory (R181). -/
def Interface.baseSound (m : Interface) : Prop := m.base % 16384 = 0 ∧ m.base + Config.controlBlock ≤ Config.memoryEnd

/-- What each state of a link holds (R139 to R150): without carrier it is DOWN; the HELLO retry timer runs in
PROBING alone and the reply timer in BUSY alone; an operation is in flight in those two states alone; a link
that is READY or BUSY has recorded its renderer's capabilities. -/
def Link.sound (k : Link) : Prop :=
  (k.carrier = false → k.state = .down) ∧
  (k.retryTimer.isSome = true ↔ k.state = .probing) ∧
  (k.replyTimer.isSome = true ↔ k.state = .busy) ∧
  (k.op.isSome = true ↔ k.state = .probing ∨ k.state = .busy) ∧
  (k.state = .ready ∨ k.state = .busy → k.caps.isSome = true)

/-- Level 0 of a screen is never masked (R115). -/
def Screen.sound (x : Screen) : Prop := x.masked 0 = false

/-- The cue history holds at most 16 entries (R69). -/
def Walker.sound (w : Walker) : Prop := w.history.length ≤ 16

/-- The wait queue holds at most 256 items and no key twice. An entry of the cache stands in the set of its key, no
other way of the set holds its key, and its key does not wait (R100, R103). -/
def Descriptors.sound (d : Descriptors) : Prop :=
  d.queue.length ≤ 256 ∧ (d.queue.map (·.key)).Nodup ∧
  ∀ (j : Fin 32) (w : Fin 4) (e : CacheEntry), d.sets[j].ways[w].entry = some e →
    setOf e.key = j ∧ (∀ i ∈ d.queue, i.key ≠ e.key) ∧
    ∀ (v : Fin 4) (f : CacheEntry), d.sets[j].ways[v].entry = some f → f.key = e.key → v = w

/-- A sound state of the part. -/
def State.sound (s : State) : Prop :=
  s.smi.port.sound ∧ s.smi.journalSound ∧ s.smi.baseSound ∧ (∀ i, (s.link i).sound) ∧ (∀ i, (s.screen i).sound) ∧
    s.wlk.sound ∧ s.du.sound

/-! ### The memory port -/

/-- The access is in flight at the port or waits in one of its queues (R184). -/
def Port.holds (p : Port) (a : Access) : Prop :=
  (∃ f, p.inFlight = some f ∧ f.access = a ∧ f.abandoned = false) ∨ a ∈ p.urgent ∨ a ∈ p.background

/-- The access waits in a queue of the port. -/
def Port.waits (p : Port) (a : Access) : Prop := a ∈ p.urgent ∨ a ∈ p.background

/-- The access in flight is for this purpose, and no reset has abandoned it (R185). -/
def State.answering (s : State) (p : Purpose) : Prop := ∃ a, s.inFlight = some a ∧ a.purpose = p

/-- A scan has begun in `s` (R187): it waits for the outcome writes in flight, or writes the oldest unwritten outcome;
with no outcome it makes the sweep while that is pending, and else begins the search after the rotation pointer. -/
def State.scanBegun (s u : State) : Prop :=
  ((∃ o ∈ s.smi.outcomes, o.writing = true) → u.smi.scan = .outcomes false ∧ u.smi.outcomes = s.smi.outcomes) ∧
  (∀ (o : OutcomeRecord) (os : List OutcomeRecord), s.smi.outcomes = o :: os → (∀ q ∈ o :: os, q.writing = false) →
    u.smi.scan = .outcomes false ∧ u.smi.outcomes = { o with writing := true } :: os ∧
    u.smi.port.holds (.writing (.resultWords o.slot) (s.resultAddress o.slot) (resultBytes o.results) .urgent)) ∧
  (s.smi.outcomes = [] → s.smi.sweepPending = true → u.smi.scan = .sweepRead 0 ∧
    u.smi.port.holds (.read (.sweepState 0) (s.slotAddress 0) 4 .background FaultDetail.none)) ∧
  (s.smi.outcomes = [] → s.smi.sweepPending = false → u.smi.scan = .search (s.smi.rotation + 1) 16 ∧
    u.smi.port.holds (.read (.scanState (s.smi.rotation + 1)) (s.slotAddress (s.smi.rotation + 1)) 4 .background
      FaultDetail.none))

/-- An unpinned item has not been passed over: the oldest waiting item of set `j` has taken way `w` (R103). Where none
waits for the set, the way holds `e` and the queue stands. -/
def State.servedOr (s u : State) (j : Fin 32) (w : Fin 4) (e : Option CacheEntry) : Prop :=
  ((∀ i ∈ s.du.queue, setOf i.key ≠ j) → (u.way j w).entry = e ∧ u.du.queue = s.du.queue) ∧
  ∀ (is : List WaitItem) (i : WaitItem) (js : List WaitItem), s.du.queue = is ++ i :: js → setOf i.key = j →
    (∀ x ∈ is, setOf x.key ≠ j) → u.du.queue = is ++ js ∧
    ∃ q, (u.way j w).entry = some { key := i.key, state := .fetching 0 q, pins := i.pins }

/-- The answer for a key has been written into every armed result that is PENDING for it, and nothing else of the scheduler
has changed (R89). -/
def State.answeredWith (s u : State) (k : Key) (a : KeyResult) : Prop :=
  u.sch = { s.sch with armed := s.sch.armed.map fun x => { x with
    keys := x.keys.map fun r => if r.1 = k ∧ r.2 = .pending then (k, a) else r } }

/-! ### Directives -/

/-- TAKEN is being written to a slot that the scan has read, with this kind and these words, and no outcome is
unwritten (R187 step 5, R188). -/
def State.taken (s : State) (slot : Slot) (kind : Nat) (words : List Nat) : Prop :=
  s.smi.scan = .take slot kind words ∧ s.answering (.take slot) ∧ s.smi.outcomes = []

/-- The outcome of a slot has been handed back last, after those of `s` (R188). -/
def State.handedBack (s u : State) (slot : Slot) (code : OutcomeCode) (results : List Nat) : Prop :=
  u.smi.outcomes = s.smi.outcomes ++ [{ slot := slot, code := code, results := results, writing := true }] ∧
    u.smi.port.holds (.writing (.resultWords slot) (s.resultAddress slot) (resultBytes results) .urgent)

/-- No directive is in progress, and the rotation pointer stands at the slot taken (R166, R187). -/
def State.finished (u : State) (slot : Slot) : Prop := u.ctl.progress = none ∧ u.smi.rotation = slot

/-- The command of a rising edge (R156), or of FREEZE made active (R157). -/
def risingCommand (t : Time) : Line → Instr
  | .beat => .beat t
  | .downbeat => .downbeat t
  | .go => .go t
  | .back => .back t
  | .blank => .blank t
  | .freeze => .freeze t true

/-- The row of each directive kind (R167). -/
def directiveRow (t : Time) : Nat → Option Instr
  | 1 => some (.load t)
  | 2 => some (.arm t)
  | 3 => some (.pause t)
  | 4 => some (.resume t)
  | 5 => some (.stop t)
  | 6 => some (.locate t)
  | 7 => some (.notice t)
  | 8 => some (.clear t)
  | 9 => some (.setMask t)
  | 10 => some (.setLayout t)
  | 11 => some (.setScreen t)
  | 12 => some (.setMirror t)
  | 13 => some (.probeScreen t)
  | 14 => some (.amendCue t)
  | 15 => some (.invalidate t)
  | 16 => some (.warm t)
  | 17 => some (.selectCounters t)
  | 18 => some (.clearCounters t)
  | _ => none

/-- The parameter conditions of each directive (R167, R196). LOAD, PAUSE, RESUME, STOP, CLEAR and CLEAR COUNTERS
have none. -/
def State.parametersInRange (s : State) (kind : Nat) (ws : List Nat) : Prop :=
  match kind with
  | 2 => word ws 0 ≤ 15 ∧
      (∃ sc, s.wlk.script = some sc ∧ word ws 1 ∈ runningOrder sc.sections (word ws 0)) ∧
      1 ≤ word ws 2 ∧ word ws 2 ≤ 8 ∧ 2 ≤ word ws 3 ∧ word ws 3 ≤ 32 ∧ word ws 4 ≤ 500000 ∧
      (word ws 5 = 0 ∨ word ws 5 = 4 ∨ word ws 5 = 8 ∨ word ws 5 = 16)
  | 6 => ∃ x, s.wlk.sec (word ws 0) = some x ∧ word ws 0 ∈ s.wlk.order.getD [] ∧
      (x.mode = .beat → 1 ≤ word ws 1 ∧ word ws 1 ≤ x.barCount)
  | 7 => word ws 0 ≤ 65535 ∧ word ws 1 ≤ 3 ∧ word ws 2 ≤ 600 ∧ word ws 3 % 65536 ≠ 0
  | 9 => word ws 0 ≤ 15
  | 10 => word ws 0 ≤ 15 ∧ ∀ i ∈ [1, 2, 3, 4], word ws i ≤ 7 ∨ word ws i = 255
  | 11 => word ws 0 ≤ 15 ∧ word ws 1 ≤ 200000 ∧ word ws 2 ≤ 2 ∧ word ws 3 ≤ 2
  | 12 => word ws 1 = 255 ∨ (word ws 0 ≤ 15 ∧ word ws 1 ≤ 15 ∧ word ws 0 ≠ word ws 1)
  | 13 => word ws 0 ≤ 15
  | 14 => ∃ sc, s.wlk.script = some sc ∧ word ws 0 < sc.cueCount
  | 15 => word ws 0 = 1 ∨ (word ws 0 = 0 ∧ word ws 1 ≤ 65535 ∧ word ws 2 ≤ 7)
  | 16 => 1 ≤ word ws 0 ∧ word ws 0 ≤ 8 ∧ ∀ i < word ws 0, word ws (i + 1) / 65536 ≤ 7
  | 17 => word ws 0 ≤ 15 ∧ word ws 1 ≤ 6 ∧ word ws 2 ≤ 6 ∧ word ws 3 ≤ 6
  | _ => True

/-! ### Faulted accesses -/

/-- The MEMORY FAULT record of an access: requester, length, direction, class, and the details its requester gave (R185,
R106). -/
def Access.faultRecord (a : Access) : Journal :=
  .memoryFault a.purpose.requester a.length a.write.isSome (a.cls == .background) a.detail.secondary a.address
    a.detail.table a.detail.lang a.detail.index a.detail.group1 a.detail.group2

/-- The access in flight serves this purpose and has had no answer for 100 µs (R185). -/
def State.overdue (s : State) (t : Time) (p : Purpose) : Prop :=
  ∃ f, s.smi.port.inFlight = some f ∧ f.abandoned = false ∧ f.access.purpose = p ∧ f.granted + 100 ≤ max s.clock t

/-! ### Resets -/

/-- The LINK STATE records of the links with carrier that a reset at time `now` has put into PROBING, in ascending order
and numbered from 0, with the code of each link's old state and of the cause (R142, R153, R154, R190). Their order is log
entry 6 after power-on and 28 after a soft reset, and the zero fields are log entry 33: the model's. -/
def probeRecords (now : Time) (old : Screen16 → LinkState) (carrier : Screen16 → Bool) (cause : Nat) :
    List JournalRecord :=
  (allScreens.filter carrier).zipIdx.map fun p => ⟨p.2, now, .linkState p.1 (old p.1).code 2 cause 0 0 0 0 0⟩

/-- The Desk Port after a reset at time `now` that samples these input levels: no edge taken and nothing counted, but
that an active FREEZE input is accepted as an assertion, and its window runs (R155, R157). That the acceptance counts
and dates an edge as any other does is log entry 6, the model's reading. -/
def State.deskSampled (u : State) (now : Time) (level : Line → Bool) : Prop :=
  (∀ l, u.line l = if l = .freeze ∧ level .freeze = true
    then { level := true, lastEdge := some now, accepted := 1, debounced := 0, ignored := 0 }
    else { level := level l, lastEdge := none, accepted := 0, debounced := 0, ignored := 0 }) ∧
  u.desk.freezeLevel = level .freeze ∧ u.desk.freezeWindow = if level .freeze then some (now + 8000) else none

/-! ### The desk and the beat -/

/-- The line's last accepted edge, if it has one, is at least 8,000 µs old (R156). -/
def State.acceptsEdge (s : State) (t : Time) (l : Line) : Prop :=
  ∀ e, (s.line l).lastEdge = some e → e + 8000 ≤ max s.clock t

/-- The state once the Desk Port has accepted a rising edge of the line, before it is routed (R156). -/
def State.edgeTaken (s : State) (t : Time) (l : Line) : State :=
  (s.begin t).setLine l { s.line l with
    level := true, lastEdge := some (max s.clock t), accepted := min 4294967295 ((s.line l).accepted + 1) }

/-- The tracker is in the state given, or the show has left its BEAT section and it is SUSPENDED (R35, R50). -/
def State.tracksUnlessLeft (u : State) (st : TrackerState) : Prop :=
  u.trk.state = st ∨ (u.trk.state = .suspended ∧ u.inBeatSection = false)

/-- No bar of the script held carries a tempo mark (R5). -/
def State.unmarked (s : State) : Prop := ∀ sc, s.wlk.script = some sc → ∀ b ∈ sc.bars, b.mark = 0

/-- The estimate, the ring and the confidence of the tracker are unchanged (R31, R40, R41). -/
def Tracker.sameTempo (k j : Tracker) : Prop := j.period = k.period ∧ j.ring = k.ring ∧ j.confidence = k.confidence

/-- The next show beat is beat `m` of the bar `r` of the BEAT section `x` in force (R54). -/
def State.nextBeatIn (s : State) (x : Section) (m : Nat) (r : Bar) : Prop :=
  ∃ n bar, s.wlk.inForce = .sec n ∧ s.wlk.sec n = some x ∧ x.mode = .beat ∧ s.wlk.walked = some s.trk.beat ∧
    findBar (s.wlk.barsOf x) 1 (((s.trk.beat + 1 : Nat) : Int) - s.wlk.origin).toNat = some (bar, m, r)

/-- Beat `b` lies in the pass in force of section `x`, before its final beat (R54, R55). -/
def State.beforeFinal (s : State) (x : Section) (b : Nat) : Prop :=
  s.wlk.origin ≤ (b : Int) ∧ (b : Int) - s.wlk.origin + 1 < (s.wlk.lengthOf x : Int)

/-- Beat B + 1 is newly mapped and is the final beat of the pass in force, of the BEAT section `n` (R54, R55). -/
def State.finalBeatIn (s : State) (n : Nat) (x : Section) : Prop :=
  s.wlk.inForce = .sec n ∧ s.wlk.sec n = some x ∧ x.mode = .beat ∧ s.wlk.walked = some s.trk.beat ∧
    s.wlk.origin ≤ (s.trk.beat : Int) + 1 ∧ (s.trk.beat : Int) + 1 - s.wlk.origin + 1 = (s.wlk.lengthOf x : Int)

/-- SECTION ENTERED is in the queue for the section in force, of this mode, as the first record after those of `s`: that it
stands before TRACKER STATE and CUE REJECTED is log entry 68, a DESIGN CHOICE. -/
def State.entered (s u : State) (mode cause : Nat) : Prop :=
  s.smi.journalQueue.length < 16 → (⟨s.smi.journalCount, u.clock,
    .sectionEntered mode u.wlk.pass cause u.wlk.inForce.code u.wlk.origin u.trk.beat⟩ : JournalRecord) ∈
      u.smi.journalQueue

/-- The section in force is END, the fire cursor none (log entry 58); the show has ended when nothing is armed, and
else goes on (R55, R61, R175). -/
def State.showPassed (s u : State) : Prop :=
  u.wlk.inForce = .endOfShow ∧ u.wlk.fireCursor = none ∧ u.wlk.exitFlag = false ∧
    (s.sch.armed = [] → u.ctl.engine = .ended ∧ u.trk.state = .suspended ∧ u.wlk.history = [] ∧
      u.wlk.owedGo = none) ∧
    (s.sch.armed ≠ [] → u.ctl.engine = .running)

/-- The offer cursor stood before cues of the pass that has been left: the rest of them is passed over with CUE REJECTED,
and the cursor stands at the first cue of the section and pass now in force (R66). -/
def State.overtakes (s u : State) (n : Nat) (x y : Section) (origin : Option Int) : Prop :=
  ∀ c, s.wlk.cursor = some c → c.sec = n → c.origin = origin → c.cue < x.cueEnd →
    (0 < y.cueCount → ∀ m, u.wlk.inForce = .sec m → u.wlk.cursor = some {
      sec := m, pass := u.wlk.pass, origin := if y.mode = .beat then some u.wlk.origin else none
      cue := y.firstCue }) ∧
    (s.smi.journalQueue.length < 13 → ∃ k,
      (⟨k, u.clock, .cueRejected 12 c.cue 0 (x.cueEnd - c.cue)⟩ : JournalRecord) ∈ u.smi.journalQueue)

/-- The final beat of the pass in force of section `n` has been counted (R55, R56, R66). -/
def State.passEnds (s u : State) (n : Nat) (x : Section) : Prop :=
  (x.vamp = true → s.wlk.exitFlag = false →
    u.wlk.inForce = .sec n ∧ u.wlk.pass = min 255 (s.wlk.pass + 1) ∧ u.wlk.origin = (s.trk.beat : Int) + 2 ∧
    u.wlk.exitFlag = false ∧ u.trk.state = .tracking ∧ s.entered u 0 1 ∧
    s.overtakes u n x x (some s.wlk.origin)) ∧
  (x.vamp = false ∨ s.wlk.exitFlag = true →
    (∀ m y, s.wlk.nextSec n = some m → s.wlk.sec m = some y →
      u.wlk.inForce = .sec m ∧ u.wlk.pass = 1 ∧ u.wlk.exitFlag = false ∧
      s.overtakes u n x y (some s.wlk.origin) ∧
      (y.mode = .beat → u.wlk.origin = (s.trk.beat : Int) + 2 ∧ u.trk.state = .tracking ∧ s.entered u 0 1) ∧
      (y.mode = .called → u.trk.state = .suspended ∧ u.trk.timeout = none ∧ s.entered u 1 1 ∧
        ((y.firstCue, 1) ∉ s.wlk.unhanded → u.wlk.fireCursor = some y.firstCue))) ∧
    (s.wlk.nextSec n = none → s.showPassed u ∧ s.entered u 0 1))

/-- The armed entry made DUE by a GO of time `g`: T is `g`, and A its lead later (R84, R86). -/
def State.dueByGo (s : State) (g : Time) (e : Armed) : Armed :=
  { e with timing := .due, lead := some (s.cueLead e.copy), fire := some g, appear := some (g + s.cueLead e.copy) }

/-- A GO has moved the show on from the end of the CALLED section `n` (R61). -/
def State.goEnters (s u : State) (n : Nat) : Prop :=
  (s.wlk.nextSec n = none → s.showPassed u ∧ s.entered u 0 2) ∧
  ∀ m y, s.wlk.nextSec n = some m → s.wlk.sec m = some y →
    (y.mode = .beat → u.wlk.inForce = .sec m ∧ u.wlk.pass = 1 ∧ u.wlk.exitFlag = false ∧ u.wlk.fireCursor = none ∧
      u.wlk.origin = (if s.trk.counted then (s.trk.beat : Int) + 1 else (s.trk.beat : Int)) ∧
      u.wlk.walked = (if s.trk.counted then some s.trk.beat else none) ∧
      u.trk.state = .locking ∧ u.trk.period = s.wlk.tempoAt y 1 ∧ u.trk.beat = s.trk.beat ∧ u.trk.ring = [] ∧
      u.ctl.engine = .running ∧ s.entered u 0 2) ∧
    (y.mode = .called → 0 < y.cueCount → (y.firstCue, 1) ∉ s.wlk.unhanded →
      u.wlk.inForce = .sec m ∧ u.wlk.pass = 1 ∧ u.wlk.fireCursor = some y.firstCue ∧ u.ctl.engine = .running ∧
      s.entered u 1 2 ∧
      (s.armedEntry y.firstCue 1 = none → u.wlk.owedGo = some u.clock) ∧
      ∀ e, s.armedEntry y.firstCue 1 = some e → e.timing = .waiting →
        u.wlk.owedGo = none ∧ u.armedEntry y.firstCue 1 = some (s.dueByGo u.clock e))

/-- A GO has been ignored for this reason: journalled and counted, and the show stands as it did (R160, R161). -/
def State.goIgnored (s u : State) (reason : Nat) : Prop :=
  u.trk = s.trk ∧ u.sch = s.sch ∧ u.du = s.du ∧ u.arb = s.arb ∧ u.links = s.links ∧ u.ctl = s.ctl ∧
    u.wlk.inForce = s.wlk.inForce ∧ u.wlk.exitFlag = s.wlk.exitFlag ∧ u.wlk.fireCursor = s.wlk.fireCursor ∧
    u.wlk.owedGo = s.wlk.owedGo ∧ (u.line .go).ignored = min 4294967295 ((s.line .go).ignored + 1) ∧
    (s.smi.journalQueue.length < 16 → u.smi.journalQueue = s.smi.journalQueue ++ [⟨s.smi.journalCount, u.clock,
      .deskIgnored (lineCode .go) reason s.ctl.engine.code s.wlk.inForce.code s.trk.beat⟩])

/-- An accepted arrival on the line has been ignored for this reason: DESK IGNORED journalled, the line's ignored count
up by 1, and nothing else of the state moved (R160, R161). -/
def State.pressIgnored (s u : State) (t : Time) (l : Line) (reason : Nat) : Prop :=
  u = { (s.edgeTaken t l).setLine l { (s.edgeTaken t l).line l with
    ignored := min 4294967295 ((s.line l).ignored + 1) } with smi := u.smi } ∧
  (s.smi.journalQueue.length < 16 → u.smi.journalQueue = s.smi.journalQueue ++ [⟨s.smi.journalCount, max s.clock t,
    .deskIgnored (lineCode l) reason s.ctl.engine.code s.wlk.inForce.code s.trk.beat⟩])

/-- The beat timeout as a settled beat leaves it: in TRACKING and FREEWHEEL it runs floor(3E/2) from t_last when the last
counted beat lies outside a fermata bar, and else it is stopped (R37). -/
def Tracker.rearmed (k : Tracker) : Prop :=
  k.timeout = if (k.state = .tracking ∨ k.state = .freewheel) ∧ k.facts.fermata = false
    then some (k.tLast + 3 * k.period / 2) else none

/-- The table of R34: the confidence of a ring under the estimate `e`. -/
def confidenceTable (ring : List Nat) (e : Nat) : Confidence :=
  let j := (ring.map fun i => ((i : Int) - (e : Int)).natAbs).sum / ring.length
  if ring.length < 4 then .loose
  else if 16 * j ≤ e then .steady
  else if 8 * j ≤ e then .loose
  else .erratic

/-- What the tracker hands over as it stands (R35, R74). -/
def Tracker.view (k : Tracker) : TrackerView :=
  { state := k.state, confidence := k.confidence, beat := k.beat, absorb := k.absorb, tLast := k.tLast
    period := k.period, fermata := k.facts.fermata }

/-- The appearance time that a tracker view gives a target beat and tick: O = Δ·E + τ·E/120, the tick term rounded half
up, after the last counted beat, and at least 0 (R79). -/
def TrackerView.predicts (v : TrackerView) (b : Int) (tick : Nat) : Time :=
  ((v.tLast : Int) + (b - ((v.beat : Int) - (v.absorb : Int))) * (v.period : Int) +
    ((2 * (tick * v.period) + 120) / 240 : Nat)).toNat

/-- The table of R81 under a tracker view: the timing state of a POSITION entry with a target and T. -/
def TrackerView.gates (v : TrackerView) (now : Time) (b : Int) (tick : Nat) (T : Time) : Timing :=
  let p := (v.beat : Int) - (v.absorb : Int)
  let atT : Timing := if T ≤ now then .due else .timed
  if v.state = .suspended ∨ v.state = .locking ∨ v.state = .lost then .gated
  else if v.fermata = true ∧ (p < b ∨ (b = p ∧ 0 < tick)) then .gated
  else if v.state = .freewheel ∨ v.confidence = .steady then atT
  else if v.confidence = .loose then (if p < b then .gated else atT)
  else if (tick = 0 ∧ p < b) ∨ (0 < tick ∧ p < b + 1) then .gated
  else .due

/-- A cue addresses the screen: it is in the cue's scope, no monitor, and for a TITLE its layout in force names a
language of the mask (R78). -/
def State.isAddressed (s : State) (c : Cue) (i : Screen16) : Prop :=
  c.scope.getLsbD i.val = true ∧ s.isMonitor i = false ∧
    (c.action = .title → ∃ (k : Fin 4) (g : Lang), (s.screen i).layout[k] = some g ∧ c.langs.getLsbD g.val = true)

/-- A DOWNBEAT counted now stands at beat `m` of a bar of `n` beats, the show beat being `b`: the next beat, or B again
when it is absorbed. It is not the final beat of its pass (R43, R45). -/
def State.downbeatFinds (s : State) (x : Section) (b m n : Nat) : Prop :=
  s.beforeFinal x b ∧
    ((0 < s.trk.absorb ∧ b = s.trk.beat ∧ s.wlk.walked = some b ∧ m = s.trk.facts.beatInBar ∧ n = s.trk.facts.beats ∧
        ∃ k, s.wlk.inForce = .sec k ∧ s.wlk.sec k = some x ∧ x.mode = .beat) ∨
      (s.trk.absorb = 0 ∧ b = s.trk.beat + 1 ∧ ∃ r, s.nextBeatIn x m r ∧ n = r.beats))

/-! ### The descriptor cache -/

/-- The marks of a set once its way `w` is used: the pair mark names the pair without `w`, the mark of its own pair
names its partner, and the other mark stands (R101). -/
def CacheSet.used (x y : CacheSet) (w : Fin 4) : Prop :=
  (w.val < 2 → y.pairMark = true ∧ y.mark0 = decide (w.val = 0) ∧ y.mark1 = x.mark1) ∧
  (2 ≤ w.val → y.pairMark = false ∧ y.mark1 = decide (w.val = 2) ∧ y.mark0 = x.mark0)

/-- WARM has taken one key, by the table of R107: nothing outside the key's set, the wait queue or the counts moves, and
the port keeps what it held. A way that holds the key is used; a key that waits, or that no way can take, changes
nothing; else the way chosen takes an unpinned FETCHING entry, is used, and its first read is queued in the background
class unless it holds a cancelled read. -/
def State.warmed (s u : State) (k : Key) : Prop :=
  let j := setOf k
  u.du = { s.du with sets := u.du.sets } ∧ (∀ i, i ≠ j → u.cacheSet i = s.cacheSet i) ∧
  (∀ a, s.smi.port.holds a → u.smi.port.holds a) ∧
  (∀ w, (s.cacheSet j).find k = some w →
    (u.cacheSet j).ways = (s.cacheSet j).ways ∧ (s.cacheSet j).used (u.cacheSet j) w) ∧
  ((s.cacheSet j).find k = none → s.keyWaits k = true ∨ (s.cacheSet j).choose = none → u.du = s.du) ∧
  ∀ w, (s.cacheSet j).find k = none → s.keyWaits k = false → (s.cacheSet j).choose = some w →
    (s.cacheSet j).used (u.cacheSet j) w ∧ (∀ v, v ≠ w → u.way j v = s.way j v) ∧
    (∃ q, u.way j w = { entry := some { key := k, state := .fetching 0 q, pins := 0 }
                        cancelled := (s.way j w).cancelled }) ∧
    ∀ (a x : Nat), s.du.table = some (a, x) → (s.way j w).cancelled = false →
      u.smi.port.holds (.read (.fetch j w) (a + 128 * ((k.title + 8191 * k.lang.val) % 2 ^ x)) 32 .background
        (fetchDetail a x k 0))

/-- WARM has taken some keys, one after another in the order given (R107). -/
def State.warmedInTurn : List Key → State → State → Prop
  | [], s, u => u = s
  | k :: ks, s, u => ∃ v, s.warmed v k ∧ State.warmedInTurn ks v u

/-! ### Offers -/

/-- The cue of a checked record is passed over (R67, steps 2 to 4): a FIRST-PASS cue in a later pass, a FOLLOW cue whose
predecessor was dropped or passed over, or a POSITION cue whose target lies before show beat 0. -/
def State.passesOver (s : State) (c : Cursor) (x : Section) (copy : Cue) : Prop :=
  (copy.passRule = .firstPass ∧ 1 < c.pass) ∨
  ((∃ delay, copy.anchor = .follow delay) ∧ (c.cue - 1, c.pass) ∈ s.wlk.unhanded) ∨
  ∃ b tick, s.targetOf c x copy.anchor = some (b, tick) ∧ b < 0

/-- What a request for a key is answered at once (R102, R103): what an ended fetch has left in the cache; PENDING while a
fetch runs, the key waits already, a way can be taken for it, or the wait queue, then of `n` items, has room for it; else
FAULTED. -/
def State.requestAnswer (s : State) (n : Nat) (k : Key) : KeyResult :=
  match (s.cacheSet (setOf k)).find k with
  | some w => match (s.way (setOf k) w).entry with
    | some { state := .valid h c, .. } => .present h c
    | some { state := .absent, .. } => .absent
    | _ => .pending
  | none =>
    if s.keyWaits k = true ∨ (s.cacheSet (setOf k)).choose ≠ none ∨ n < 256 then .pending else .faulted

/-- A request for the key has to join the wait queue: no way holds it or can be taken for it, and it does not wait yet
(R102). -/
def State.mustWait (s : State) (k : Key) : Bool :=
  ((s.cacheSet (setOf k)).find k).isNone && !s.keyWaits k && ((s.cacheSet (setOf k)).choose).isNone

/-- The answers to requests for some keys of different sets, one after another, `n` items standing in the wait queue:
each key that has to wait makes it one longer (R102, R103). -/
def State.answersInTurn (s : State) (n : Nat) : List Key → List (Key × KeyResult)
  | [] => []
  | k :: ks => (k, s.requestAnswer n k) :: s.answersInTurn (if s.mustWait k then n + 1 else n) ks

/-- The owed GO that goes with the cue at the cursor: that of the fire cursor, with a GO or a FOLLOW cue (R60, R67). -/
def State.owedWith (s : State) (c : Cursor) (copy : Cue) : Option Time :=
  match copy.anchor with
  | .position _ _ _ => none
  | _ => if s.wlk.inForce = .sec c.sec ∧ s.wlk.fireCursor = some c.cue then s.wlk.owedGo else none

/-- The appearance time that a FOLLOW cue is timed from as it is armed with its predecessor no longer in the list: that of
the fire record where it names the predecessor, else the arming time (R76, R85). -/
def State.followsFrom (s : State) (now : Time) (c : Cursor) : Time :=
  match s.sch.fireRecord with
  | some f => if f.cue = c.cue - 1 ∧ f.pass = c.pass then f.appear else now
  | none => now

/-- The entry that R76 makes at time `now` of the cue at the cursor, handed over with this copy. A POSITION cue is predicted
from the tracker view and gated in TRACKING and FREEWHEEL (R79, R81), and is else GATED, not timed. A GO or FOLLOW cue
with an owed GO is timed from that GO and DUE (R84, R86). Else a GO cue is WAITING, and so is a FOLLOW cue whose
predecessor is armed; any other FOLLOW cue is timed (R85). It requests its keys, each with the answer it has at once. That
the keys are requested in ascending language is log entry 60, and the field `unpinned` log entry 45: the model's. -/
def State.armedFor (s : State) (now : Time) (c : Cursor) (x : Section) (copy : Cue) : Armed :=
  let keys := s.answersInTurn s.du.queue.length (s.keysOf copy)
  let e : Armed :=
    { cue := c.cue, pass := c.pass, sec := c.sec, copy := copy, dwellPercent := x.dwellPercent
      target := s.targetOf c x copy.anchor, appear := none, fire := none, lead := none, timing := .waiting, keys := keys
      unpinned := (keys.filter fun p => decide (p.2 = .faulted)).map (·.1) }
  let lead := s.cueLead copy
  let timed (A T : Time) (state : Timing) : Armed :=
    { e with appear := some A, fire := some T, lead := some lead, timing := state }
  match copy.anchor, s.owedWith c copy with
  | .position _ _ _, _ =>
    match s.targetOf c x copy.anchor with
    | some (b, tick) =>
      if s.sch.view.state = .tracking ∨ s.sch.view.state = .freewheel then
        let A := s.sch.view.predicts b tick
        timed A (A - lead) (s.sch.view.gates now b tick (A - lead))
      else { e with timing := .gated }
    | none => { e with timing := .gated }
  | _, some g => timed (g + lead) g .due
  | .go, none => e
  | .follow delay, none =>
    if (s.armedEntry (c.cue - 1) c.pass).isSome then e
    else
      let A := s.followsFrom now c + delay
      timed A (A - lead) (if A - lead ≤ now then .due else .timed)

/-- The keys of the cue: one for each language of a TITLE cue's mask that the layout of a screen it addresses names, in
ascending language (R76, R78; that order is log entry 60, the model's choice). -/
def State.keysAre (s : State) (copy : Cue) (keys : List Key) : Prop :=
  (∀ k, k ∈ keys ↔ copy.action = .title ∧ k.title = copy.title ∧ copy.langs.getLsbD k.lang.val = true ∧
    ∃ (i : Screen16) (m : Fin 4), s.isAddressed copy i ∧ (s.screen i).layout[m] = some k.lang) ∧
  keys.Pairwise fun k j => k.lang < j.lang

/-- Some keys of different sets have been requested at time `now` (R102, R103): a key that a way holds has one pin more
there, and one that waits in its item; a way taken for a key holds a FETCHING entry with one pin, whose first access is
made in the urgent class unless the way holds a cancelled read; the others join the wait queue in order while it has
room. -/
def State.keysRequested (s u : State) (now : Time) (keys : List Key) : Prop :=
  (∀ k ∈ keys, ∀ w e, (s.cacheSet (setOf k)).find k = some w → (s.way (setOf k) w).entry = some e →
    (u.way (setOf k) w).entry = some { e with pins := e.pins + 1 }) ∧
  (∀ k ∈ keys, (s.cacheSet (setOf k)).find k = none → s.keyWaits k = false →
    ∀ w, (s.cacheSet (setOf k)).choose = some w →
      (∃ q, (u.way (setOf k) w).entry = some { key := k, state := .fetching 0 q, pins := 1 }) ∧
      ∀ (a x : Nat), s.du.table = some (a, x) → (s.way (setOf k) w).cancelled = false →
        u.smi.port.holds (.read (.fetch (setOf k) w) (a + 128 * ((k.title + 8191 * k.lang.val) % 2 ^ x)) 32 .urgent
          (fetchDetail a x k 0))) ∧
  u.du.queue = (s.du.queue.map fun i =>
      if i.key ∈ keys ∧ (s.cacheSet (setOf i.key)).find i.key = none then { i with pins := i.pins + 1 } else i) ++
    (((keys.filter s.mustWait).take (256 - s.du.queue.length)).map fun k => { key := k, joined := now, pins := 1 })

/-- The entry takes the place performance order gives it (R75, R76): before the first entry it comes before. -/
def State.armedInPlace (s u : State) (e : Armed) : Prop :=
  ∃ before after, s.sch.armed = before ++ after ∧ u.sch = { s.sch with armed := before ++ e :: after } ∧
    (∀ x ∈ before, performsBefore (s.wlk.order.getD []) e x = false) ∧
    ∀ x, after.head? = some x → performsBefore (s.wlk.order.getD []) e x = true

/-- An offer read has handed nothing to the scheduler and journalled nothing. -/
def State.nothingHanded (s u : State) : Prop :=
  u.trk = s.trk ∧ u.sch = s.sch ∧ u.du = s.du ∧ u.desk = s.desk ∧ u.arb = s.arb ∧ u.links = s.links ∧
    u.ctl = s.ctl ∧ u.smi.journalCount = s.smi.journalCount

/-! ### Screens -/

/-- Every counter of a screen that counts the event has risen by `n` (R136). -/
def Screen.counted (x y : Screen) (ev : CountEvent) (n : Nat) : Prop :=
  ∀ j : Fin 3, x.selectors[j] = ev → x.counters[j] + n ≤ 4294967295 → y.counters[j] = x.counters[j] + n

/-- A screen that has nothing pending, no desk BLANK and no notice end reached (R119, R128). -/
def Screen.settled (x : Screen) (now : Time) : Prop :=
  x.blankPending = false ∧ (∀ l : Level, x.pendingAt[l] = none) ∧
    ∀ (l : Level) (e : Entry) (T : Time), x.stack[l] = some e → e.endTime = some T → now < T

/-- A SHOW of a title with this speaker draws the prefix: the mode is ON, or CHANGE and the last speaker shown was
another (R124). -/
abbrev Screen.drawsPrefix (x : Screen) (speaker : Nat) : Prop :=
  x.prefixMode = .on ∨ (x.prefixMode = .change ∧ x.lastSpeaker ≠ some speaker)

/-- The prefix length that R125 adds for a SHOW of the entry: that of its speaker when a prefix is drawn (R124), and 0
without a script or beyond its speaker count. -/
def State.prefixFor (s : State) (i : Screen16) (e : Entry) : Nat :=
  match e.speaker, s.wlk.script with
  | some n, some sc =>
    if (s.screen i).drawsPrefix n ∧ n ≤ sc.speakerCount then sc.speakers.getD (n - 1) 0 else 0
  | _, _ => 0

/-- A slot of a SHOW of the entry carries a handle within the slot capacity, and `v` is its value (R125, step 1). -/
def State.slotHolds (s : State) (i : Screen16) (e : Entry) (v : Nat) : Prop :=
  ∃ (k : Fin 4) (g : Lang) (p : Tuple), k.val < capacityOf (s.link i).caps ∧
    ((s.screen i).staged.getD (s.screen i).layout)[k] = some g ∧ tupleFor e.tuples g = some p ∧
    v = p.chars + s.prefixFor i e

/-- `d` is the minimum dwell that a SHOW of the entry on screen `i` gives it (R125). -/
def State.dwellIs (s : State) (i : Screen16) (e : Entry) (d : Nat) : Prop :=
  (e.isNotice = true → d = 0) ∧
  (e.isNotice = false →
    (∀ o, e.dwellOverride = some o → d = min 8000000 (o * 100000)) ∧
    (e.dwellOverride = none → ∃ c, (∀ v, s.slotHolds i e v → v ≤ c) ∧
      (s.slotHolds i e c ∨ (c = 0 ∧ ∀ v, ¬s.slotHolds i e v)) ∧
      d = min 8000000 ((s.arb.dwellBase + c * s.arb.dwellPerChar) * e.dwellPercent / 100)))

/-- The frame of a message on link `i`, with its next tag (R146). -/
def State.nextFrame (s : State) (i : Screen16) (m : Message) : List Byte :=
  messageFrame m ((s.link i).tag + 1) (s.resolved i m) (capacityOf (s.link i).caps)

/-- The message has left on link `i`: its frame, and the link BUSY with its operation and its reply timer (R146,
R147). -/
def State.messageSent (s u : State) (i : Screen16) (m : Message) : Prop :=
  (i, s.nextFrame i m) ∈ u.sent ∧ (u.link i).state = .busy ∧ (u.link i).tag = (s.link i).tag + 1 ∧
    (u.link i).op = some {
      kind := if m.isShow then .showMsg else .clearMsg, tag := (s.link i).tag + 1, transition := s.resolved i m
      sendTime := u.clock, subject := m.subject.map fun p => (p.1, p.2.1) } ∧
    (u.link i).replyTimer = some (u.clock + 250000 + transitionTime (s.resolved i m) (s.link i).caps)

/-- The message is a SHOW of the entry at level `l` under a layout, with this override (R123, R124). -/
def Message.isShowOf (m : Message) (layout : Layout) (l : Level) (e : Entry) (override : TransOverride) : Prop :=
  m.isShow = true ∧ m.override = override ∧ m.subject = some (l, e.ident, e.serial) ∧
    m.slots = showSlots layout e.tuples ∧ m.speaker = (if e.isNotice then none else e.speaker)

/-- The message is a CLEAR with this override (R123). -/
def Message.isClear (m : Message) (override : TransOverride) : Prop :=
  m.isShow = false ∧ m.override = override ∧ m.subject = none

/-- The SHOW of the entry on screen `i` with this override: under the staged layout where there is one, and with the
prefix where it is drawn (R114, R124). -/
def State.showWith (s : State) (i : Screen16) (l : Level) (e : Entry) (override : TransOverride) (m : Message) : Prop :=
  m.isShowOf ((s.screen i).staged.getD (s.screen i).layout) l e override ∧
    (m.drawPrefix = true ↔ e.isNotice = false ∧ ∃ n, e.speaker = some n ∧ (s.screen i).drawsPrefix n)

/-- The SHOW of the entry on screen `i` with the entry's own override (R120, R123). -/
def State.showOf (s : State) (i : Screen16) (l : Level) (e : Entry) (m : Message) : Prop :=
  s.showWith i l e e.override m

/-- A SHOW of the entry at level `l` has left on screen `i`, whose link was READY, and the entry has its minimum
dwell (R120, R123, R125, R146). -/
def State.showSent (s u : State) (i : Screen16) (l : Level) (e : Entry) : Prop :=
  (u.screen i).stack[l] = some e ∧ e.visibleSince = some u.clock ∧ (u.screen i).onScreen = .entry l e.serial ∧
    (∃ m, s.showOf i l e m ∧ s.messageSent u i m) ∧ ∃ d, e.minDwell = some d ∧ s.dwellIs i e d

/-- A CLEAR with this override has left on screen `i`, whose link was READY (R123, R146). -/
def State.clearSent (s u : State) (i : Screen16) (override : TransOverride) : Prop :=
  (u.screen i).onScreen = .blank ∧ ∃ m : Message, m.isClear override ∧ s.messageSent u i m

/-- The entry is what a grant makes of the request (R118, R120). -/
def Entry.carries (x : Entry) (r : Request) : Prop :=
  x.isNotice = (r.kind == .notice) ∧ x.ident = r.ident ∧ x.tuples = r.tuples ∧ x.speaker = r.speaker ∧
    x.dwellPercent = r.dwellPercent ∧ x.dwellOverride = r.dwellOverride ∧ x.override = r.override ∧
    x.endTime = r.endTime

/-- No message has left on link `i`. -/
def State.linkStands (s u : State) (i : Screen16) : Prop := u.link i = s.link i ∧ u.sent = []

/-- Every screen and link is unchanged but those of `i` and, when `i` is the mirror source, of its monitor. -/
def State.othersStand (s u : State) (i : Screen16) : Prop :=
  ∀ j, j ≠ i → s.arb.mirror ≠ some (i, j) → u.screen j = s.screen j ∧ u.link j = s.link j

/-- The message sent on screen `i` was copied when `i` is the mirror source: the copy left on the monitor's
link, or was put into the hold where that link is not READY (R134). -/
def State.copied (s u : State) (i : Screen16) (m : Message) : Prop :=
  ∀ mon, s.arb.mirror = some (i, mon) →
    ((s.link mon).state = .ready → s.messageSent u mon m ∧ (u.screen mon).onScreen = (u.screen i).onScreen) ∧
    ((s.link mon).state ≠ .ready → u.link mon = s.link mon ∧ u.arb.hold = some m)

/-- One message of this kind has left on screen `i`, and nothing else but its copy (R134). -/
def State.sentAndCopied (s u : State) (i : Screen16) (kind : Message → Prop) : Prop :=
  ∃ m : Message, kind m ∧ s.copied u i m ∧
    (∀ mon, s.arb.mirror = some (i, mon) → (s.link mon).state = .ready →
      u.sent = [(i, s.nextFrame i m), (mon, s.nextFrame mon m)]) ∧
    ((∀ mon, s.arb.mirror = some (i, mon) → (s.link mon).state ≠ .ready) → u.sent = [(i, s.nextFrame i m)])

/-- The screen's visible top is what its on-screen record names (R119 step 4). -/
def Screen.agrees (x : Screen) : Prop :=
  (x.visibleTop = none ∧ x.onScreen = .blank) ∨ ∃ l e, x.visibleTop = some (l, e) ∧ x.onScreen = .entry l e.serial

/-- The frames that the last command sent on link `i`, in order. -/
def State.framesOn (u : State) (i : Screen16) : List (List Byte) := (u.sent.filter fun p => p.1 == i).map (·.2)

/-- Screen `i`, its link and its line are as they were. -/
def State.screenStands (s u : State) (i : Screen16) : Prop :=
  u.screen i = s.screen i ∧ u.link i = s.link i ∧ u.framesOn i = []

/-- The entries and the pending requests of some levels taken off a screen (R130). -/
def Screen.without (x : Screen) (levels : BitVec 8) : Screen :=
  { x with
    stack := Vector.ofFn fun l : Level => if levels.getLsbD l.val then none else x.stack[l]
    pendingAt := Vector.ofFn fun l : Level => if levels.getLsbD l.val then none else x.pendingAt[l] }

/-- The notices of a screen whose end has been reached taken off it, pending ones and entries (R128). -/
def Screen.noticesEnded (x : Screen) (now : Time) : Screen :=
  { x with
    stack := Vector.ofFn fun l : Level => x.stack[l].filter fun e => !e.endTime.any fun T => decide (T ≤ now)
    pendingAt := Vector.ofFn fun l : Level => x.pendingAt[l].filter fun r => !r.endTime.any fun T => decide (T ≤ now) }

/-- No pending request of the screen is eligible: each is released later, or its level is masked (R117). -/
def Screen.nothingReleased (x : Screen) (now : Time) : Prop :=
  ∀ (l : Level) (r : Request), x.pendingAt[l] = some r → now < r.release ∨ x.masked r.level = true

/-- The message is the one thing sent on screen `i`, and its copy the one thing sent on the monitor, when `i` is the mirror
source and the monitor's link READY (R134). -/
def State.onlySent (s u : State) (i : Screen16) (m : Message) : Prop :=
  s.copied u i m ∧ u.framesOn i = [s.nextFrame i m] ∧
    ∀ mon, s.arb.mirror = some (i, mon) →
      u.framesOn mon = if (s.link mon).state = .ready then [s.nextFrame mon m] else []

/-- Screen `i`, no monitor, has been evaluated with nothing to judge, `x` being what it holds: no desk BLANK is carried
out, no request is eligible and no notice end has been reached. Then nothing changes but by the refresh (R119, R123). Where
the visible top agrees with the on-screen record, that is UNKNOWN, or the link is not READY, nothing leaves, and the
screen but for its timers, its link and its monitor stay as they are. Else a SHOW of the visible top leaves, or CLEAR with
DEFAULT when there is none, and nothing but that and its copy (R134). -/
def State.evaluatedQuietly (s u : State) (i : Screen16) (x : Screen) : Prop :=
  x.blankPending = false ∨ (s.link i).state ≠ .ready → x.nothingReleased u.clock →
  (∀ (l : Level) (T : Time), x.stack[l].bind (·.endTime) = some T ∨ x.pendingAt[l].bind (·.endTime) = some T →
    u.clock < T) →
  (u.screen i).pendingAt = x.pendingAt ∧
  ((s.link i).state ≠ .ready ∨ x.onScreen = .unknown ∨ x.agrees →
    u.screen i = { x with
      releaseTimer := (u.screen i).releaseTimer, dwellTimer := (u.screen i).dwellTimer
      noticeTimer := (u.screen i).noticeTimer } ∧
    u.link i = s.link i ∧ u.framesOn i = [] ∧
    ∀ mon, s.arb.mirror = some (i, mon) → u.link mon = s.link mon ∧ u.framesOn mon = [] ∧ u.arb.hold = s.arb.hold) ∧
  ((s.link i).state = .ready → x.onScreen ≠ .unknown →
    (∀ l e, x.visibleTop = some (l, e) → x.onScreen ≠ .entry l e.serial →
      ∃ (y : Entry) (m : Message), s.showSent u i l y ∧
        y = { e with minDwell := y.minDwell, visibleSince := some u.clock } ∧
        (∀ k : Level, k ≠ l → (u.screen i).stack[k] = x.stack[k]) ∧ x.counted (u.screen i) .shown 1 ∧
        s.showOf i l y m ∧ s.onlySent u i m) ∧
    (x.visibleTop = none → x.onScreen ≠ .blank →
      s.clearSent u i .default ∧ (u.screen i).stack = x.stack ∧
      ∃ m : Message, m.isClear .default ∧ s.onlySent u i m))

/-- A link has become READY from BUSY, and nothing has left on it (R148, R149). -/
def State.wentReady (s u : State) (i : Screen16) : Prop :=
  u.link i = { s.link i with state := .ready, op := none, replyTimer := none } ∧ u.sent = []

/-- A held PAUSE was tested for quiet as a link left BUSY (R172). -/
def State.quietTested (s u : State) : Prop :=
  (s.ctl.heldPause = none → u.ctl = s.ctl) ∧
  ∀ p, s.ctl.heldPause = some p →
    ((∀ j, (u.link j).state ≠ .busy) → u.ctl = { s.ctl with engine := .paused, heldPause := none } ∧
      s.handedBack u p .ok []) ∧
    ((∃ j, (u.link j).state = .busy) → u.ctl = s.ctl ∧ u.smi.outcomes = s.smi.outcomes)

/-- The message is a SHOW of the screen's visible top under its layout in force, or a CLEAR when it has none, with
this override (R123, R124, R133). -/
def Message.isDisplayOf (m : Message) (x : Screen) (override : TransOverride) : Prop :=
  (x.visibleTop = none → m.isClear override) ∧
  ∀ l e, x.visibleTop = some (l, e) → m.isShowOf x.layout l e override

/-- The request stands at its level of screen `i` and waits. -/
def State.waitsAt (u : State) (i : Screen16) (r : Request) : Prop := (u.screen i).pendingAt[r.level] = some r

/-- Request `r` stands at its level `l` of screen `i` and no other request anywhere on it, released and unmasked, with no
desk BLANK, and neither it nor an entry has an end time: an evaluation judges this request alone (R117, R119). -/
def State.oneRequest (s : State) (i : Screen16) (l : Level) (r : Request) (now : Time) : Prop :=
  s.isMonitor i = false ∧ (s.screen i).blankPending = false ∧ (s.screen i).masked l = false ∧
    (s.screen i).pendingAt[l] = some r ∧ r.level = l ∧ r.release ≤ now ∧ r.endTime = none ∧ r.operator = false ∧
    (∀ m : Level, m ≠ l → (s.screen i).pendingAt[m] = none) ∧
    ∀ (m : Level) (y : Entry), (s.screen i).stack[m] = some y → y.endTime = none

/-- Screen `i` has been evaluated with the one request `r` to judge (R120 to R122). `ready`: its link is READY as it is
evaluated. `stands`: nothing has left on it.
- A TITLE or NOTICE is shown over nothing and over a lower visible top, which is buried, on a READY link, and waits else.
  Below the visible top, and in place of one that is not shown, it is granted silently. At the level of the shown top it
  waits for the dwell and is DEFERRED once.
- A BLANK finds nothing, removes an entry that is not shown silently, or takes the shown top down once the dwell has
  passed, and CLEAR leaves with its own override. -/
def State.requestJudged (s u : State) (i : Screen16) (l : Level) (r : Request) (ready stands : Prop) : Prop :=
  (r.kind ≠ .blank → (∀ m y, (s.screen i).visibleTop = some (m, y) → l < m) → ¬ready →
    u.waitsAt i r ∧ (u.screen i).stack = (s.screen i).stack ∧ stands) ∧
  (r.kind ≠ .blank → (s.screen i).visibleTop = none → ready →
    (∃ x, s.showSent u i l x ∧ x.carries r ∧ s.sentAndCopied u i (s.showOf i l x)) ∧ (u.screen i).pendingAt[l] = none ∧
    (s.screen i).counted (u.screen i) .shown 1) ∧
  (∀ m y, r.kind ≠ .blank → (s.screen i).visibleTop = some (m, y) → l < m → ready →
    (∃ x, s.showSent u i l x ∧ x.carries r ∧ s.sentAndCopied u i (s.showOf i l x)) ∧
    (u.screen i).stack[m] = some { y with visibleSince := none } ∧ (u.screen i).pendingAt[l] = none ∧
    (s.screen i).counted (u.screen i) .preempted 1 ∧ (s.screen i).counted (u.screen i) .shown 1) ∧
  (∀ m y, r.kind ≠ .blank → (s.screen i).visibleTop = some (m, y) →
    (m < l ∧ (s.screen i).onScreen = .entry m y.serial) ∨ (m = l ∧ y.visibleSince = none ∧ ¬ready) →
    (u.screen i).pendingAt[l] = none ∧ stands ∧
    (∃ x, (u.screen i).stack[l] = some x ∧ x.carries r ∧ x.visibleSince = none) ∧
    ∀ k : Level, k ≠ l → (u.screen i).stack[k] = (s.screen i).stack[k]) ∧
  (∀ y v, (s.screen i).visibleTop = some (l, y) → y.visibleSince = some v → u.clock < v + y.minDwell.getD 0 → ready →
    (s.screen i).onScreen = .entry l y.serial →
    u.waitsAt i { r with deferred := true } ∧ (u.screen i).stack = (s.screen i).stack ∧ stands ∧
    (u.screen i).dwellTimer = some (v + y.minDwell.getD 0) ∧
    (s.screen i).counted (u.screen i) .deferred (if r.deferred then 0 else 1)) ∧
  (∀ y v, r.kind ≠ .blank → (s.screen i).visibleTop = some (l, y) → y.visibleSince = some v →
    v + y.minDwell.getD 0 ≤ u.clock → ready → (u.screen i).pendingAt[l] = none ∧
    ∃ x, s.showSent u i l x ∧ x.carries r ∧ s.sentAndCopied u i (s.showOf i l x)) ∧
  (r.kind = .blank → (s.screen i).stack[l] = none → (s.screen i).agrees → (u.screen i).pendingAt[l] = none ∧
    (u.screen i).stack = (s.screen i).stack ∧ stands) ∧
  (r.kind = .blank → (s.screen i).isShownTop l = false → (u.screen i).pendingAt[l] = none ∧
    (u.screen i).stack[l] = none) ∧
  ∀ y v, r.kind = .blank → (s.screen i).visibleTop = some (l, y) → y.visibleSince = some v →
    v + y.minDwell.getD 0 ≤ u.clock → ready → (s.screen i).onScreen = .entry l y.serial →
    (∀ m : Level, m ≠ l → (s.screen i).stack[m] = none) →
    (u.screen i).pendingAt[l] = none ∧ (u.screen i).stack[l] = none ∧ s.clearSent u i r.override ∧
    s.sentAndCopied u i (fun m => m.isClear r.override)

/-- The refresh that ends an evaluation of screen `i`, `x` being the screen as step 3 leaves it (R119 step 4, R123):
nothing leaves, and the visible top stays as it is, on a link that is not READY, while the on-screen record is UNKNOWN,
and where the visible top agrees with it; else a SHOW of the visible top leaves, or CLEAR when there is none. -/
def State.refreshed (s u : State) (i : Screen16) (x : Screen) : Prop :=
  ((s.link i).state ≠ .ready ∨ x.onScreen = .unknown ∨ x.agrees →
    s.linkStands u i ∧ ∀ l e, x.visibleTop = some (l, e) → (u.screen i).stack[l] = some e) ∧
  ((s.link i).state = .ready → x.onScreen ≠ .unknown →
    (∀ l e, x.visibleTop = some (l, e) → x.onScreen ≠ .entry l e.serial →
      ∃ y, s.showSent u i l y ∧ y.serial = e.serial ∧ s.sentAndCopied u i (s.showOf i l y)) ∧
    (x.visibleTop = none → x.onScreen ≠ .blank →
      s.clearSent u i .default ∧ s.sentAndCopied u i (fun m => m.isClear .default)))

/-- SET MASK has given screen `i` its new mask (R115, R126). Afterwards no entry but the visible top has a visible-since.
While no desk BLANK waits and no notice has an end: with nothing pending the screen is refreshed by the new mask. A
request that is the only one, released and unmasked, at a level whose entry is not shown, is taken before that: a BLANK
removes the entry, and the screen is refreshed as if it had never been unmasked; a TITLE or NOTICE at the visible top
takes the entry's place, and the one SHOW is that of the request. -/
def State.maskSettled (s u : State) (i : Screen16) : Prop :=
  let x := { s.screen i with mask := (u.screen i).mask }
  (∀ (l : Level) (y : Entry) (v : Time), (u.screen i).stack[l] = some y → y.visibleSince = some v →
    (u.screen i).visibleTop = some (l, y)) ∧
  (x.blankPending = false → (∀ (l : Level) (y : Entry), x.stack[l] = some y → y.endTime = none) →
    ((∀ l : Level, x.pendingAt[l] = none) → s.refreshed u i x) ∧
    ∀ (p : Level) (r : Request) (y : Entry), x.pendingAt[p] = some r → r.level = p → r.release ≤ u.clock →
      r.endTime = none → x.masked p = false → (∀ m : Level, m ≠ p → x.pendingAt[m] = none) → x.stack[p] = some y →
      y.visibleSince = none →
      (u.screen i).pendingAt[p] = none ∧
      (r.kind = .blank → (u.screen i).stack[p] = none ∧ s.refreshed u i (x.setEntry p none)) ∧
      (r.kind ≠ .blank → x.visibleTop = some (p, y) →
        ((s.link i).state ≠ .ready → s.linkStands u i ∧
          ∃ e, (u.screen i).stack[p] = some e ∧ e.carries r ∧ e.visibleSince = none) ∧
        ((s.link i).state = .ready → x.onScreen ≠ .unknown → x.onScreen ≠ .entry p s.arb.entrySerial →
          ∃ e, s.showSent u i p e ∧ e.carries r ∧ s.sentAndCopied u i (s.showOf i p e))))

/-- A desk BLANK finds a title to take down on screen `i`: its link is READY or BUSY and its visible top is at level 1 or
above (R129). -/
def State.takesPress (s : State) (i : Screen16) : Prop :=
  ((s.link i).state = .ready ∨ (s.link i).state = .busy) ∧ ∃ l e, (s.screen i).visibleTop = some (l, e) ∧ l ≠ 0

/-- The BLANK-pending flag of screen `i` has been acted on, its link being READY (R129, R119, R123). While no notice end
has been reached: a visible top at level 1 or above is removed whatever its dwell, and any other screen keeps its stack.
With no request released the entry beneath is shown, or CLEAR leaves with DEFAULT when there is none, and the pending
requests stay. A request that is the only one, released and unmasked, at a level above all that is left is shown in its
place. -/
def State.blankCarriedOut (s u : State) (i : Screen16) : Prop :=
  (u.screen i).blankPending = false ∧
  ((∀ (l : Level) (y : Entry) (T : Time), (s.screen i).stack[l] = some y → y.endTime = some T → u.clock < T) →
    ((∀ (l : Level) (r : Request), (s.screen i).pendingAt[l] = some r → r.level = l ∧ u.clock < r.release ∧
        ∀ T, r.endTime = some T → u.clock < T) →
      (u.screen i).pendingAt = (s.screen i).pendingAt ∧
      (∀ l e, (s.screen i).visibleTop = some (l, e) → l ≠ 0 → (s.screen i).onScreen ≠ .unknown →
        (u.screen i).stack[l] = none ∧
        (((s.screen i).setEntry l none).visibleTop = none → (s.screen i).onScreen ≠ .blank →
          s.clearSent u i .default ∧ ∃ c : Message, c.isClear .default ∧ s.copied u i c) ∧
        ∀ m y, ((s.screen i).setEntry l none).visibleTop = some (m, y) → (s.screen i).onScreen ≠ .entry m y.serial →
          ∃ x c, s.showSent u i m x ∧ x.serial = y.serial ∧ s.showOf i m x c ∧ s.copied u i c) ∧
      ((∀ l e, (s.screen i).visibleTop = some (l, e) → l = 0) → (s.screen i).agrees →
        (u.screen i).stack = (s.screen i).stack ∧ u.sent = [])) ∧
    ∀ (l p : Level) (e : Entry) (r : Request), (s.screen i).visibleTop = some (l, e) → l ≠ 0 →
      (s.screen i).pendingAt[p] = some r → r.level = p → r.kind ≠ .blank → r.release ≤ u.clock → r.endTime = none →
      (s.screen i).masked p = false → (∀ m : Level, m ≠ p → (s.screen i).pendingAt[m] = none) →
      (∀ m y, ((s.screen i).setEntry l none).visibleTop = some (m, y) → p < m) →
      (u.screen i).pendingAt[p] = none ∧ (p ≠ l → (u.screen i).stack[l] = none) ∧
        ∃ x c, s.showSent u i p x ∧ x.carries r ∧ s.showOf i p x c ∧ s.copied u i c)

/-- The tuples of a history entry whose languages the screen's layout in force names (R70). -/
def Screen.backTuples (x : Screen) (q : HistoryEntry) : List Tuple :=
  q.tuples.filter fun p => decide (∃ k : Fin 4, x.layout[k] = some p.lang)

/-- The request that BACK places at screen `i` for a history entry (R70, step 2). -/
def State.backRequestOf (s : State) (now : Time) (i : Screen16) (q : HistoryEntry) : Request :=
  { level := q.level, kind := .title, ident := .cue q.cue q.number, tuples := (s.screen i).backTuples q
    speaker := q.speaker, dwellPercent := q.dwellPercent, dwellOverride := q.dwellOverride, override := q.override
    release := now, operator := true, endTime := none, deferred := false }

/-- A released operator request stands alone at screen `i`, whose stack holds no notice with an end. It waits for the
link alone: over the shown top of its level or over lower ones it is shown on a READY link, and waits on another; under
a higher level it is granted silently (R120, R121). -/
def State.backPlaced (s u : State) (i : Screen16) (r : Request) : Prop :=
  (s.screen i).blankPending = false → (s.screen i).masked r.level = false →
  (∀ m : Level, m ≠ r.level → (s.screen i).pendingAt[m] = none) →
  (∀ (m : Level) (y : Entry), (s.screen i).stack[m] = some y → y.endTime = none) →
  ((∀ m y, (s.screen i).visibleTop = some (m, y) → r.level < m ∨ (m = r.level ∧ y.visibleSince ≠ none)) →
    ((s.link i).state = .ready → (u.screen i).pendingAt[r.level] = none ∧
      ∃ x, s.showSent u i r.level x ∧ x.carries r) ∧
    ((s.link i).state ≠ .ready → u.waitsAt i r ∧ (u.screen i).stack = (s.screen i).stack ∧ u.link i = s.link i)) ∧
  ∀ m y, (s.screen i).visibleTop = some (m, y) → m < r.level → (u.screen i).pendingAt[r.level] = none ∧
    ∃ x, (u.screen i).stack[r.level] = some x ∧ x.carries r ∧ x.visibleSince = none

/-- The tuples of a fired TITLE entry for a screen: each language of its mask that the layout in force names and whose
key is PRESENT, ascending (R90). -/
def Screen.titleTuples (x : Screen) (e : Armed) : List Tuple :=
  (layoutLangs x.layout).filterMap fun g => if e.copy.langs.getLsbD g.val then presentTuple e.keys g else none

/-- The screens that a fire of `e` places a request at: those of its scope that are no monitor and, for a TITLE, have a
tuple (R90, R92). -/
def State.firedScreens (s : State) (e : Armed) : BitVec 16 :=
  maskOf (allScreens.filter fun i => e.copy.scope.getLsbD i.val && !s.isMonitor i &&
    (e.copy.action == .blank || !((s.screen i).titleTuples e).isEmpty))

/-- The request that R90 and R92 describe, for the armed entry `e` at screen `i`. -/
def State.firedRequest (s : State) (e : Armed) (i : Screen16) (ts : List Tuple) : Request :=
  let isTitle := e.copy.action == .title
  { level := e.copy.level, kind := if isTitle then .title else .blank, ident := .cue e.cue e.copy.number, tuples := ts,
    speaker := if isTitle && e.copy.speaker != 0 then some e.copy.speaker else none
    dwellPercent := e.dwellPercent
    dwellOverride := if isTitle && e.copy.dwellOverride != 0 then some e.copy.dwellOverride else none
    override := e.copy.override, release := e.appear.getD 0 - s.leadOf e.copy i, operator := false
    endTime := none, deferred := false }

/-- A TITLE request of a fire has reached screen `i`: it waits for its release time, or for a dark link with nothing
visible; released on a READY link, alone on the screen and unmasked, it is shown at once (R117, R120). -/
def State.firedPlaced (s u : State) (i : Screen16) (r : Request) : Prop :=
  (u.clock < r.release ∨ ((s.link i).state ≠ .ready ∧ (s.screen i).visibleTop = none) → u.waitsAt i r) ∧
  (r.release ≤ u.clock → (s.link i).state = .ready → (s.screen i).masked r.level = false →
    (∀ m : Level, (s.screen i).stack[m] = none ∧ (s.screen i).pendingAt[m] = none) →
    (u.screen i).pendingAt[r.level] = none ∧
      ∃ x, s.showSent u i r.level x ∧ x.carries r)

/-- No TITLE or BLANK request is pending at levels 2..7 of any screen (R131). -/
def State.noCueRequests (u : State) : Prop :=
  ∀ (i : Screen16) (l : Level) (r : Request), 2 ≤ l.val → (u.screen i).pendingAt[l] = some r → r.kind = .notice

/-- The levels 2..7 at which a TITLE request is pending, ascending. -/
def Screen.pendingTitles (x : Screen) : List Level :=
  allLevels.filter fun l => decide (2 ≤ l.val) && x.pendingAt[l].any fun r => r.kind == .title

/-- STOP or LOCATE at time `now` has taken every cue request and TITLE entry off levels 2..7, counting none as
SKIPPED, and has left the notices that have not ended (R131). -/
def State.cuesDropped (s u : State) (now : Time) : Prop :=
  u.noCueRequests ∧
  (∀ (i : Screen16) (l : Level) (e : Entry), 2 ≤ l.val → (u.screen i).stack[l] = some e → e.isNotice = true) ∧
  (∀ i, (s.screen i).counted (u.screen i) .skipped 0) ∧
  ∀ (i : Screen16) (l : Level) (e : Entry), (s.screen i).stack[l] = some e → e.isNotice = true →
    (∀ T, e.endTime = some T → now < T) → (s.screen i).blankPending = false → (s.screen i).pendingAt[l] = none →
    ∃ x, (u.screen i).stack[l] = some x ∧ x.serial = e.serial

/-! ### Notices (R176) -/

/-- What a NOTICE is answered for a key it requests: at once what an ended fetch has left in the cache; PENDING while a
fetch runs or a way can be taken for one; FAULTED where the key would have to wait for a way (R102, R103, R176). -/
def State.noticeAnswer (s : State) (k : Key) : KeyResult :=
  if s.keyWaits k then .faulted else
  match (s.cacheSet (setOf k)).find k with
  | some w => match (s.way (setOf k) w).entry with
    | some { state := .valid h c, .. } => .present h c
    | some { state := .absent, .. } => .absent
    | _ => .pending
  | none => if (s.cacheSet (setOf k)).choose.isSome then .pending else .faulted

/-- The tuples of a notice for a layout: the languages it names whose key was answered PRESENT, ascending (R176). -/
def noticeTuples (ans : List (Key × KeyResult)) (l : Layout) : List Tuple :=
  (layoutLangs l).filterMap fun g => match ans.find? fun p => p.1.lang == g with
    | some (_, .present h c) => some { lang := g, handle := h, chars := c }
    | _ => none

/-- The NOTICE request that R176 and R128 describe. -/
def noticeRequestOf (n : NoticeParams) (ts : List Tuple) (now : Time) : Request :=
  { level := n.level, kind := .notice, ident := .notice n.title, tuples := ts, speaker := none, dwellPercent := 100,
    dwellOverride := none, override := .default, release := now, operator := false,
    endTime := if n.duration = 0 then none else some (now + n.duration * 1000000), deferred := false }

/-- A notice has been placed at screen `i`: it waits where the link is not READY and nothing is visible; on a READY
link, with nothing else on the screen and its level unmasked, it is shown at once (R120, R128, R176). -/
def State.noticePlaced (s u : State) (i : Screen16) (r : Request) : Prop :=
  ((s.link i).state ≠ .ready → (s.screen i).visibleTop = none → u.waitsAt i r ∧ u.link i = s.link i) ∧
  ((s.link i).state = .ready → (s.screen i).masked r.level = false →
    (∀ m : Level, (s.screen i).stack[m] = none ∧ (s.screen i).pendingAt[m] = none) →
    (u.screen i).pendingAt[r.level] = none ∧ ∃ e, s.showSent u i r.level e ∧ e.carries r)

/-- A NOTICE has ended with these answers for its keys: each of its screens with a tuple has a request, the outcome is OK
when every screen named has one tuple for each language of its layout, else PARTIAL, with the mask of the screens placed
and the mask of the languages not PRESENT (R176). -/
def State.noticeEnded (s u : State) (now : Time) (slot : Slot) (n : NoticeParams) (ans : List (Key × KeyResult)) :
    Prop :=
  let tuples := fun i : Screen16 => noticeTuples ans (s.screen i).layout
  u.ctl.progress = none ∧
  s.handedBack u slot
    (if ∀ i : Screen16, n.screens.getLsbD i.val = true → tuples i ≠ [] ∧
        (tuples i).length = (layoutLangs (s.screen i).layout).length then .ok else .partialDone)
    [(maskOf (allScreens.filter fun i => n.screens.getLsbD i.val && !(tuples i).isEmpty)).toNat,
     (ans.map fun p => match p.2 with | .present _ _ => 0 | _ => 2 ^ p.1.lang.val).sum] ∧
  ∀ i : Screen16, s.isMonitor i = false →
    (n.screens.getLsbD i.val = true → tuples i ≠ [] → s.noticePlaced u i (noticeRequestOf n (tuples i) now)) ∧
    (n.screens.getLsbD i.val = false ∨ tuples i = [] → u.screen i = s.screen i ∧ u.link i = s.link i)

/-! ### The status snapshot (R193; 11_record_formats.md "The control block") -/

/-- The writes of a snapshot in their order: header, counters, per-screen status, in accesses of 32 bytes. -/
def snapshotWrites (header counters screens : List Byte) : List (Nat × List Byte) :=
  ((List.range 8).map fun k => (4 + 32 * k, slice header (32 * k) 32)) ++
  ((List.range 6).map fun k => (2048 + 32 * k, slice counters (32 * k) 32)) ++
  (List.range 8).map fun k => (2304 + 32 * k, slice screens (32 * k) 32)

/-- Byte `o` of the control block begins a field of `n` bytes that holds `v`; `h` starts at byte 4. -/
def holdsAt (h : List Byte) (o n v : Nat) : Prop := slice h (o - 4) n = le n v

/-- Show Control and the Beat Tracker in the header (R179, R51). -/
def State.controlFields (s : State) (h : List Byte) : Prop :=
  let c := s.ctl
  let k := s.trk
  holdsAt h 8 1 c.engine.code ∧ holdsAt h 9 1 ((c.progress.map (·.kind)).getD 0) ∧
  holdsAt h 10 1 ((c.progress.map (·.slot.val)).getD 255) ∧ holdsAt h 11 1 ((c.heldPause.map (·.val)).getD 255) ∧
  holdsAt h 12 1 (c.arming.version.getD 255) ∧ holdsAt h 13 1 c.arming.smoothing ∧
  holdsAt h 14 1 c.arming.lookAhead ∧ holdsAt h 15 1 c.arming.weight.code ∧
  holdsAt h 16 2 (c.arming.start.getD 65535) ∧ holdsAt h 18 4 c.arming.lateTolerance ∧ holdsAt h 22 2 0 ∧
  holdsAt h 24 1 k.state.code ∧ holdsAt h 25 1 k.confidence.code ∧ holdsAt h 26 1 k.synthetic ∧
  holdsAt h 27 1 (bit k.lockout.isSome) ∧ holdsAt h 28 1 k.absorb ∧ holdsAt h 29 3 0 ∧ holdsAt h 32 4 k.beat ∧
  holdsAt h 36 4 k.period ∧ holdsAt h 40 8 k.tLast ∧ holdsAt h 48 8 (k.lockout.getD 0)

/-- The Score Walker and the Cue Scheduler in the header (R73, R94). -/
def State.showFields (s : State) (h : List Byte) : Prop :=
  let w := s.wlk
  let c := s.sch
  let first := c.armed.head?
  holdsAt h 56 2 w.inForce.code ∧ holdsAt h 58 2 ((w.position.map (·.sec)).getD 65535) ∧
  holdsAt h 60 2 ((w.position.map (·.bar)).getD 0) ∧ holdsAt h 62 1 ((w.position.map (·.beat)).getD 0) ∧
  holdsAt h 63 1 w.pass ∧ holdsAt h 64 1 (bit w.exitFlag) ∧ holdsAt h 65 1 ((w.cursor.map (·.pass)).getD 0) ∧
  holdsAt h 66 2 ((w.cursor.map (·.sec)).getD 65535) ∧ holdsAt h 68 2 ((w.cursor.map (·.cue)).getD 65535) ∧
  holdsAt h 70 2 (w.fireCursor.getD 65535) ∧ holdsAt h 72 1 w.calledOffers ∧
  holdsAt h 73 1 (bit w.owedGo.isSome) ∧ holdsAt h 74 1 w.history.length ∧ holdsAt h 75 1 0 ∧
  holdsAt h 76 2 ((w.history.head?.map (·.number)).getD 0) ∧ slice h 74 4 = leInt 4 w.origin ∧
  slice h 78 4 = leInt 4 (w.waiting.getD 2147483647) ∧ holdsAt h 86 2 0 ∧ holdsAt h 88 1 c.armed.length ∧
  holdsAt h 89 1 (c.armed.countP fun e => e.timing == .due) ∧ holdsAt h 90 1 (bit c.freeze) ∧
  holdsAt h 91 1 ((first.map (·.timing.code)).getD 0) ∧ holdsAt h 92 1 ((first.map (·.pass)).getD 0) ∧
  holdsAt h 93 1 (bit (first.any (·.fire.isSome))) ∧ holdsAt h 94 2 ((first.map (·.copy.number)).getD 0) ∧
  holdsAt h 96 4 c.lateTolerance ∧ holdsAt h 100 8 ((first.bind (·.fire)).getD 0) ∧ holdsAt h 108 4 0

/-- The Descriptor Unit, the Desk Port and the interface in the header (R112, R163, R193). -/
def State.portFields (s : State) (h : List Byte) : Prop :=
  let es := s.du.entries
  let oldest := s.du.queue.head?
  let d := s.desk
  let m := s.smi
  holdsAt h 112 1 (es.countP fun e => e.state.isFetching) ∧
  holdsAt h 113 1 (es.countP fun e => !e.state.isFetching && e.state != .absent) ∧
  holdsAt h 114 1 (es.countP fun e => e.state == .absent) ∧
  holdsAt h 115 1 (es.countP fun e => decide (0 < e.pins)) ∧ holdsAt h 116 2 s.du.queue.length ∧
  holdsAt h 118 2 ((oldest.map (·.key.title)).getD 0) ∧ holdsAt h 120 1 ((oldest.map (·.key.lang.val)).getD 255) ∧
  holdsAt h 121 1 0 ∧ holdsAt h 122 4 ((oldest.map fun i => s.clock - i.joined).getD 0) ∧
  holdsAt h 126 4 s.du.hits ∧ holdsAt h 130 4 s.du.misses ∧ holdsAt h 134 2 0 ∧
  holdsAt h 136 1 (bitsOf (d.lines.toList.map (·.level))) ∧
  holdsAt h 137 1 (bit d.freezeLevel + 2 * bit d.freezeWindow.isSome +
    4 * bitsOf (d.lines.toList.map (·.lastEdge.isSome))) ∧
  holdsAt h 138 4 (d.freezeWindow.getD 0) ∧
  (∀ i : Fin 6, holdsAt h (142 + 4 * i.val) 4 (d.lines[i].lastEdge.getD 0) ∧
    holdsAt h (166 + 12 * i.val) 4 d.lines[i].accepted ∧ holdsAt h (170 + 12 * i.val) 4 d.lines[i].debounced ∧
    holdsAt h (174 + 12 * i.val) 4 d.lines[i].ignored) ∧
  holdsAt h 238 1 m.port.weight.code ∧ holdsAt h 239 1 m.port.counter ∧
  holdsAt h 240 1 (min 255 m.port.urgent.length) ∧ holdsAt h 241 1 (min 255 m.port.background.length) ∧
  holdsAt h 242 1 (m.outcomes.countP fun o => !o.writing) ∧ holdsAt h 243 1 (bit m.sweepPending) ∧
  holdsAt h 244 1 m.rotation.val ∧ holdsAt h 245 1 m.journalQueue.length ∧ holdsAt h 246 4 m.journalLost ∧
  holdsAt h 250 2 0

/-- The 16 bytes of one screen (R138, R154). -/
def State.screenFields (s : State) (i : Screen16) (p : List Byte) : Prop :=
  let x := s.screen i
  let k := s.link i
  let top := x.visibleTop
  let role := if s.arb.mirror.any (·.1 == i) then 1 else if s.arb.mirror.any (·.2 == i) then 2 else 0
  let at_ (o n v : Nat) := slice p (16 * i.val + o) n = le n v
  at_ 0 1 ((top.map (·.1.val)).getD 8 + 16 * bit x.shownTop.isSome + 32 * bit x.blankPending +
    64 * bit x.staged.isSome + 128 * bit (top.any (·.2.isNotice))) ∧
  at_ 1 1 ((match x.onScreen with | .unknown => 9 | .blank => 8 | .entry l _ => l.val) + 16 * role +
    64 * (k.op.map (·.kind.code)).getD 0) ∧
  at_ 2 1 (bitsOf (allLevels.map fun l => x.stack[l].isSome)) ∧
  at_ 3 1 (bitsOf (allLevels.map fun l => x.pendingAt[l].isSome)) ∧ at_ 4 1 x.mask.toNat ∧
  at_ 5 1 (k.state.code + (k.caps.map fun c =>
    8 + 16 * bit c.fade + 32 * bit c.overlap + 64 * ((c.capacity - 1) % 4)).getD 0) ∧
  at_ 6 1 k.tag.toNat ∧ at_ 7 1 (min 255 k.hellos) ∧ at_ 8 2 ((k.caps.map (·.fadeTime)).getD 0) ∧
  at_ 10 2 ((top.map (·.2.ident.number)).getD 0) ∧
  at_ 12 1 ((x.shownTop.map fun q => (q.2.visibleSince.getD 0 + q.2.minDwell.getD 0 - s.clock + 99999) / 100000).getD
    255) ∧
  at_ 13 1 ((k.replyTimer.map fun e => (e - s.clock + 99999) / 100000).getD 255) ∧
  at_ 14 1 ((k.op.map fun o => min 254 ((s.clock - o.sendTime + 99999) / 100000)).getD 255) ∧
  at_ 15 1 (min 255 k.ignored)

/-- The snapshot of a state under a refresh tag: header from byte 4, counters, per-screen status. -/
def State.snapshotIs (s : State) (tag : Nat) (h c p : List Byte) : Prop :=
  h.length = 252 ∧ c.length = 192 ∧ p.length = 256 ∧ holdsAt h 4 4 tag ∧ s.controlFields h ∧ s.showFields h ∧
  s.portFields h ∧ holdsAt h 252 4 tag ∧
  (∀ (i : Screen16) (j : Fin 3), slice c (12 * i.val + 4 * j.val) 4 = le 4 (s.screen i).counters[j]) ∧
  ∀ i, s.screenFields i p

/-! ### The checks of a script (R16 to R22) -/

/-- The records of a table are taken one after another, each by its own checks; the section checks close with the sums
of R19, and a speaker or cue index counts the records of its table (R16, R19 to R22). -/
def recordsTakenInTurn : Prop :=
  ∀ (base n i : Nat) (d : List Byte) (w : LoadWork),
    w.takeRecords base 0 i d = .ok w ∧
    (w.table = .sec → w.takeRecords base (n + 1) i d = match checkSection w.sections (d.take 16) with
      | some c => .error ⟨.sec, w.sections.length, c⟩
      | none =>
        let secs := w.sections ++ [parseSection (d.take 16)]
        if secs.length = w.header.sectionCount ∧
            ¬((secs.map (·.barCount)).sum = w.header.barCount ∧ (secs.map (·.cueCount)).sum = w.header.cueCount)
        then .error ⟨.sec, w.sections.length, .coverage⟩
        else LoadWork.takeRecords base n (i + 1) (d.drop 16) { w with sections := secs }) ∧
    (w.table = .bar → w.takeRecords base (n + 1) i d = match checkBar (d.take 4) with
      | some c => .error ⟨.bar, w.bars.length, c⟩
      | none => LoadWork.takeRecords base n (i + 1) (d.drop 4) { w with bars := w.bars ++ [parseBar (d.take 4)] }) ∧
    (w.table = .speaker → w.takeRecords base (n + 1) i d =
      if 24 < u8 (d.take 1) 0 then .error ⟨.speaker, w.speakers.length, .range⟩
      else LoadWork.takeRecords base n (i + 1) (d.drop 1) { w with speakers := w.speakers ++ [u8 (d.take 1) 0] }) ∧
    (w.table = .cue → w.takeRecords base (n + 1) i d =
      match checkCue w.sections w.bars w.header.speakerCount i (d.take 32) with
      | some c => .error ⟨.cue, i, c⟩
      | none => match parseAnchor (d.take 32) with
        | .position bar beat tick =>
          let f := ((ownerOf w.sections i).map (·.firstCue)).getD 0
          if w.orderOk f (bar, beat, tick)
          then LoadWork.takeRecords base n (i + 1) (d.drop 32) { w with lastPosition := some (f, bar, beat, tick) }
          else .error ⟨.cue, i, .order⟩
        | _ => LoadWork.takeRecords base n (i + 1) (d.drop 32) w)

/-- The header checks (R17). -/
def headerChecked : Prop :=
  ∀ d : List Byte, checkHeader d =
    if ¬(u8 d 0 = 87 ∧ u8 d 1 = 52 ∧ u8 d 2 = 49 ∧ u8 d 3 = 54) then some .signature
    else if ¬(1 ≤ u16 d 4 ∧ u16 d 4 ≤ 256 ∧ 1 ≤ u16 d 8 ∧ u16 d 8 ≤ 8192 ∧ 1 ≤ u16 d 10 ∧ u16 d 10 ≤ 4096 ∧
      u8 d 6 ≤ 64) then some .count
    else if ¬(6 ≤ u8 d 7 ∧ u8 d 7 ≤ 16 ∧ u32 d 32 ≤ 3000000 ∧ u32 d 36 ≤ 200000) then some .range
    else none

/-- The region lies aligned within show memory; a region of length 0 is not checked (R18). -/
def Region.fits (r : Region) : Prop := r.length = 0 ∨ (r.start % r.align = 0 ∧ r.start + r.length ≤ 16777216)

/-- The two regions have a byte in common (R18). -/
def Region.meets (r q : Region) : Prop :=
  ∃ a, r.start ≤ a ∧ a < r.start + r.length ∧ q.start ≤ a ∧ a < q.start + q.length

/-- The region checks: the first table that does not fit, and, when all fit, the first region that meets the control
block or a region before it in the order of R18. -/
def regionsChecked : Prop :=
  ∀ (base address : Nat) (h : Header),
    regionsOf address h = [⟨address, 64, 4, .header⟩, ⟨h.sectionTable, 16 * h.sectionCount, 4, .sec⟩,
      ⟨h.barTable, 4 * h.barCount, 4, .bar⟩, ⟨h.cueTable, 32 * h.cueCount, 4, .cue⟩,
      ⟨h.speakerTable, h.speakerCount, 1, .speaker⟩, ⟨h.titleTable, 128 * 2 ^ h.exponent, 16, .title⟩] ∧
    (∀ (n : TableName) (c : FaultCode), checkRegions base address h = some (n, c) →
      (c = .extent ∧ ∃ before r after, (regionsOf address h).tail = before ++ r :: after ∧ r.table = n ∧ ¬r.fits ∧
        ∀ q ∈ before, q.fits) ∨
      (c = .overlap ∧ (∀ q ∈ (regionsOf address h).tail, q.fits) ∧
        ∃ before r after, regionsOf address h = before ++ r :: after ∧ r.table = n ∧
          (r.meets ⟨base, 16384, 4, .header⟩ ∨ ∃ q ∈ before, r.meets q) ∧
          (∀ q ∈ before, ¬q.meets ⟨base, 16384, 4, .header⟩) ∧ before.Pairwise fun q p => ¬p.meets q)) ∧
    (checkRegions base address h = none → (∀ q ∈ (regionsOf address h).tail, q.fits) ∧
      (∀ q ∈ regionsOf address h, ¬q.meets ⟨base, 16384, 4, .header⟩) ∧
      (regionsOf address h).Pairwise fun q p => ¬p.meets q)

/-- The section checks, after the lower sections (R19). -/
def sectionChecked : Prop :=
  ∀ (lower : List Section) (d : List Byte), checkSection lower d =
    if ¬(u8 d 14 ≤ 1 ∧ 1 ≤ u16 d 2 ∧ u16 d 2 ≤ 1024 ∧ u16 d 6 ≤ 4096) then some .range
    else if ¬(u16 d 0 = (lower.map (·.barCount)).sum ∧ u16 d 4 = (lower.map (·.cueCount)).sum) then some .coverage
    else if 128 ≤ u8 d 15 ∧ u8 d 14 = 1 then some .mode
    else if ¬(u8 d 14 = 1 ∨ (150000 ≤ u32 d 8 ∧ u32 d 8 ≤ 3000000)) then some .range
    else if ¬(25 ≤ u8 d 15 % 128 ∧ u8 d 15 % 128 ≤ 100) then some .range
    else none

/-- The bar checks (R20). -/
def barChecked : Prop :=
  ∀ d : List Byte, checkBar d =
    if ¬(1 ≤ u8 d 0 ∧ u8 d 0 ≤ 16 ∧ u8 d 1 ≤ 1 ∧ (u16 d 2 = 0 ∨ (1500 ≤ u16 d 2 ∧ u16 d 2 ≤ 30000))) then some .range
    else none

/-- The record checks of a cue in the section `x` that owns its index (R21). -/
def cueChecked : Prop :=
  ∀ (secs : List Section) (bars : List Bar) (speakers cue : Nat) (d : List Byte) (x : Section),
    ownerOf secs cue = some x →
    checkCue secs bars speakers cue d =
      if ¬(u8 d 2 ≤ 1 ∧ u8 d 3 ≤ 2) then some .range
      else if (x.mode = .beat ∧ u8 d 3 = 2) ∨ (x.mode = .called ∧ u8 d 3 = 0) then some .mode
      else if u8 d 3 = 1 ∧ x.firstCue = cue then some .mode
      else if ¬(2 ≤ u8 d 4 ∧ u8 d 4 ≤ 7 ∧ u8 d 5 ≤ 1 ∧ u8 d 6 ≤ 1) then some .range
      else if u8 d 3 = 0 ∧ 119 < u8 d 15 then some .range
      else if u8 d 3 = 0 ∧ ¬(1 ≤ u16 d 12 ∧ u16 d 12 ≤ x.barCount ∧
          (bars[x.firstBar + (u16 d 12 - 1)]?.any fun b => decide (1 ≤ u8 d 14 ∧ u8 d 14 ≤ b.beats)) = true)
        then some .position
      else if u8 d 3 = 1 ∧ 60000000 < u32 d 16 then some .range
      else if u8 d 2 = 0 ∧ u8 d 7 = 0 then some .range
      else if u8 d 2 = 0 ∧ speakers < u8 d 20 then some .speaker
      else if u8 d 2 = 0 ∧ 80 < u8 d 21 then some .range
      else none

/-- The order check fails for a position before that of the last POSITION cue of the same section (R22, R9). -/
def orderChecked : Prop :=
  ∀ (w : LoadWork) (first bar beat tick : Nat), w.orderOk first (bar, beat, tick) = false ↔
    ∃ bar' beat' tick', w.lastPosition = some (first, bar', beat', tick') ∧
      (bar < bar' ∨ (bar = bar' ∧ (beat < beat' ∨ (beat = beat' ∧ tick < tick'))))

/-! ### Groups of commands -/

/-- The commands of the interface: scans, slots, outcomes, the journal, the status and late answers. -/
def ofInterface : Instr → Bool
  | .scan _ _ => true
  | .scanTimer _ => true
  | .scanStateRead _ _ => true
  | .scanSlotRead _ _ => true
  | .sweepStateRead _ _ => true
  | .resultWordsWrite _ => true
  | .doneWrite _ => true
  | .journalRecordWrite _ => true
  | .journalCountWrite _ => true
  | .statusTimer _ => true
  | .statusWrite _ => true
  | .lateAnswer _ _ => true
  | .registerWriteIgnored _ _ _ => true
  | .base _ _ => true
  | .cause _ _ => true
  | _ => false

/-- The events of a link and of a screen's timers. -/
def ofLinks : Instr → Bool
  | .releaseTimer _ _ => true
  | .dwellTimer _ _ => true
  | .noticeTimer _ _ => true
  | .carrierUp _ _ => true
  | .carrierLoss _ _ => true
  | .helloRetryTimer _ _ => true
  | .helloReply _ _ _ _ _ _ => true
  | .done _ _ _ => true
  | .refused _ _ _ _ => true
  | .frameDiscarded _ _ => true
  | .frameGapTimeout _ _ => true
  | .replyTimer _ _ => true
  | _ => false

/-! ### Frames of whole blocks -/

/-- The blocks that time and play the show are unchanged: Beat Tracker, Score Walker, Cue Scheduler, Descriptor
Unit, Desk Port. -/
def State.sameShow (s u : State) : Prop :=
  u.trk = s.trk ∧ u.wlk = s.wlk ∧ u.sch = s.sch ∧ u.du = s.du ∧ u.desk = s.desk

/-- Every block but the Shared Memory Interface and Show Control is unchanged. -/
def State.sameBlocks (s u : State) : Prop := s.sameShow u ∧ u.arb = s.arb ∧ u.links = s.links

/-- Every armed entry has fired that may, or none may fire: FREEZE is asserted or the list is empty (R87). -/
def State.nothingFires (s : State) : Prop := s.sch.freeze = true ∨ s.sch.armed = []

/-- The settings of a screen that only the host's directives change (R115, R132, R137). -/
def Screen.sameSettings (x y : Screen) : Prop :=
  y.mask = x.mask ∧ y.latency = x.latency ∧ y.preferred = x.preferred ∧ y.prefixMode = x.prefixMode ∧
    y.selectors = x.selectors

end Sys2Proof.Machine
end

