-- ==== Sys2Proof/Certificates/Slice0/Obligations.lean ====
section
/-! DEFINITION. The statements about the WE416 for the provers: what each command does and leaves unchanged, what
the resets leave, and what every command keeps. -/

open Sys2Proof Sys2Proof.Machine

/-! ### Steps, the queue and the clock -/

/-- One step takes the command at the front of the queue and has its effect on the state with the queue's rest. -/
def Obligations.StepTakesFront : Prop :=
  ∀ (c : Instr) (rest : List Instr) (s : State), s.pending = c :: rest → step s = exec c (s.setPending rest)

/-- No command changes the queue of commands, which is the model's own field, and a command leaves the Show Clock at
the later of its own time and the clock's: log entry 1, the model's choice. A power-on reset starts the clock at 0
(R180). -/
def Obligations.QueueAndClock : Prop :=
  ∀ (c : Instr) (s u : State), exec c s = .next u →
    u.pending = s.pending ∧
    u.clock = match c with
      | .powerOnReset _ _ => 0
      | c => max s.clock c.time

/-! ### Resets -/

/-- The values the spec gives for the state after a power-on reset (R180, R164, R25, R53, R74, R100, R113, R139,
R155). -/
def Obligations.ResetValues : Prop :=
  let s := State.reset
  s.clock = 0 ∧ s.smi.base = 0 ∧ s.irq = false ∧ s.smi.scanTimer = 4000 ∧ s.smi.statusTimer = 50000 ∧
  s.smi.rotation = 15 ∧ s.smi.sweepPending = true ∧ s.smi.outcomes = [] ∧ s.smi.journalCount = 0 ∧
  s.smi.journalQueue = [] ∧ s.smi.port.weight = .grants 8 ∧ s.smi.port.inFlight = none ∧
  s.ctl.engine = .idle ∧ s.ctl.progress = none ∧ s.trk.state = .suspended ∧ s.trk.period = 500000 ∧
  s.trk.confidence = .loose ∧ s.wlk.script = none ∧ s.wlk.inForce = .none ∧ s.wlk.lookAhead = 8 ∧
  s.sch.armed = [] ∧ s.sch.lateTolerance = 20000 ∧ s.du.table = none ∧ s.du.entries = [] ∧ s.arb.mirror = none ∧
  (∀ i, (s.screen i).onScreen = .unknown ∧ (s.screen i).mask = 0 ∧ (s.screen i).stackEmpty = true) ∧
  ∀ i, (s.link i).state = .down ∧ (s.link i).tag = 0

/-- A power-on reset sets every block to its value after a reset, takes the input levels from its samples, and has
each link whose carrier is present enter PROBING, with the HELLO of tag 1 sent and LINK STATE journalled, in ascending
order; the write of the first record is at the port (R180, R189, R153, R155, R157, R192, R191). That the carriers present
are taken in this step, and how an active FREEZE input is accepted, is log entry 6, that a HELLO holds the transition CUT
64, and the zero fields of a LINK STATE record 33: the model's. -/
def Obligations.PowerOnReset : Prop :=
  ∀ (lines : BitVec 6) (carriers : BitVec 16) (s : State),
    let records := probeRecords 0 (fun _ => .down) (fun i => carriers.getLsbD i.val) 1
    ∃ u, exec (.powerOnReset lines carriers) s = .next u ∧
    u.clock = 0 ∧ u.ctl = Control.reset ∧ u.trk = Tracker.reset ∧ u.wlk = Walker.reset ∧ u.du = Descriptors.reset ∧
    u.arb = Arbiter.reset ∧ u.sch = { Scheduler.reset with freeze := lines.getLsbD 5 } ∧
    u.smi.base = 0 ∧ u.smi.flags = Cause.none ∧ u.smi.enables = Cause.none ∧ u.smi.outcomes = [] ∧
    u.smi.sweepPending = true ∧ u.smi.rotation = 15 ∧ u.smi.scanTimer = 4000 ∧ u.smi.statusTimer = 50000 ∧
    u.smi.scan = .idle ∧ u.smi.scanRequest = false ∧ u.smi.port.weight = .grants 8 ∧ u.smi.port.counter = 0 ∧
    u.smi.port.urgent = [] ∧ u.smi.port.background = [] ∧ u.smi.refresh = .idle ∧ u.smi.refreshTag = 0 ∧
    u.smi.journalLost = 0 ∧
    u.smi.journalQueue = records ∧ u.smi.journalCount = records.length ∧
    u.smi.journalPhase = (if records = [] then .idle else .record) ∧
    u.smi.port.inFlight = (records.head?.map fun r => ⟨.writing .journalRecord 8192 r.bytes .urgent, 0, false⟩) ∧
    u.pending = s.pending ∧ u.deskSampled 0 (fun l => lines.getLsbD (lineIndex l).val) ∧
    (∀ i, u.link i = if carriers.getLsbD i.val
      then { Link.reset with carrier := true }.probe 0 else Link.reset) ∧
    u.sent = (allScreens.filter fun i => carriers.getLsbD i.val).map fun i => (i, helloFrame 1)

/-- A soft reset keeps BASE, the enables, the message tags, the inputs and the clock, and sets every other field
to its value after a soft reset; with SCAN set too a scan is requested, which begins with the sweep (R178, R180,
R181, R153, R155, R157, R185, R189). Each link with carrier enters PROBING with LINK STATE journalled, and ENGINE STATE is
journalled last, which is lost where 16 links were (R153, R178, R190); a status refresh begins (R192). The order of
these records, and that the refresh is requested here, is log entry 28, how an active FREEZE input is accepted 6, that a
HELLO holds the transition CUT 64, and the zero fields of the records 33: the model's. -/
def Obligations.SoftReset : Prop :=
  ∀ (t : Time) (v : BitVec 32) (s : State),
    let probes := probeRecords (max s.clock t) (fun i => (s.link i).state) (fun i => (s.link i).carrier) 6
    let records := probes ++ [⟨probes.length, max s.clock t, .engineState s.ctl.engine.code 1 10 255 0 0⟩]
    ∃ u, exec (.reset t v) s = .next u ∧
    u.clock = max s.clock t ∧ u.smi.base = s.smi.base ∧ u.smi.enables = s.smi.enables ∧
    u.smi.flags = Cause.none ∧ u.smi.outcomes = [] ∧ u.smi.sweepPending = true ∧ u.smi.rotation = 15 ∧
    u.smi.scanTimer = max s.clock t + 4000 ∧ u.smi.statusTimer = max s.clock t + 50000 ∧
    u.smi.scan = (if v.getLsbD 0 then .sweepRead 0 else .idle) ∧
    (∀ f, s.smi.port.inFlight = some f → u.smi.port.inFlight = some { f with abandoned := true }) ∧
    u.ctl = Control.reset ∧ u.trk = Tracker.reset ∧ u.wlk = Walker.reset ∧ u.du = Descriptors.reset ∧
    u.arb = Arbiter.reset ∧ u.sch = { Scheduler.reset with freeze := (s.line .freeze).level } ∧
    u.deskSampled (max s.clock t) (fun l => (s.line l).level) ∧
    u.smi.scanRequest = false ∧ u.smi.port.weight = .grants 8 ∧ u.smi.port.counter = 0 ∧ u.smi.journalLost = 0 ∧
    (∀ a, u.smi.port.waits a → a.purpose = .journalRecord ∨ a.purpose = .status ∨
      (v.getLsbD 0 = true ∧ a.purpose = .sweepState 0)) ∧
    u.smi.journalCount = records.length ∧ u.smi.journalQueue = records.take 16 ∧ u.smi.journalPhase = .record ∧
    (∀ r, records.head? = some r →
      u.smi.port.holds (.writing .journalRecord (s.smi.base + 8192) r.bytes .urgent)) ∧
    u.smi.refreshTag = 1 ∧ (∃ rest, u.smi.refresh = .writing rest false) ∧
    u.sent = ((allScreens.filter fun i => (s.link i).carrier).map fun i => (i, helloFrame ((s.link i).tag + 1))) ∧
    (∀ i, u.link i = if (s.link i).carrier
      then { Link.reset with carrier := true, tag := (s.link i).tag }.probe (max s.clock t)
      else { Link.reset with tag := (s.link i).tag }) ∧
    u.pending = s.pending

/-- Two states that agree on the few things a soft reset keeps or records are the same after it (R178, R180). -/
def Obligations.SoftResetForgets : Prop :=
  ∀ (t : Time) (v : BitVec 32) (s r : State),
    s.clock = r.clock → s.smi.base = r.smi.base → s.smi.enables = r.smi.enables →
    s.smi.port.inFlight = r.smi.port.inFlight → s.ctl.engine = r.ctl.engine → s.pending = r.pending →
    (∀ l, (s.line l).level = (r.line l).level) →
    (∀ i, (s.link i).state = (r.link i).state ∧ (s.link i).carrier = (r.link i).carrier ∧
      (s.link i).tag = (r.link i).tag) →
    exec (.reset t v) s = exec (.reset t v) r

/-! ### The register port -/

/-- A write of BASE is accepted in IDLE alone, and takes address bits 14..23; a write of CAUSE clears the flags
written as 1 in its low half and replaces the enables by its high half; a write elsewhere is ignored. Nothing else
changes but the clock (R181, R182). -/
def Obligations.RegisterWrites : Prop :=
  (∀ (t : Time) (v : BitVec 32) (s : State), s.ctl.engine = .idle →
    exec (.base t v) s =
      .next { s.begin t with smi := { s.smi with base := (v &&& 0x00FFC000#32).toNat } }) ∧
  (∀ (t : Time) (v : BitVec 32) (s : State), s.ctl.engine ≠ .idle → exec (.base t v) s = .next (s.begin t)) ∧
  (∀ (t : Time) (v : BitVec 32) (s : State), exec (.cause t v) s =
    .next { s.begin t with smi := { s.smi with
      flags := { directive := s.smi.flags.directive && !v.getLsbD 0, journal := s.smi.flags.journal && !v.getLsbD 1
                 screen := s.smi.flags.screen && !v.getLsbD 2, tracker := s.smi.flags.tracker && !v.getLsbD 3
                 memory := s.smi.flags.memory && !v.getLsbD 4 }
      enables := { directive := v.getLsbD 16, journal := v.getLsbD 17, screen := v.getLsbD 18
                   tracker := v.getLsbD 19, memory := v.getLsbD 20 } } }) ∧
  ∀ (t : Time) (a v : BitVec 32) (s : State), exec (.registerWriteIgnored t a v) s = .next (s.begin t)

/-- What the register port reads: the identity of the part, BASE, 0 for CONTROL, flags and enables for CAUSE, and
0 at every other address (R181). The IRQ output is asserted exactly while a flag is set together with its enable
(R182). -/
def Obligations.RegisterReads : Prop :=
  ∀ (s : State) (a : BitVec 32),
    s.readRegister 0 = 0x000101A0#32 ∧ s.readRegister 1 = BitVec.ofNat 32 s.smi.base ∧ s.readRegister 2 = 0 ∧
    (3 < a.toNat → s.readRegister a = 0) ∧
    (s.irq = true ↔ ∃ j : Fin 5,
      (s.readRegister 3).getLsbD j.val = true ∧ (s.readRegister 3).getLsbD (16 + j.val) = true) ∧
    ∀ k : Fin 5,
      (s.readRegister 3).getLsbD k.val = [s.smi.flags.directive, s.smi.flags.journal, s.smi.flags.screen,
        s.smi.flags.tracker, s.smi.flags.memory][k] ∧
      (s.readRegister 3).getLsbD (16 + k.val) = [s.smi.enables.directive, s.smi.enables.journal,
        s.smi.enables.screen, s.smi.enables.tracker, s.smi.enables.memory][k]

/-- A falling edge changes its input level alone; a frame discarded, and a partial frame discarded at the end of a
gap, raise the ignored count of their link alone (R156, R151, R197). -/
def Obligations.PlainCommands : Prop :=
  (∀ (t : Time) (l : Line) (s : State), l ≠ .freeze → exec (.lineFallingEdge t l) s =
    .next ((s.begin t).setLine l { s.line l with level := false })) ∧
  (∀ (t : Time) (i : Screen16) (s : State), exec (.frameDiscarded t i) s =
    .next ((s.begin t).setLink i { s.link i with ignored := min 4294967295 ((s.link i).ignored + 1) })) ∧
  ∀ (t : Time) (i : Screen16) (s : State), exec (.frameGapTimeout t i) s =
    .next ((s.begin t).setLink i { s.link i with ignored := min 4294967295 ((s.link i).ignored + 1) })

/-- BASE and the enables change only at their own register writes and a power-on reset, and a CAUSE flag once set
stays set until a write of CAUSE or a reset (R181, R182). -/
def Obligations.RegistersKept : Prop :=
  ∀ (c : Instr) (s u : State), exec c s = .next u →
    (∀ l k, c ≠ .powerOnReset l k) → (∀ t v, c ≠ .base t v) → (∀ t v, c ≠ .cause t v) →
    u.smi.base = s.smi.base ∧ u.smi.enables = s.smi.enables ∧
    ((∀ t v, c ≠ .reset t v) →
      (s.smi.flags.directive = true → u.smi.flags.directive = true) ∧
      (s.smi.flags.journal = true → u.smi.flags.journal = true) ∧
      (s.smi.flags.screen = true → u.smi.flags.screen = true) ∧
      (s.smi.flags.tracker = true → u.smi.flags.tracker = true) ∧
      (s.smi.flags.memory = true → u.smi.flags.memory = true))

/-- The level mask of a screen, its latency, preferred transition and prefix mode and its counter selectors change
only at SET MASK, SET SCREEN, SELECT COUNTERS and the resets (R115, R132, R137). -/
def Obligations.HostSettingsKept : Prop :=
  ∀ (c : Instr) (s u : State), exec c s = .next u →
    (∀ l k, c ≠ .powerOnReset l k) → (∀ t v, c ≠ .reset t v) → (∀ t, c ≠ .setMask t) → (∀ t, c ≠ .setScreen t) →
    (∀ t, c ≠ .selectCounters t) → ∀ i, (s.screen i).sameSettings (u.screen i)

/-! ### Scans, outcomes and the sweep -/

/-- A write of SCAN, and each expiry of the scan timer, starts a scan when none runs and no directive is in
progress, and else sets the scan request; the timer is re-armed 4,000 µs on (R186). A scan waits while outcome
writes are in flight, and then writes the oldest unwritten outcome; once one outcome is written the next is, and
after the last one it makes the sweep while that is pending, and else reads the state of the slot after the rotation
pointer (R187, R188). A scan that ends with the scan request set, and the outcome of the directive in progress handed
back with it set, clear the request and start a scan at once (R186). That an overdue timer is re-armed from its own
expiry is log entry 50, and which outcome of a slot a write belongs to is log entry 51: the model's. -/
def Obligations.ScanRequested : Prop :=
  (∀ (t : Time) (v : BitVec 32) (s : State), s.smi.scan = .idle → s.ctl.progress = none →
    ∃ u, exec (.scan t v) s = .next u ∧ s.sameBlocks u ∧ u.ctl = s.ctl ∧ u.smi.scanRequest = s.smi.scanRequest ∧
      s.scanBegun u) ∧
  (∀ (t : Time) (v : BitVec 32) (s : State), s.smi.scan ≠ .idle ∨ s.ctl.progress ≠ none →
    exec (.scan t v) s = .next { s.begin t with smi := { s.smi with scanRequest := true } }) ∧
  (∀ (t : Time) (s : State), s.smi.scanTimer ≤ max s.clock t → s.smi.scan = .idle → s.ctl.progress = none →
    ∃ u, exec (.scanTimer t) s = .next u ∧ u.smi.scanTimer = s.smi.scanTimer + 4000 ∧ s.sameBlocks u ∧
      u.ctl = s.ctl ∧ u.smi.scanRequest = s.smi.scanRequest ∧ s.scanBegun u) ∧
  (∀ (t : Time) (s : State), s.smi.scanTimer ≤ max s.clock t → s.smi.scan ≠ .idle ∨ s.ctl.progress ≠ none →
    exec (.scanTimer t) s = .next { s.begin t with smi := { s.smi with
      scanTimer := s.smi.scanTimer + 4000, scanRequest := true } }) ∧
  (∀ (t : Time) (v : BitVec 32) (s : State), s.smi.scan = .idle → s.ctl.progress = none →
    (∃ o ∈ s.smi.outcomes, o.writing = true) →
    exec (.scan t v) s = .next { s.begin t with smi := { s.smi with scan := .outcomes false } }) ∧
  (∀ (t : Time) (s : State) (slot : Slot) (o : OutcomeRecord), s.answering (.doneWord slot) →
    s.smi.scan = .outcomes false → s.writingOutcome slot = some o →
    (s.smi.outcomes.erase o = [] → ∃ u, exec (.doneWrite t) s = .next u ∧
      s.sameBlocks u ∧ u.ctl = s.ctl ∧ u.smi.outcomes = [] ∧ u.smi.flags.directive = true ∧
      u.smi.scan = if s.smi.sweepPending then .sweepRead 0 else .search (s.smi.rotation + 1) 16) ∧
    ∀ (q : OutcomeRecord) (qs : List OutcomeRecord), s.smi.outcomes.erase o = q :: qs →
      (∀ p ∈ q :: qs, p.writing = false) → ∃ u, exec (.doneWrite t) s = .next u ∧ s.sameBlocks u ∧ u.ctl = s.ctl ∧
        u.smi.scan = .outcomes false ∧ u.smi.outcomes = { q with writing := true } :: qs ∧
        u.smi.flags.directive = true ∧
        u.smi.port.holds (.writing (.resultWords q.slot) (s.resultAddress q.slot) (resultBytes q.results) .urgent)) ∧
  (∀ (t : Time) (d : List Byte) (s : State) (slot : Slot) (left : Nat), s.answering (.scanState slot) →
    s.smi.scan = .search slot left → slotState d ≠ 1 → left ≤ 1 → s.smi.scanRequest = true → s.ctl.progress = none →
    ∃ u, exec (.scanStateRead t d) s = .next u ∧ s.sameBlocks u ∧ u.ctl = s.ctl ∧ u.smi.scanRequest = false ∧
      s.scanBegun u) ∧
  (∀ (t : Time) (s : State) (slot : Slot) (kind : Nat) (words : List Nat), s.taken slot kind words →
    kind = 0 ∨ 18 < kind → s.smi.scanRequest = true →
    ∃ u, exec (.unknownKind t) s = .next u ∧ s.handedBack u slot .unknownKind [] ∧ u.smi.scanRequest = false ∧
      u.smi.scan = .outcomes false) ∧
  ∀ (t : Time) (d : List Byte) (s : State) (p : Progress) (c : Nat) (sc : Script) (f : FaultCode),
    s.answering .amend → s.ctl.progress = some p → p.work = .amend c → s.wlk.script = some sc →
    checkCue sc.sections sc.bars sc.speakerCount c d = some f → s.smi.scan = .idle →
    ∃ u, exec (.amendReadComplete t d) s = .next u ∧ u.ctl.progress = none ∧ u.smi.scanRequest = false ∧
      u.smi.scan = if s.smi.scanRequest then .outcomes false else .idle

/-- In the search, a slot found POSTED is read whole, beginning with its first 32 bytes; from any other the search
goes on at the next slot, and after the sixteenth it ends (R187). -/
def Obligations.SearchReadsSlots : Prop :=
  ∀ (t : Time) (d : List Byte) (s : State) (slot : Slot) (left : Nat),
    s.answering (.scanState slot) → s.smi.scan = .search slot left →
    ∃ u, exec (.scanStateRead t d) s = .next u ∧ s.sameBlocks u ∧ u.ctl = s.ctl ∧
      u.smi.rotation = s.smi.rotation ∧
      (slotState d = 1 → u.smi.scan = .slotRead slot left [] ∧
        u.smi.port.holds (.read (.scanSlot slot false) (s.slotAddress slot) 32 .background FaultDetail.none)) ∧
      (slotState d ≠ 1 → 1 < left → u.smi.scan = .search (slot + 1) (left - 1) ∧
        u.smi.port.holds (.read (.scanState (slot + 1)) (s.slotAddress (slot + 1)) 4 .background FaultDetail.none)) ∧
      (slotState d ≠ 1 → left ≤ 1 → s.smi.scanRequest = false → u.smi.scan = .idle)

/-- The second 32 bytes of a slot are read after the first. When the slot read is still POSTED and no outcome is
unwritten, TAKEN is written to its state, with the kind and the words read; when it is no longer POSTED the search
goes on at the next slot, and after the sixteenth the scan ends (R187). While an outcome is unwritten or its writes are
in flight no directive is taken (R188): that the scan then ends here with nothing taken is log entry 11. A scan that
ends with the scan request set is followed by a new one (R186). One command per 32 bytes is log entry 9, and the four
bytes 2, 0, 0, 0 of the write are log entry 10: the model's reading. -/
def Obligations.PostedSlotTaken : Prop :=
  (∀ (t : Time) (d : List Byte) (s : State) (slot : Slot) (left : Nat) (second : Bool), d ≠ [] →
    s.answering (.scanSlot slot second) → s.smi.scan = .slotRead slot left [] →
    ∃ u, exec (.scanSlotRead t d) s = .next u ∧ s.sameBlocks u ∧ u.ctl = s.ctl ∧
      u.smi.scan = .slotRead slot left d ∧
      u.smi.port.holds (.read (.scanSlot slot true) (s.slotAddress slot + 32) 32 .background FaultDetail.none)) ∧
  ∀ (t : Time) (d half : List Byte) (s : State) (slot : Slot) (left : Nat) (second : Bool), half ≠ [] →
    s.answering (.scanSlot slot second) → s.smi.scan = .slotRead slot left half →
    ∃ u, exec (.scanSlotRead t d) s = .next u ∧ s.sameBlocks u ∧ u.ctl = s.ctl ∧
      u.smi.rotation = s.smi.rotation ∧
      (slotState (half ++ d) = 1 → s.smi.outcomes = [] →
        u.smi.scan = .take slot (slotKind (half ++ d)) (slotWords (half ++ d)) ∧
        u.smi.port.holds (.writing (.take slot) (s.slotAddress slot) [2, 0, 0, 0] .background)) ∧
      (slotState (half ++ d) ≠ 1 → 1 < left → u.smi.scan = .search (slot + 1) (left - 1) ∧
        u.smi.port.holds (.read (.scanState (slot + 1)) (s.slotAddress (slot + 1)) 4 .background FaultDetail.none)) ∧
      ((slotState (half ++ d) = 1 ∧ s.smi.outcomes ≠ []) ∨ (slotState (half ++ d) ≠ 1 ∧ left ≤ 1) →
        (s.smi.scanRequest = false → u.smi.scan = .idle ∧ u.smi.outcomes = s.smi.outcomes) ∧
        (s.smi.scanRequest = true → s.ctl.progress = none → u.smi.scanRequest = false ∧ s.scanBegun u))

/-- In the abandon sweep, a slot found TAKEN has its result words written as 0 and then DONE with ABANDONED; any
other is left, and after slot 15 the sweep is done and the search begins (R189). The four bytes 3, 8, 0, 0 of the DONE
write are log entry 10, the model's reading. -/
def Obligations.SweepWritesAbandoned : Prop :=
  (∀ (t : Time) (d : List Byte) (s : State) (slot : Slot),
    s.answering (.sweepState slot) → s.smi.scan = .sweepRead slot →
    ∃ u, exec (.sweepStateRead t d) s = .next u ∧ s.sameBlocks u ∧ u.ctl = s.ctl ∧
      (slotState d = 2 → u.smi.scan = .sweepResults slot ∧ u.smi.sweepPending = s.smi.sweepPending ∧
        u.smi.port.holds (.writing (.sweepResults slot) (s.resultAddress slot) (List.replicate 16 0) .urgent)) ∧
      (slotState d ≠ 2 → slot ≠ 15 → u.smi.scan = .sweepRead (slot + 1) ∧
        u.smi.sweepPending = s.smi.sweepPending ∧
        u.smi.port.holds (.read (.sweepState (slot + 1)) (s.slotAddress (slot + 1)) 4 .background FaultDetail.none)) ∧
      (slotState d ≠ 2 → slot = 15 → u.smi.sweepPending = false ∧ u.smi.scan = .search (s.smi.rotation + 1) 16)) ∧
  (∀ (t : Time) (s : State) (slot : Slot), s.answering (.sweepResults slot) →
    ∃ u, exec (.resultWordsWrite t) s = .next u ∧ s.sameBlocks u ∧ u.ctl = s.ctl ∧ u.smi.scan = .sweepDone slot ∧
      u.smi.port.holds (.writing (.sweepDone slot) (s.slotAddress slot) [3, 8, 0, 0] .urgent)) ∧
  ∀ (t : Time) (s : State) (slot : Slot), s.answering (.sweepDone slot) →
    ∃ u, exec (.doneWrite t) s = .next u ∧ s.sameBlocks u ∧ u.ctl = s.ctl ∧ u.smi.flags.directive = true ∧
      u.smi.scan = (if slot = 15 then .search (s.smi.rotation + 1) 16 else .sweepRead (slot + 1)) ∧
      u.smi.sweepPending = if slot = 15 then false else s.smi.sweepPending

/-- The result words of an outcome are followed by DONE and its outcome code, and when both are written CAUSE
.DIRECTIVE is set and the outcome is no longer held (R188). The four bytes of the DONE write are log entry 10, which
outcome of a slot the write belongs to is log entry 51, and that DONE is queued once the result words have been written,
at the BASE that then holds, is log entry 70: the model's. A scan that waits on outcomes is the business of
ScanRequested. -/
def Obligations.OutcomeWrites : Prop :=
  (∀ (t : Time) (s : State) (slot : Slot) (o : OutcomeRecord), s.answering (.resultWords slot) →
    s.writingOutcome slot = some o → ∃ u, exec (.resultWordsWrite t) s = .next u ∧ s.sameBlocks u ∧
      u.ctl = s.ctl ∧ u.smi.outcomes = s.smi.outcomes ∧ u.smi.flags = s.smi.flags ∧
      u.smi.port.holds (.writing (.doneWord slot) (s.slotAddress slot) [3, BitVec.ofNat 8 o.code.code, 0, 0]
        .urgent)) ∧
  ∀ (t : Time) (s : State) (slot : Slot) (o : OutcomeRecord), s.answering (.doneWord slot) →
    s.writingOutcome slot = some o → (∀ b, s.smi.scan ≠ .outcomes b) →
    ∃ u, exec (.doneWrite t) s = .next u ∧ s.sameBlocks u ∧ u.ctl = s.ctl ∧
      u.smi.outcomes = s.smi.outcomes.erase o ∧ u.smi.flags = { s.smi.flags with directive := true } ∧
      u.smi.scan = s.smi.scan

/-- A command of the interface changes nothing but the interface, the clock and the frames last sent: no other
block, and not Show Control (R181, R187, R188, R189, R191, R193). -/
def Obligations.InterfaceFrame : Prop :=
  ∀ (c : Instr) (s u : State), ofInterface c = true → exec c s = .next u →
    u = { s.begin c.time with smi := u.smi }

/-! ### Directives refused -/

/-- The three checks of a directive taken: an unknown kind, an engine state that does not allow the directive, and
a parameter out of its range, each end it at once with their own outcome. No block changes, and nothing is journalled
(R166, R167, R196). That a title above 65,535 of a NOTICE or INVALIDATE is out of range is log entry 35, the model's
reading. -/
def Obligations.DirectivesRefused : Prop :=
  (∀ (t : Time) (s : State) (slot : Slot) (kind : Nat) (words : List Nat), s.taken slot kind words →
    kind = 0 ∨ 18 < kind →
    ∃ u, exec (.unknownKind t) s = .next u ∧ s.handedBack u slot .unknownKind [] ∧ u.finished slot ∧
      s.sameBlocks u ∧ u.ctl = { s.ctl with progress := none } ∧ u.smi.journalCount = s.smi.journalCount) ∧
  (∀ (t : Time) (c : Instr) (s : State) (slot : Slot) (kind : Nat) (words : List Nat),
    directiveRow t kind = some c → s.taken slot kind words → allowedIn kind s.ctl.engine = false →
    ∃ u, exec c s = .next u ∧ s.handedBack u slot .refusedState [] ∧ u.finished slot ∧ s.sameBlocks u ∧
      u.ctl = { s.ctl with progress := none } ∧ u.smi.journalCount = s.smi.journalCount) ∧
  ∀ (t : Time) (c : Instr) (s : State) (slot : Slot) (kind : Nat) (words : List Nat),
    directiveRow t kind = some c → s.taken slot kind words → allowedIn kind s.ctl.engine = true →
    ¬s.parametersInRange kind words →
    ∃ u, exec c s = .next u ∧ s.handedBack u slot .refusedParameter [] ∧ u.finished slot ∧ s.sameBlocks u ∧
      u.ctl = { s.ctl with progress := none } ∧ u.smi.journalCount = s.smi.journalCount

/-! ### Directives of the show -/

/-- LOAD is taken: the engine is LOADING, the walker and the Descriptor Unit drop the script they held, and the
first 32 bytes of the header are read in the background class; a header that is misaligned or runs past show
memory ends the LOAD with SCRIPT REJECTED, table HEADER, fault EXTENT (R168, R17, R195). An offer read in flight stays
known to the walker, which is otherwise at its reset values: log entry 21, the model's reading. -/
def Obligations.LoadTaken : Prop :=
  ∀ (t : Time) (s : State) (slot : Slot) (words : List Nat), s.taken slot 1 words →
    s.ctl.engine = .idle ∨ s.ctl.engine = .loaded ∨ s.ctl.engine = .ended →
    ∃ u, exec (.load t) s = .next u ∧ u.smi.rotation = slot ∧
      u.trk = s.trk ∧ u.sch = s.sch ∧ u.desk = s.desk ∧ u.links = s.links ∧ u.arb.screens = s.arb.screens ∧
      u.wlk = { Walker.reset with reading := s.wlk.reading } ∧ u.du = s.du.dropped ∧
      u.arb.dwellBase = 0 ∧ u.arb.dwellPerChar = 0 ∧
      (word words 0 % 4 = 0 ∧ word words 0 + 64 ≤ 16777216 →
        u.ctl = { s.ctl with
          engine := .loading
          progress := some ⟨slot, 1, words, .load (LoadWork.begin (word words 0))⟩ } ∧
        u.smi.outcomes = s.smi.outcomes ∧
        u.smi.port.holds (.read .load (word words 0) 32 .background { FaultDetail.none with table := 1 })) ∧
      (¬(word words 0 % 4 = 0 ∧ word words 0 + 64 ≤ 16777216) →
        u.ctl = { s.ctl with engine := .idle, progress := none } ∧
        s.handedBack u slot .scriptRejected [1, 0, 3, 0])

/-- ARM: the arming parameters are stored, the armed list is emptied, the walker stands at bar 1 of the start
section with the running order of the version, the tracker is LOCKING in a BEAT section and SUSPENDED in a CALLED
one, the parameters reach their blocks, and the engine is ARMED (R169, R71, R49, R95, R12). -/
def Obligations.ArmCarriedOut : Prop :=
  ∀ (t : Time) (s : State) (slot : Slot) (words : List Nat) (a : Arming) (sc : Script) (x : Section),
    s.taken slot 2 words → s.ctl.engine = .loaded ∨ s.ctl.engine = .armed ∨ s.ctl.engine = .ended →
    readArm words = some a → s.wlk.script = some sc → s.wlk.sec (word words 1) = some x →
    word words 1 ∈ runningOrder sc.sections (word words 0) →
    ∃ u, exec (.arm t) s = .next u ∧ s.handedBack u slot .ok [] ∧ u.finished slot ∧
      u.ctl.engine = .armed ∧ u.ctl.arming = a ∧ u.wlk.script = some sc ∧
      u.wlk.order = some (runningOrder sc.sections (word words 0)) ∧ u.wlk.lookAhead = word words 3 ∧
      u.wlk.inForce = .sec (word words 1) ∧ u.wlk.pass = 1 ∧ u.wlk.origin = 0 ∧ u.wlk.walked = none ∧
      u.wlk.position = some { sec := word words 1, pass := 1, bar := 1, beat := 1 } ∧ u.wlk.exitFlag = false ∧
      u.wlk.owedGo = none ∧ u.wlk.history = [] ∧
      (0 < x.cueCount → u.wlk.cursor = some { sec := word words 1, pass := 1, origin := some 0, cue := x.firstCue }) ∧
      u.sch.armed = [] ∧ u.sch.fireRecord = none ∧ u.sch.lateTolerance = word words 4 ∧
      u.trk.beat = 0 ∧ u.trk.ring = [] ∧ u.trk.weight = word words 2 ∧ u.smi.port.weight = a.weight ∧
      (x.mode = .beat → u.trk.state = .locking ∧ u.trk.period = s.wlk.tempoAt x 1 ∧ u.wlk.fireCursor = none) ∧
      (x.mode = .called → u.trk.state = .suspended ∧ u.trk.period = s.trk.period ∧
        u.wlk.fireCursor = some x.firstCue) ∧
      u.desk = s.desk ∧ u.arb = s.arb ∧ u.links = s.links

/-- PAUSE: the tracker is SUSPENDED, no armed entry is TIMED and an owed GO is withdrawn; when no link is BUSY the
engine is PAUSED and the outcome OK is handed back at once, and else it is PAUSING and the directive is held (R171,
R172, R96). At levels 2..7 every pending cue request is discarded, each TITLE counted as SKIPPED and journalled, and
the TITLE entries stay (R131). The order of the records of several TITLEs is log entry 63, and not stated here; that
nothing replaces is written as number 0, which is log entry 33, the model's choice. -/
def Obligations.PauseCarriedOut : Prop :=
  ∀ (t : Time) (s : State) (slot : Slot) (words : List Nat), s.taken slot 3 words → s.ctl.engine = .running →
    ∃ u, exec (.pause t) s = .next u ∧ u.finished slot ∧ u.trk.state = .suspended ∧ u.trk.timeout = none ∧
      u.trk.beat = s.trk.beat ∧ u.trk.period = s.trk.period ∧ u.trk.ring = s.trk.ring ∧
      u.sch.armed.length = s.sch.armed.length ∧ (∀ e ∈ u.sch.armed, e.timing ≠ .timed) ∧ u.wlk.owedGo = none ∧
      u.wlk.inForce = s.wlk.inForce ∧ u.wlk.cursor = s.wlk.cursor ∧ u.du = s.du ∧
      ((u.ctl.engine = .paused ∧ u.ctl.heldPause = none ∧ (∀ i, (u.link i).state ≠ .busy) ∧
          s.handedBack u slot .ok []) ∨
        (u.ctl.engine = .pausing ∧ u.ctl.heldPause = some slot ∧ (∃ i, (u.link i).state = .busy) ∧
          u.smi.outcomes = s.smi.outcomes)) ∧
      u.noCueRequests ∧
      (∀ (i : Screen16) (l : Level) (e : Entry), 2 ≤ l.val → (s.screen i).stack[l] = some e → e.endTime = none →
        (s.screen i).blankPending = false → (∀ r, (s.screen i).pendingAt[l] = some r → r.kind ≠ .notice) →
        ∃ x, (u.screen i).stack[l] = some x ∧ x.serial = e.serial ∧ x.ident = e.ident ∧ x.tuples = e.tuples) ∧
      (∀ i, (s.screen i).counted (u.screen i) .skipped (s.screen i).pendingTitles.length) ∧
      ∀ (i : Screen16) (l : Level) (r : Request), (s.screen i).pendingAt[l] = some r →
        (s.screen i).pendingTitles = [l] → (∀ j, j ≠ i → (s.screen j).pendingTitles = []) →
        s.smi.journalQueue.length ≤ 12 →
        ∃ n, (⟨n, max s.clock t, .titleSkipped i l .title 2 r.ident.number 0⟩ : JournalRecord) ∈ u.smi.journalQueue

/-- RESUME: the engine is RUNNING, and in a BEAT section the tracker is LOCKING with its estimate and ring kept (R173,
R50). With no armed cue nothing else changes. Under FREEZE the list stays, and a FOLLOW entry that PAUSE gated is TIMED
at its T, or DUE when T has come. Without FREEZE a complete entry that is DUE, or is such a FOLLOW entry whose T has
come, fires when it stands alone in the list (R96, R87). That the tracker stays as it is where the section in force is
END, which the first clause covers too, is log entry 57, the model's choice. The order of several that may fire is log
entry 46, and not stated here. -/
def Obligations.ResumeCarriedOut : Prop :=
  (∀ (t : Time) (s : State) (slot : Slot) (words : List Nat), s.taken slot 4 words → s.ctl.engine = .paused →
    s.sch.armed = [] →
    ∃ u, exec (.resume t) s = .next u ∧ s.handedBack u slot .ok [] ∧ u.finished slot ∧ u.ctl.engine = .running ∧
      u.wlk = s.wlk ∧ u.du = s.du ∧ u.desk = s.desk ∧ u.arb = s.arb ∧ u.links = s.links ∧ u.sch.armed = [] ∧
      (s.inBeatSection = true → u.trk = { s.trk with state := .locking, absorb := 0, bounces := 0, timeout := none }) ∧
      (s.inBeatSection = false → u.trk = s.trk)) ∧
  (∀ (t : Time) (s : State) (slot : Slot) (words : List Nat), s.taken slot 4 words → s.ctl.engine = .paused →
    s.sch.freeze = true → (∀ e ∈ s.sch.armed, e.timing ≠ .timed) →
    ∃ u, exec (.resume t) s = .next u ∧ s.handedBack u slot .ok [] ∧ u.finished slot ∧ u.ctl.engine = .running ∧
      u.wlk = s.wlk ∧ u.du = s.du ∧ u.arb = s.arb ∧ u.links = s.links ∧
      u.sch.armed = s.sch.armed.map fun e => match e.target, e.timing, e.fire with
        | none, .gated, some T => { e with timing := if T ≤ max s.clock t then .due else .timed }
        | _, _, _ => e) ∧
  ∀ (t : Time) (s : State) (slot : Slot) (words : List Nat) (e : Armed), s.taken slot 4 words →
    s.ctl.engine = .paused → s.sch.freeze = false → s.sch.armed = [e] → (∀ p ∈ e.keys, p.2 ≠ .pending) →
    s.wlk.owedGo = none → s.wlk.inForce ≠ .endOfShow →
    e.timing = .due ∨ (e.timing = .gated ∧ e.target = none ∧ ∃ T, e.fire = some T ∧ T ≤ max s.clock t) →
    ∃ u, exec (.resume t) s = .next u ∧ s.handedBack u slot .ok [] ∧ u.finished slot ∧ u.ctl.engine = .running ∧
      u.sch.armed = [] ∧ u.sch.fireRecord = some { cue := e.cue, pass := e.pass, appear := e.appear.getD 0 }

/-- STOP: the engine is ENDED, the armed list and the cue history are empty, the tracker is SUSPENDED, and the
outcome of a held PAUSE is handed back as ABANDONED before that of the STOP (R174, R95, R72, R50). At levels 2..7
every pending cue request is discarded, without a count, and every TITLE entry is removed; notices stay (R131). -/
def Obligations.StopCarriedOut : Prop :=
  ∀ (t : Time) (s : State) (slot : Slot) (words : List Nat), s.taken slot 5 words →
    s.ctl.engine = .armed ∨ s.ctl.engine = .running ∨ s.ctl.engine = .pausing ∨ s.ctl.engine = .paused →
    ∃ u, exec (.stop t) s = .next u ∧ u.finished slot ∧ u.ctl.engine = .ended ∧ u.ctl.heldPause = none ∧
      u.smi.outcomes = s.smi.outcomes ++
        (match s.ctl.heldPause with
          | some p => [{ slot := p, code := .abandoned, results := [], writing := true }]
          | none => []) ++ [{ slot := slot, code := .ok, results := [], writing := true }] ∧
      u.sch.armed = [] ∧ u.sch.fireRecord = none ∧ u.wlk.history = [] ∧ u.wlk.owedGo = none ∧
      u.wlk.script = s.wlk.script ∧ u.wlk.order = s.wlk.order ∧ u.trk.state = .suspended ∧
      u.trk.timeout = none ∧ u.trk.beat = s.trk.beat ∧ u.trk.lockout = s.trk.lockout ∧ s.cuesDropped u (max s.clock t)

/-- LOCATE: the walker stands at the bar named, as pass 1, with the armed list empty and an owed GO withdrawn, the
tracker is positioned, and the engine state stays (R170, R71, R49, R95). At levels 2..7 every pending cue request is
discarded, without a count, and every TITLE entry is removed; notices stay (R131). -/
def Obligations.LocateCarriedOut : Prop :=
  ∀ (t : Time) (s : State) (slot : Slot) (words : List Nat) (x : Section) (n : Nat), s.taken slot 6 words →
    s.ctl.engine = .armed ∨ s.ctl.engine = .paused → s.wlk.sec (word words 0) = some x →
    word words 0 ∈ s.wlk.order.getD [] →
    (x.mode = .beat → n = word words 1 ∧ 1 ≤ n ∧ n ≤ x.barCount) → (x.mode = .called → n = 1) →
    ∃ u, exec (.locate t) s = .next u ∧ s.handedBack u slot .ok [] ∧ u.finished slot ∧
      u.ctl.engine = s.ctl.engine ∧ u.sch.armed = [] ∧ u.sch.fireRecord = none ∧
      u.wlk.inForce = .sec (word words 0) ∧ u.wlk.pass = 1 ∧ u.wlk.walked = none ∧ u.wlk.owedGo = none ∧
      u.wlk.history = [] ∧ u.wlk.order = s.wlk.order ∧
      u.wlk.position = some { sec := word words 0, pass := 1, bar := n, beat := 1 } ∧
      (0 < x.cueCount → u.wlk.cursor = some {
        sec := word words 0, pass := 1, origin := some u.wlk.origin, cue := x.firstCue }) ∧
      u.trk.beat = 0 ∧ u.trk.ring = [] ∧ u.trk.counted = false ∧ u.trk.weight = s.trk.weight ∧
      (x.mode = .beat → u.trk.state = .locking ∧ u.trk.period = s.wlk.tempoAt x n ∧
        u.wlk.origin = -(beatsIn ((s.wlk.barsOf x).take (n - 1)) : Int)) ∧
      (x.mode = .called → u.trk.state = .suspended ∧ u.wlk.origin = 0 ∧ u.wlk.fireCursor = some x.firstCue) ∧
      s.cuesDropped u (max s.clock t)

/-- NOTICE: its keys are the languages that the layouts of its screens name, ascending; without one it ends at once with
PARTIAL. Each key is answered at once by an ended fetch, PENDING by one that runs or that a way can be taken for, and
FAULTED where it would have to wait for a way. While an answer is PENDING the NOTICE stays in progress and nothing
changes at a screen; with none it ends at once, and its requests are placed. The answer to the last PENDING key ends it
in the same way (R176, R128, R102, R103). That a NOTICE request has the override DEFAULT, no speaker and a dwell percent
of 100 is log entry 30, the model's reading. -/
def Obligations.NoticeTaken : Prop :=
  (∀ (t : Time) (s : State) (slot : Slot) (words : List Nat) (n : NoticeParams) (keys : List Key)
      (ans : List (Key × KeyResult)) (screens : BitVec 16), s.taken slot 7 words →
    s.ctl.engine ≠ .idle → s.ctl.engine ≠ .loading → readNotice words = some n →
    screens = maskOf (s.noticeScreens n.screens) → keys = s.noticeKeys n.title (s.noticeScreens n.screens) →
    ans = keys.map (fun k => (k, s.noticeAnswer k)) →
    ∃ u, exec (.notice t) s = .next u ∧ u.smi.rotation = slot ∧ u.ctl.engine = s.ctl.engine ∧
      u.trk = s.trk ∧ u.wlk = s.wlk ∧ u.sch = s.sch ∧ u.desk = s.desk ∧
      (keys = [] → u.finished slot ∧ s.sameBlocks u ∧ s.handedBack u slot .partialDone [0, 0]) ∧
      ((∃ k ∈ keys, s.noticeAnswer k = .pending) →
        u.ctl.progress = some ⟨slot, 7, words, .notice ⟨n.title, n.level, n.duration, screens, ans⟩⟩ ∧
        u.smi.outcomes = s.smi.outcomes ∧ u.arb = s.arb ∧ u.links = s.links) ∧
      (keys ≠ [] → (∀ k ∈ keys, s.noticeAnswer k ≠ .pending) →
        s.noticeEnded u (max s.clock t) slot { n with screens := screens } ans) ∧
      ∀ k ∈ keys, s.keyWaits k = false → (s.cacheSet (setOf k)).find k = none →
        ∀ w, (s.cacheSet (setOf k)).choose = some w →
          ∃ q, (u.way (setOf k) w).entry = some { key := k, state := .fetching 0 q, pins := 1 }) ∧
  ∀ (t : Time) (d : List Byte) (s : State) (j : Fin 32) (w : Fin 4) (e : CacheEntry) (q : Nat) (p : Progress)
      (x : NoticeWork) (a : KeyResult),
    s.ctl.engine ≠ .running → s.ctl.progress = some p → p.work = .notice x → (e.key, .pending) ∈ x.keys →
    (∀ r ∈ x.keys, r.2 = .pending → r.1 = e.key) →
    (∀ i : Screen16, x.screens.getLsbD i.val = true → s.isMonitor i = false) → s.answering (.fetch j w) →
    (s.way j w).cancelled = false →
    (s.way j w).entry = some e → e.state = .fetching q true →
    (∃ h c, matchAccess e.key d = some (h, c) ∧ a = .present h c) ∨
      (matchAccess e.key d = none ∧ 7 ≤ q ∧ a = .absent) →
    ∃ u, exec (.fetchAccessComplete t d) s = .next u ∧ u.trk = s.trk ∧ u.wlk = s.wlk ∧ u.desk = s.desk ∧
      u.ctl.engine = s.ctl.engine ∧
      s.noticeEnded u (max s.clock t) p.slot ⟨x.title, x.level, x.duration, x.screens⟩
        (x.keys.map fun r => if r.2 = .pending then (r.1, a) else r)

/-! ### Directives of the screens -/

/-- CLEAR: at each named level of each named screen the entry is removed and the pending request discarded, with nothing
counted as SKIPPED and nothing journalled; at its other levels, with no notice at its end and nothing released, entries and
requests stay. A named screen, no monitor, is then evaluated: on a READY link whose on-screen record is known, a SHOW of
the visible top that is left leaves where the record names another, or CLEAR with DEFAULT where none is left, and else
nothing (R130, R119, R123). A screen that is neither named nor the mirror monitor keeps all it has, and so do its link and
its line. The monitor is sent only what is copied from its source (R134): that it is not evaluated itself, whatever stands
there, is log entry 13, and that a copy sets its on-screen record log entry 14: the model's readings. -/
def Obligations.ClearCarriedOut : Prop :=
  ∀ (t : Time) (s : State) (slot : Slot) (words : List Nat), s.taken slot 8 words → s.ctl.engine ≠ .loading →
    let named (i : Screen16) : Prop := (screenMask (word words 0)).getLsbD i.val = true
    let left (i : Screen16) : Screen := (s.screen i).without (levelMask (word words 1))
    ∃ u, exec (.clear t) s = .next u ∧ s.handedBack u slot .ok [] ∧ u.finished slot ∧ s.sameShow u ∧
      u.ctl = { s.ctl with progress := none } ∧ u.clock = max s.clock t ∧ u.arb.mirror = s.arb.mirror ∧
      u.smi.journalCount = s.smi.journalCount ∧ (∀ i, (s.screen i).counted (u.screen i) .skipped 0) ∧
      (∀ (i : Screen16) (l : Level), named i → (levelMask (word words 1)).getLsbD l.val = true →
        (u.screen i).stack[l] = none ∧ (u.screen i).pendingAt[l] = none) ∧
      (∀ i, named i → s.isMonitor i = false → s.evaluatedQuietly u i (left i)) ∧
      (∀ i, ¬named i → s.isMonitor i = false → s.screenStands u i) ∧
      ∀ a mon, s.arb.mirror = some (a, mon) →
        (named mon → (u.screen mon).stack = (left mon).stack ∧ (u.screen mon).pendingAt = (left mon).pendingAt) ∧
        (¬named mon → (u.screen mon).stack = (s.screen mon).stack ∧
          (u.screen mon).pendingAt = (s.screen mon).pendingAt) ∧
        (¬named a → u.link mon = s.link mon ∧ u.framesOn mon = [] ∧ u.arb.hold = s.arb.hold ∧
          (named mon → u.screen mon = left mon) ∧ (¬named mon → u.screen mon = s.screen mon))

/-- SET MASK: the mask of the screen named is replaced, with level 0 never masked; every other screen keeps its mask
(R115). The pending requests of unmasked levels are taken before the visible top is settled and refreshed, so an entry
that a BLANK removes there buries nothing (R126, R123). That an entry left beneath the visible top loses its
visible-since is log entry 43, the model's reading. -/
def Obligations.SetMaskCarriedOut : Prop :=
  ∀ (t : Time) (s : State) (slot : Slot) (words : List Nat) (i : Screen16), s.taken slot 9 words →
    s.ctl.engine ≠ .loading → word words 0 = i.val →
    ∃ u, exec (.setMask t) s = .next u ∧ s.handedBack u slot .ok [] ∧ u.finished slot ∧ s.sameShow u ∧
      u.ctl = { s.ctl with progress := none } ∧
      (∀ l : Level, (u.screen i).masked l = (decide (l ≠ 0) && (BitVec.ofNat 8 (word words 1)).getLsbD l.val)) ∧
      (s.isMonitor i = false → s.maskSettled u i) ∧ s.othersStand u i ∧
      ∀ j, j ≠ i → (u.screen j).mask = (s.screen j).mask

/-- SET LAYOUT: on an empty stack the four slots are the layout in force at once, and else they are staged; nothing
else of any screen changes (R114). -/
def Obligations.SetLayoutCarriedOut : Prop :=
  ∀ (t : Time) (s : State) (slot : Slot) (words : List Nat) (i : Screen16) (l : Layout), s.taken slot 10 words →
    s.ctl.engine ≠ .loading → readLayout words = some (i, l) →
    ∃ u, exec (.setLayout t) s = .next u ∧ s.handedBack u slot .ok [] ∧ u.finished slot ∧ s.sameShow u ∧
      u.links = s.links ∧ u.ctl = { s.ctl with progress := none } ∧
      u.screen i = (if (s.screen i).stackEmpty then { s.screen i with layout := l, staged := none }
        else { s.screen i with staged := some l }) ∧
      ∀ j, j ≠ i → u.screen j = s.screen j

/-- SET SCREEN replaces three settings of a screen; SELECT COUNTERS replaces its selectors and sets a counter whose
selector changes to 0; CLEAR COUNTERS sets every counter of the named screens to 0. Nothing else of any screen
changes (R132, R137). -/
def Obligations.ScreenSettings : Prop :=
  (∀ (t : Time) (s : State) (slot : Slot) (words : List Nat) (i : Screen16) (n : Nat) (tr : Transition)
      (m : PrefixMode), s.taken slot 11 words → s.ctl.engine ≠ .loading → readSettings words = some (i, n, tr, m) →
    ∃ u, exec (.setScreen t) s = .next u ∧ s.handedBack u slot .ok [] ∧ u.finished slot ∧ s.sameShow u ∧
      u.links = s.links ∧ u.ctl = { s.ctl with progress := none } ∧
      u.screen i = { s.screen i with latency := n, preferred := tr, prefixMode := m } ∧
      ∀ j, j ≠ i → u.screen j = s.screen j) ∧
  (∀ (t : Time) (s : State) (slot : Slot) (words : List Nat) (i : Screen16) (sel : Vector CountEvent 3),
      s.taken slot 17 words → readSelectors words = some (i, sel) →
    ∃ u, exec (.selectCounters t) s = .next u ∧ s.handedBack u slot .ok [] ∧ u.finished slot ∧ s.sameShow u ∧
      u.links = s.links ∧ u.ctl = { s.ctl with progress := none } ∧ (u.screen i).selectors = sel ∧
      (∀ j : Fin 3, (u.screen i).counters[j] =
        if sel[j] = (s.screen i).selectors[j] then (s.screen i).counters[j] else 0) ∧
      u.screen i = { s.screen i with selectors := (u.screen i).selectors, counters := (u.screen i).counters } ∧
      ∀ j, j ≠ i → u.screen j = s.screen j) ∧
  ∀ (t : Time) (s : State) (slot : Slot) (words : List Nat), s.taken slot 18 words →
    ∃ u, exec (.clearCounters t) s = .next u ∧ s.handedBack u slot .ok [] ∧ u.finished slot ∧ s.sameShow u ∧
      u.links = s.links ∧ u.ctl = { s.ctl with progress := none } ∧
      ∀ i, u.screen i = if (screenMask (word words 0)).getLsbD i.val
        then { s.screen i with counters := #v[0, 0, 0] } else s.screen i

/-- SET MIRROR sets the pair it names and empties the monitor's stack and pending set (R133). A copy of the source's
display with CUT, a SHOW of its visible top or a CLEAR, leaves on the monitor's link when that is READY, and is held
else (R133, R134; its prefix decision is log entry 65, the model's choice). SET MIRROR OFF ends the pair and empties the
hold, and a CLEAR with CUT is sent on a READY monitor, owed to a BUSY one, and left to the resync of any other (R135). -/
def Obligations.SetMirrorCarriedOut : Prop :=
  (∀ (t : Time) (s : State) (slot : Slot) (words : List Nat) (a b : Screen16), s.taken slot 12 words →
    s.ctl.engine ≠ .loading → word words 0 = a.val → word words 1 = b.val → a ≠ b →
    ∃ u, exec (.setMirror t) s = .next u ∧ s.handedBack u slot .ok [] ∧ u.finished slot ∧ s.sameShow u ∧
      u.ctl = { s.ctl with progress := none } ∧ u.arb.mirror = some (a, b) ∧
      (∀ l : Level, (u.screen b).stack[l] = none ∧ (u.screen b).pendingAt[l] = none) ∧
      (s.arb.mirror = none →
        (u.screen b).blankPending = false ∧ (u.screen b).clearOwed = false ∧
        (∀ j, j ≠ b → u.screen j = s.screen j ∧ u.link j = s.link j) ∧
        ∃ m : Message, m.isDisplayOf (s.screen a) .cut ∧
          ((s.link b).state = .ready → (u.link b).state = .busy ∧ (u.link b).tag = (s.link b).tag + 1 ∧
            u.sent = [(b, messageFrame m ((s.link b).tag + 1) .cut (capacityOf (s.link b).caps))]) ∧
          ((s.link b).state ≠ .ready → s.linkStands u b ∧ u.arb.hold = some m))) ∧
  ∀ (t : Time) (s : State) (slot : Slot) (words : List Nat), s.taken slot 12 words → s.ctl.engine ≠ .loading →
    word words 1 = 255 →
    ∃ u, exec (.setMirror t) s = .next u ∧ s.handedBack u slot .ok [] ∧ u.finished slot ∧ s.sameShow u ∧
      u.ctl = { s.ctl with progress := none } ∧ u.arb.mirror = none ∧ (s.arb.mirror ≠ none → u.arb.hold = none) ∧
      (s.arb.mirror = none → u.arb = s.arb ∧ u.links = s.links) ∧
      ∀ a b, s.arb.mirror = some (a, b) → (∀ j, j ≠ b → u.screen j = s.screen j ∧ u.link j = s.link j) ∧
        ((s.link b).state = .ready → s.clearSent u b .cut ∧ (u.link b).op.map (·.transition) = some .cut) ∧
        ((s.link b).state = .busy → s.linkStands u b ∧ (u.screen b).onScreen = .unknown ∧
          (u.screen b).clearOwed = true) ∧
        ((s.link b).state ≠ .ready → (s.link b).state ≠ .busy → s.linkStands u b ∧
          (u.screen b).onScreen = .unknown ∧ (u.screen b).clearOwed = (s.screen b).clearOwed)

/-- PROBE SCREEN on a READY or FAULTED link: it enters PROBING with the next tag, HELLO leaves, LINK STATE is
journalled with the cause PROBE, and the outcome is OK. On a DOWN link the outcome is NO CARRIER, and on a BUSY or
PROBING one REFUSED STATE, and no link changes. A screen outside 0..15 gives REFUSED PARAMETER (R152, R142). That the
HELLO operation holds the transition CUT is log entry 64, and that the LINK STATE record has tag, capabilities, F and
send time 0 log entry 33: the model's choices. -/
def Obligations.ProbeScreenCarriedOut : Prop :=
  (∀ (t : Time) (s : State) (slot : Slot) (words : List Nat) (i : Screen16), s.taken slot 13 words →
    word words 0 = i.val →
    ∃ u, exec (.probeScreen t) s = .next u ∧ u.finished slot ∧ s.sameShow u ∧ u.arb = s.arb ∧
      u.ctl = { s.ctl with progress := none } ∧ (∀ j, j ≠ i → u.link j = s.link j) ∧
      ((s.link i).state = .ready ∨ (s.link i).state = .faulted → s.handedBack u slot .ok [] ∧
        u.link i = { s.link i with
          state := .probing, tag := (s.link i).tag + 1, hellos := 1, replyTimer := none
          retryTimer := some (max s.clock t + 1000000)
          op := some { kind := .helloMsg, tag := (s.link i).tag + 1, transition := .cut
                       sendTime := max s.clock t, subject := none } } ∧
        u.sent = [(i, helloFrame ((s.link i).tag + 1))] ∧
        (s.smi.journalQueue.length < 16 → u.smi.journalQueue = s.smi.journalQueue ++
          [⟨s.smi.journalCount, max s.clock t, .linkState i (s.link i).state.code 2 5 0 0 0 0 0⟩])) ∧
      ((s.link i).state = .down → s.handedBack u slot .noCarrier [] ∧ u.link i = s.link i ∧ u.sent = [] ∧
        u.smi.journalCount = s.smi.journalCount) ∧
      ((s.link i).state = .busy ∨ (s.link i).state = .probing → s.handedBack u slot .refusedState [] ∧
        u.link i = s.link i ∧ u.sent = [] ∧ u.smi.journalCount = s.smi.journalCount)) ∧
  ∀ (t : Time) (s : State) (slot : Slot) (words : List Nat), s.taken slot 13 words → 16 ≤ word words 0 →
    ∃ u, exec (.probeScreen t) s = .next u ∧ u.finished slot ∧ s.sameBlocks u ∧ u.sent = [] ∧
      u.ctl = { s.ctl with progress := none } ∧ s.handedBack u slot .refusedParameter []

/-! ### AMEND CUE and the descriptor directives -/

/-- AMEND CUE reads the record of the cue named in the urgent class. A record that fails a check ends it with
REFUSED PARAMETER and the fault code; one that passes, for a cue that is armed once and whose title, mask and scope
stay, replaces the copy's number and presentation fields, and its keys stay. It ends with OK, or with PARTIAL and an
eight-bit mask of the timing fields that differ and keep their armed value, from bit 0: action, anchor, level, pass
rule, bar, beat, tick, follow delay (R177, R97, R24, R15; 11_record_formats.md). That a timing field counts by its own
bytes, and that the keys stay while title, mask and scope do, is log entry 48, and that the record's presentation fields
are taken whatever its action now is, log entry 67: the model's. Reworked keys and a fire in RUNNING are not stated. -/
def Obligations.AmendCarriedOut : Prop :=
  (∀ (t : Time) (s : State) (slot : Slot) (words : List Nat) (sc : Script), s.taken slot 14 words →
    s.ctl.engine ≠ .idle → s.ctl.engine ≠ .loading → s.wlk.script = some sc → word words 0 < sc.cueCount →
    ∃ u, exec (.amendCue t) s = .next u ∧ s.sameBlocks u ∧ u.smi.rotation = slot ∧
      u.ctl = { s.ctl with progress := some ⟨slot, 14, words, .amend (word words 0)⟩ } ∧
      u.smi.outcomes = s.smi.outcomes ∧
      u.smi.port.holds (.read .amend (sc.cueTable + 32 * word words 0) 32 .urgent
        { FaultDetail.none with table := 4, index := word words 0 })) ∧
  (∀ (t : Time) (d : List Byte) (s : State) (p : Progress) (c : Nat) (sc : Script) (f : FaultCode),
    s.answering .amend → s.ctl.progress = some p → p.work = .amend c → s.wlk.script = some sc →
    checkCue sc.sections sc.bars sc.speakerCount c d = some f →
    ∃ u, exec (.amendReadComplete t d) s = .next u ∧ s.sameBlocks u ∧ u.ctl = { s.ctl with progress := none } ∧
      s.handedBack u p.slot .refusedParameter [0, 0, f.code]) ∧
  ∀ (t : Time) (d : List Byte) (s : State) (p : Progress) (c : Nat) (sc : Script) (e : Armed),
    s.answering .amend → s.ctl.progress = some p → p.work = .amend c → s.wlk.script = some sc →
    checkCue sc.sections sc.bars sc.speakerCount c d = none → s.ctl.engine ≠ .running →
    (s.sch.armed.filter fun x => x.cue == c) = [e] → e.copy.title = (parseCue d).title →
    e.copy.langs = (parseCue d).langs → e.copy.scope = (parseCue d).scope →
    ∃ u, exec (.amendReadComplete t d) s = .next u ∧ u.trk = s.trk ∧ u.wlk = s.wlk ∧ u.du = s.du ∧
      u.desk = s.desk ∧ u.arb = s.arb ∧ u.links = s.links ∧ u.ctl = { s.ctl with progress := none } ∧
      u.sch = { s.sch with armed := s.sch.armed.map fun x => if x.cue = c then
        { x with copy := { x.copy with
            number := (parseCue d).number, speaker := (parseCue d).speaker
            dwellOverride := (parseCue d).dwellOverride, override := (parseCue d).override } } else x } ∧
      s.handedBack u p.slot (if timingDiffers e.copy d = 0 then .ok else .partialDone) [timingDiffers e.copy d]

/-- INVALIDATE of one key: a key in no way changes nothing; an unpinned entry is removed, a read outstanding for it is
cancelled, and the way freed serves the oldest waiting item of its set; a pinned entry is fetched again from access 0
with its pins kept, and the result of every armed entry for the key is PENDING again. INVALIDATE of all keys does the
same to every entry, way by way; that nothing waits for a freed way's set is its premise here (R108, R109, R110,
R103). That the title and language words are then not read, and not checked, is log entry 35, the model's reading. -/
def Obligations.InvalidateCarriedOut : Prop :=
  (∀ (t : Time) (s : State) (slot : Slot) (words : List Nat) (k : Key), s.taken slot 15 words →
    s.ctl.engine ≠ .loading → word words 0 = 0 → word words 1 = k.title → k.title ≤ 65535 →
    word words 2 = k.lang.val →
    ∃ u, exec (.invalidate t) s = .next u ∧ s.handedBack u slot .ok [] ∧ u.finished slot ∧
      u.trk = s.trk ∧ u.wlk = s.wlk ∧ u.desk = s.desk ∧ u.arb = s.arb ∧ u.links = s.links ∧
      ((s.cacheSet (setOf k)).find k = none → u.du = s.du ∧ u.sch = s.sch) ∧
      ∀ (w : Fin 4) (e : CacheEntry), (s.cacheSet (setOf k)).find k = some w →
        (s.way (setOf k) w).entry = some e →
        (e.pins = 0 → u.sch = s.sch ∧
          ((∀ i ∈ s.du.queue, setOf i.key ≠ setOf k) → u.du.queue = s.du.queue ∧ u.way (setOf k) w =
            { entry := none, cancelled := (s.way (setOf k) w).cancelled || e.state.outstanding }) ∧
          ∀ (is : List WaitItem) (i : WaitItem) (js : List WaitItem), s.du.queue = is ++ i :: js →
            setOf i.key = setOf k → (∀ x ∈ is, setOf x.key ≠ setOf k) → u.du.queue = is ++ js ∧
            ∃ q, (u.way (setOf k) w).entry = some { key := i.key, state := .fetching 0 q, pins := i.pins }) ∧
        (0 < e.pins → u.du.queue = s.du.queue ∧
          (∃ q, u.way (setOf k) w = { entry := some { e with state := .fetching 0 q }
                                      cancelled := (s.way (setOf k) w).cancelled || e.state.outstanding }) ∧
          u.sch = { s.sch with armed := s.sch.armed.map fun x => { x with
            keys := x.keys.map fun r => if r.1 = k then (k, .pending) else r } })) ∧
  ∀ (t : Time) (s : State) (slot : Slot) (words : List Nat), s.taken slot 15 words →
    s.ctl.engine ≠ .loading → word words 0 = 1 →
    ∃ u, exec (.invalidate t) s = .next u ∧ s.handedBack u slot .ok [] ∧ u.finished slot ∧
      u.trk = s.trk ∧ u.wlk = s.wlk ∧ u.desk = s.desk ∧ u.arb = s.arb ∧ u.links = s.links ∧
      u.du.queue.Sublist s.du.queue ∧
      (∀ (j : Fin 32) (w : Fin 4), (s.way j w).entry = none → u.way j w = s.way j w) ∧
      (∀ (j : Fin 32) (w : Fin 4) (e : CacheEntry), (s.way j w).entry = some e →
        (0 < e.pins → ∃ q, u.way j w = { entry := some { e with state := .fetching 0 q }
                                         cancelled := (s.way j w).cancelled || e.state.outstanding }) ∧
        (e.pins = 0 → (∀ i ∈ s.du.queue, setOf i.key ≠ j) → u.way j w =
          { entry := none, cancelled := (s.way j w).cancelled || e.state.outstanding })) ∧
      ∃ pinned : List Key,
        (∀ k, k ∈ pinned ↔ ∃ j w e, (s.way j w).entry = some e ∧ e.key = k ∧ 0 < e.pins) ∧
        u.sch = { s.sch with armed := s.sch.armed.map fun x => { x with
          keys := x.keys.map fun r => if r.1 ∈ pinned then (r.1, .pending) else r } }

/-- WARM of one key that no way holds: a key that waits changes nothing; else a free way, or else an eligible one,
takes a FETCHING entry without pins, whose first read is queued in the background class; when no way can take it,
nothing changes (R107, R101, R105). A key that a way holds uses the way, which moves the marks of R101 alone. WARM of
one to eight keys takes them in the order given, one after another. That WARM moves neither the hit nor the miss count
is log entry 36, the model's reading. -/
def Obligations.WarmCarriedOut : Prop :=
  (∀ (t : Time) (s : State) (slot : Slot) (words : List Nat) (k : Key), s.taken slot 16 words →
    s.ctl.engine ≠ .idle → s.ctl.engine ≠ .loading → word words 0 = 1 → word words 1 = k.title + 65536 * k.lang.val →
    k.title ≤ 65535 → (s.cacheSet (setOf k)).find k = none →
    ∃ u, exec (.warm t) s = .next u ∧ s.handedBack u slot .ok [] ∧ u.finished slot ∧
      u.trk = s.trk ∧ u.wlk = s.wlk ∧ u.sch = s.sch ∧ u.desk = s.desk ∧ u.arb = s.arb ∧ u.links = s.links ∧
      u.du.queue = s.du.queue ∧ u.du.hits = s.du.hits ∧ u.du.misses = s.du.misses ∧
      (s.keyWaits k = true → u.du = s.du) ∧
      (s.keyWaits k = false → (s.cacheSet (setOf k)).choose = none → u.du = s.du) ∧
      ∀ w, s.keyWaits k = false → (s.cacheSet (setOf k)).choose = some w →
        (∃ q, (u.way (setOf k) w).entry = some { key := k, state := .fetching 0 q, pins := 0 }) ∧
        ∀ (a x : Nat), s.du.table = some (a, x) → (s.way (setOf k) w).cancelled = false →
          u.smi.port.holds (.read (.fetch (setOf k) w) (a + 128 * ((k.title + 8191 * k.lang.val) % 2 ^ x)) 32
            .background (fetchDetail a x k 0))) ∧
  (∀ (t : Time) (s : State) (slot : Slot) (words : List Nat) (k : Key) (w : Fin 4), s.taken slot 16 words →
    s.ctl.engine ≠ .idle → s.ctl.engine ≠ .loading → word words 0 = 1 → word words 1 = k.title + 65536 * k.lang.val →
    k.title ≤ 65535 → (s.cacheSet (setOf k)).find k = some w →
    ∃ u, exec (.warm t) s = .next u ∧ s.handedBack u slot .ok [] ∧ u.finished slot ∧
      (u.cacheSet (setOf k)).ways = (s.cacheSet (setOf k)).ways ∧ (s.cacheSet (setOf k)).used (u.cacheSet (setOf k)) w ∧
      (∀ j, j ≠ setOf k → u.cacheSet j = s.cacheSet j) ∧ u.du = { s.du with sets := u.du.sets }) ∧
  ∀ (t : Time) (s : State) (slot : Slot) (words : List Nat) (keys : List Key), s.taken slot 16 words →
    s.ctl.engine ≠ .idle → s.ctl.engine ≠ .loading → word words 0 = keys.length → 1 ≤ keys.length →
    keys.length ≤ 8 → (∀ k ∈ keys, k.title ≤ 65535) →
    (∀ (i : Nat) (h : i < keys.length), word words (i + 1) = keys[i].title + 65536 * keys[i].lang.val) →
    ∃ u v, exec (.warm t) s = .next u ∧ s.handedBack u slot .ok [] ∧ u.finished slot ∧
      u.trk = s.trk ∧ u.wlk = s.wlk ∧ u.sch = s.sch ∧ u.desk = s.desk ∧ u.arb = s.arb ∧ u.links = s.links ∧
      State.warmedInTurn keys (s.begin t) v ∧ u.du = v.du ∧
      ∀ a, v.smi.port.holds a → a.purpose ≠ .take slot → u.smi.port.holds a

/-! ### Reads of the script and of titles -/

/-- LOAD reads: the first half of the header is held and the second read; the whole header is checked, and then its
regions, and the section table is read next (R17, R18). A record that fails its check ends the LOAD with SCRIPT REJECTED
and the fault found, and the engine is IDLE; after a table's records all pass the LOAD goes on with the next table, and
after the last one the script is held and the engine is LOADED (R16, R168, R14, R2, R111). Each record is taken by the
first of its checks that fails: header (R17), regions (R18), section (R19), bar and speaker (R20), cue (R21), and the
order of POSITION cues (R22). -/
def Obligations.LoadReads : Prop :=
  (∀ (t : Time) (d : List Byte) (s : State) (p : Progress) (w : LoadWork), s.answering .load →
    s.ctl.progress = some p → p.work = .load w → w.table = .header → w.next = 0 → d.length = 32 →
    ∃ u, exec (.loadReadComplete t d) s = .next u ∧ s.sameBlocks u ∧
      u.ctl = { s.ctl with progress := some { p with work := .load { w with next := 32, buffer := d } } } ∧
      u.smi.port.holds (.read .load (w.headerAddress + 32) 32 .background { FaultDetail.none with table := 1 })) ∧
  (∀ (t : Time) (d half : List Byte) (s : State) (p : Progress) (w : LoadWork), s.answering .load →
    s.ctl.progress = some p → p.work = .load w → w.table = .header → w.next = 32 → w.buffer = half →
    (∀ c, checkHeader (half ++ d.take 32) = some c → ∃ u, exec (.loadReadComplete t d) s = .next u ∧ s.sameBlocks u ∧
      u.ctl = { s.ctl with engine := .idle, progress := none } ∧
      s.handedBack u p.slot .scriptRejected [1, 0, c.code, 0]) ∧
    (∀ n c, checkHeader (half ++ d.take 32) = none →
      checkRegions s.smi.base w.headerAddress (parseHeader (half ++ d.take 32)) = some (n, c) →
      ∃ u, exec (.loadReadComplete t d) s = .next u ∧ s.sameBlocks u ∧
        u.ctl = { s.ctl with engine := .idle, progress := none } ∧
        s.handedBack u p.slot .scriptRejected [n.code, 0, c.code, 0]) ∧
    (checkHeader (half ++ d.take 32) = none →
      checkRegions s.smi.base w.headerAddress (parseHeader (half ++ d.take 32)) = none →
      ∃ u, exec (.loadReadComplete t d) s = .next u ∧ s.sameBlocks u ∧ u.smi.outcomes = s.smi.outcomes ∧
        u.ctl = { s.ctl with progress := some { p with work := .load { w with
          header := parseHeader (half ++ d.take 32), table := .sec, next := 0, buffer := [] } } } ∧
        u.smi.port.holds (.read .load (u32 (half ++ d.take 32) 12) (min 32 (16 * u16 (half ++ d.take 32) 4))
          .background { FaultDetail.none with table := 2 }))) ∧
  (∀ (t : Time) (d : List Byte) (s : State) (p : Progress) (w : LoadWork), s.answering .load →
    s.ctl.progress = some p → p.work = .load w → w.table ≠ .header →
    (∀ f, w.takeRecords s.smi.base (w.accessLength / w.recordSize) w.index (d.take w.accessLength) = .error f →
      ∃ u, exec (.loadReadComplete t d) s = .next u ∧ s.sameBlocks u ∧
        u.ctl = { s.ctl with engine := .idle, progress := none } ∧
        s.handedBack u p.slot .scriptRejected [f.table.code, f.index, f.code.code, 0]) ∧
    ∀ v, w.takeRecords s.smi.base (w.accessLength / w.recordSize) w.index (d.take w.accessLength) = .ok v →
      (w.next + w.accessLength < v.length →
        ∃ u, exec (.loadReadComplete t d) s = .next u ∧ s.sameBlocks u ∧ u.smi.outcomes = s.smi.outcomes ∧
          u.ctl = { s.ctl with
            progress := some { p with work := .load { v with next := w.next + w.accessLength } } } ∧
          u.smi.port.holds (.read .load (v.start + (w.next + w.accessLength))
            (min 32 (v.length - (w.next + w.accessLength))) .background { FaultDetail.none with
              table := v.table.code, index := (w.next + w.accessLength) / v.recordSize })) ∧
      (∀ n, v.length ≤ w.next + w.accessLength → v.nextTable = some n →
        ∃ u, exec (.loadReadComplete t d) s = .next u ∧ s.sameBlocks u ∧ u.smi.outcomes = s.smi.outcomes ∧
          u.ctl = { s.ctl with
            progress := some { p with work := .load { v with table := n, next := 0, buffer := [] } } } ∧
          u.smi.port.holds (.read .load { v with table := n }.start (min 32 { v with table := n }.length) .background
            { FaultDetail.none with table := n.code })) ∧
      (v.length ≤ w.next + w.accessLength → v.nextTable = none →
        ∃ u, exec (.loadReadComplete t d) s = .next u ∧
          u.ctl = { s.ctl with engine := .loaded, progress := none } ∧
          s.handedBack u p.slot .ok
            [v.header.sectionCount, v.header.barCount, v.header.cueCount, v.header.speakerCount] ∧
          (∃ sc, u.wlk = { s.wlk with script := some sc } ∧ sc.sections = v.sections ∧ sc.bars = v.bars ∧
            sc.speakers = v.speakers ∧ sc.cueCount = v.header.cueCount ∧ sc.cueTable = v.header.cueTable) ∧
          u.du = { s.du with table := some (v.header.titleTable, v.header.exponent) } ∧
          u.arb = { s.arb with dwellBase := v.header.dwellBase, dwellPerChar := v.header.dwellPerChar } ∧
          u.trk = s.trk ∧ u.sch = s.sch ∧ u.desk = s.desk ∧ u.links = s.links)) ∧
  recordsTakenInTurn ∧ headerChecked ∧ regionsChecked ∧ sectionChecked ∧ barChecked ∧ cueChecked ∧ orderChecked

/-- An offer read. A record that passes the checks, whose cue is in the window and not armed, is armed at the place that
performance order gives it, in the first timing state of its anchor; its keys are requested with it, and an owed GO that
goes with it is spent (R67, R65, R60, R75, R76, R102, R103). That stands while nothing is DUE or nothing may fire; a cue
DUE and complete at once, alone in RUNNING, fires (R87). A record that fails a check is dropped with CUE REJECTED; one
that is to be discarded hands nothing and journals nothing (R67, R21, R68). A cue beyond the look-ahead waits for its
target, at the cursor; one that its pass rule, a predecessor not handed or a target below 0 has passed over is left
behind without a record; and one armed already holds the cursor in a BEAT section and lets it go on in a CALLED one
(R66, R67; the flag that holds it is log entry 19, the model's own). The overrun of the cursor (R66) is in
BeatArrivals. That keys are requested in ascending language is log entry 60, the model's choice. -/
def Obligations.OfferReads : Prop :=
  (∀ (t : Time) (d : List Byte) (s : State) (c : Cursor) (sc : Script) (x : Section),
    s.answering (.offer false) → s.wlk.cursor = some c → s.wlk.script = some sc → s.wlk.sec c.sec = some x →
    checkCue sc.sections sc.bars sc.speakerCount c.cue d = none →
    ¬s.passesOver c x (parseCue d) →
    (∀ p, s.targetOf c x (parseCue d).anchor = some p → p.1 ≤ s.horizon) → s.armedEntry c.cue c.pass = none →
    (x.mode = .called → s.wlk.calledOffers < 4 ∨ (s.wlk.inForce = .sec c.sec ∧ s.wlk.fireCursor = some c.cue) ∨
      ((∃ delay, (parseCue d).anchor = .follow delay) ∧ 0 < c.cue ∧ s.wlk.lastHanded = some (c.cue - 1, c.pass))) →
    s.ctl.engine ≠ .running ∨ s.sch.freeze = true ∨
      ((∀ y ∈ s.sch.armed, y.timing ≠ .due) ∧ (s.armedFor (max s.clock t) c x (parseCue d)).timing ≠ .due) →
    ∃ u, exec (.offerReadComplete t d) s = .next u ∧ u.trk = s.trk ∧ u.desk = s.desk ∧ u.arb = s.arb ∧
      u.links = s.links ∧ u.ctl = s.ctl ∧ u.smi.journalCount = s.smi.journalCount ∧
      s.armedInPlace u (s.armedFor (max s.clock t) c x (parseCue d)) ∧
      u.armedEntry c.cue c.pass = some (s.armedFor (max s.clock t) c x (parseCue d)) ∧
      s.keysRequested u (max s.clock t) (s.keysOf (parseCue d)) ∧
      u.wlk.lastHanded = some (c.cue, c.pass) ∧ u.wlk.waiting = none ∧
      u.wlk.owedGo = (if s.owedWith c (parseCue d) = none then s.wlk.owedGo else none) ∧
      u.wlk.calledOffers = s.wlk.calledOffers + (if x.mode = .called then 1 else 0) ∧
      (c.cue + 1 < x.cueEnd → u.wlk.cursor = some { c with cue := c.cue + 1 })) ∧
  (∀ (s : State) (copy : Cue), s.keysAre copy (s.keysOf copy)) ∧
  (∀ (t : Time) (d : List Byte) (s : State) (c : Cursor) (sc : Script) (x : Section),
    s.ctl.engine = .running → s.sch.freeze = false → s.sch.armed = [] →
    s.answering (.offer false) → s.wlk.cursor = some c → s.wlk.script = some sc → s.wlk.sec c.sec = some x →
    checkCue sc.sections sc.bars sc.speakerCount c.cue d = none → ¬s.passesOver c x (parseCue d) →
    (∀ p, s.targetOf c x (parseCue d).anchor = some p → p.1 ≤ s.horizon) →
    (x.mode = .called → s.wlk.calledOffers < 4) →
    (s.armedFor (max s.clock t) c x (parseCue d)).timing = .due →
    (∀ p ∈ (s.armedFor (max s.clock t) c x (parseCue d)).keys, p.2 ≠ .pending) →
    ∃ u, exec (.offerReadComplete t d) s = .next u ∧ u.sch.armed = [] ∧ u.sch.fireRecord = some {
      cue := c.cue, pass := c.pass
      appear := ((s.armedFor (max s.clock t) c x (parseCue d)).appear).getD 0 }) ∧
  (∀ (t : Time) (d : List Byte) (s : State) (c : Cursor) (sc : Script) (x : Section) (f : FaultCode),
    s.ctl.engine ≠ .running ∨ s.nothingFires → s.answering (.offer false) → s.wlk.cursor = some c →
    s.wlk.script = some sc →
    s.wlk.sec c.sec = some x → checkCue sc.sections sc.bars sc.speakerCount c.cue d = some f →
    s.wlk.owedGo = none → s.smi.journalQueue.length < 16 →
    ∃ u, exec (.offerReadComplete t d) s = .next u ∧ u.trk = s.trk ∧ u.desk = s.desk ∧ u.arb = s.arb ∧
      u.links = s.links ∧ u.ctl = s.ctl ∧ u.sch = s.sch ∧ u.du = s.du ∧ (c.cue, c.pass) ∈ u.wlk.unhanded ∧
      u.smi.journalQueue = s.smi.journalQueue ++
        [⟨s.smi.journalCount, max s.clock t, .cueRejected f.code c.cue (u16 d 0) 0⟩]) ∧
  (∀ (t : Time) (d : List Byte) (s : State), s.ctl.engine ≠ .running ∨ s.nothingFires → s.answering (.offer true) →
    ∃ u, exec (.offerReadComplete t d) s = .next u ∧ u.trk = s.trk ∧ u.desk = s.desk ∧ u.arb = s.arb ∧
      u.links = s.links ∧ u.ctl = s.ctl ∧ u.sch = s.sch ∧ u.du = s.du ∧
      u.smi.journalCount = s.smi.journalCount ∧ u.smi.journalQueue = s.smi.journalQueue) ∧
  ∀ (t : Time) (d : List Byte) (s : State) (c : Cursor) (sc : Script) (x : Section),
    s.ctl.engine ≠ .running ∨ s.nothingFires → s.answering (.offer false) → s.wlk.cursor = some c →
    s.wlk.script = some sc → s.wlk.sec c.sec = some x → c.cue < x.cueEnd →
    checkCue sc.sections sc.bars sc.speakerCount c.cue d = none →
    (¬s.passesOver c x (parseCue d) → ∀ b tick, x.mode = .beat →
      s.targetOf c x (parseCue d).anchor = some (b, tick) → s.horizon < b →
      ∃ u, exec (.offerReadComplete t d) s = .next u ∧ s.nothingHanded u ∧
        u.wlk = { s.wlk with reading := false, waiting := some b }) ∧
    (s.passesOver c x (parseCue d) → s.wlk.owedGo = none →
      ∃ u, exec (.offerReadComplete t d) s = .next u ∧ s.nothingHanded u ∧ u.wlk.lastHanded = s.wlk.lastHanded ∧
        (c.cue, c.pass) ∈ u.wlk.unhanded ∧ u.wlk.waiting = none ∧
        (c.cue + 1 < x.cueEnd → u.wlk.cursor = some { c with cue := c.cue + 1 })) ∧
    (¬s.passesOver c x (parseCue d) → (∀ p, s.targetOf c x (parseCue d).anchor = some p → p.1 ≤ s.horizon) →
      s.armedEntry c.cue c.pass ≠ none →
      ∃ u, exec (.offerReadComplete t d) s = .next u ∧ s.nothingHanded u ∧ u.wlk.lastHanded = s.wlk.lastHanded ∧
        u.wlk.unhanded = s.wlk.unhanded ∧ (x.mode = .beat → u.wlk.cursor = some c ∧ u.wlk.reading = false) ∧
        (x.mode = .called → c.cue + 1 < x.cueEnd → u.wlk.cursor = some { c with cue := c.cue + 1 }))

/-- An access of the fetch of a pinned entry, while nothing may fire and no NOTICE waits: a descriptor that matches the key
makes the entry VALID with its handle and count, and each armed result PENDING for the key PRESENT with both; without a
match the next access is queued, and after the eighth the entry and each such result are ABSENT; nothing else of the
scheduler changes. The fetch of an unpinned entry makes its accesses in the background class, and ends and answers in the
same way; its way is then eligible, and the oldest waiting item of its set takes it. In RUNNING the answer to the last
PENDING key of a DUE cue alone in the list fires it (R87). A cancelled read ends without touching its way's entry, and the
first access of a new fetch on the way is then queued (R98, R99, R103, R105, R89, R109). -/
def Obligations.FetchAnswers : Prop :=
  (∀ (t : Time) (d : List Byte) (s : State) (j : Fin 32) (w : Fin 4) (e : CacheEntry) (n : Nat),
    s.ctl.engine ≠ .running ∨ s.sch.freeze = true → s.noticeWork = none → s.answering (.fetch j w) →
    (s.way j w).cancelled = false → (s.way j w).entry = some e → e.state = .fetching n true → 0 < e.pins →
    ∃ u, exec (.fetchAccessComplete t d) s = .next u ∧ u.trk = s.trk ∧ u.wlk = s.wlk ∧ u.desk = s.desk ∧
      u.arb = s.arb ∧ u.links = s.links ∧ u.ctl = s.ctl ∧ u.du.queue = s.du.queue ∧
      (∀ (h : BitVec 32) (c : Nat), matchAccess e.key d = some (h, c) →
        (u.way j w).entry = some { e with state := .valid h c } ∧ s.answeredWith u e.key (.present h c)) ∧
      (matchAccess e.key d = none → n < 7 →
        (∃ q, (u.way j w).entry = some { e with state := .fetching (n + 1) q }) ∧ u.sch = s.sch ∧
        ∀ (a x : Nat), s.du.table = some (a, x) →
          u.smi.port.holds (.read (.fetch j w) (fetchAddress a x e.key (n + 1)) 32 .urgent
            (fetchDetail a x e.key (n + 1)))) ∧
      (matchAccess e.key d = none → 7 ≤ n → (u.way j w).entry = some { e with state := .absent } ∧
        s.answeredWith u e.key .absent)) ∧
  (∀ (t : Time) (d : List Byte) (s : State) (j : Fin 32) (w : Fin 4) (e : CacheEntry) (n : Nat),
    s.ctl.engine ≠ .running ∨ s.sch.freeze = true → s.noticeWork = none → s.answering (.fetch j w) →
    (s.way j w).cancelled = false → (s.way j w).entry = some e → e.state = .fetching n true → e.pins = 0 →
    ∃ u, exec (.fetchAccessComplete t d) s = .next u ∧ u.trk = s.trk ∧ u.wlk = s.wlk ∧ u.desk = s.desk ∧
      u.arb = s.arb ∧ u.links = s.links ∧ u.ctl = s.ctl ∧
      (∀ (h : BitVec 32) (c : Nat), matchAccess e.key d = some (h, c) →
        s.servedOr u j w (some { e with state := .valid h c }) ∧ s.answeredWith u e.key (.present h c)) ∧
      (matchAccess e.key d = none → 7 ≤ n →
        s.servedOr u j w (some { e with state := .absent }) ∧ s.answeredWith u e.key .absent) ∧
      (matchAccess e.key d = none → n < 7 → u.sch = s.sch ∧ u.du.queue = s.du.queue ∧
        ∀ (a x : Nat), s.du.table = some (a, x) →
          (u.way j w).entry = some { e with state := .fetching (n + 1) true } ∧
          u.smi.port.holds (.read (.fetch j w) (fetchAddress a x e.key (n + 1)) 32 .background
            (fetchDetail a x e.key (n + 1))))) ∧
  (∀ (t : Time) (d : List Byte) (s : State) (j : Fin 32) (w : Fin 4) (e : CacheEntry) (n : Nat) (y : Armed),
    s.ctl.engine = .running → s.sch.freeze = false → s.noticeWork = none → s.wlk.owedGo = none →
    s.answering (.fetch j w) → (s.way j w).cancelled = false → (s.way j w).entry = some e →
    e.state = .fetching n true → s.sch.armed = [y] → y.timing = .due → (∀ r ∈ y.keys, r.2 = .pending → r.1 = e.key) →
    matchAccess e.key d ≠ none ∨ 7 ≤ n →
    ∃ u, exec (.fetchAccessComplete t d) s = .next u ∧ u.sch.armed = [] ∧
      u.sch.fireRecord = some { cue := y.cue, pass := y.pass, appear := y.appear.getD 0 }) ∧
  ∀ (t : Time) (s : State) (j : Fin 32) (w : Fin 4), s.answering (.fetch j w) → (s.way j w).cancelled = true →
    ∃ u, exec (.cancelledReadComplete t) s = .next u ∧ (u.way j w).cancelled = false ∧
      (u.way j w).entry.map (·.key) = (s.way j w).entry.map (·.key) ∧
      (u.way j w).entry.map (·.pins) = (s.way j w).entry.map (·.pins) ∧
      u.trk = s.trk ∧ u.wlk = s.wlk ∧ u.sch = s.sch ∧ u.desk = s.desk ∧ u.arb = s.arb ∧ u.links = s.links ∧
      u.ctl = s.ctl ∧ u.du.queue = s.du.queue ∧
      ∀ (e : CacheEntry) (a x : Nat), (s.way j w).entry = some e → s.du.table = some (a, x) →
        e.state = .fetching 0 false → (u.way j w).entry = some { e with state := .fetching 0 true } ∧
        u.smi.port.holds (.read (.fetch j w) (fetchAddress a x e.key 0) 32
          (if 0 < e.pins then .urgent else .background) (fetchDetail a x e.key 0))

/-! ### The journal, the status and faulted accesses -/

/-- A record produced takes the journal count as its sequence number and joins the tail of the journal queue, unless
16 records stand there: then it is dropped. The count rises by 1 in both cases, and wraps (R190). -/
def Obligations.RecordProduced : Prop :=
  ∀ (t : Time) (b : Journal) (s : State),
    (s.journalAt t b).smi.journalCount =
      (if s.smi.journalCount = 4294967295 then 0 else (s.smi.journalCount + 1) % 4294967296) ∧
    (s.smi.journalQueue.length < 16 →
      (s.journalAt t b).smi.journalQueue = s.smi.journalQueue ++ [⟨s.smi.journalCount, t, b⟩]) ∧
    (16 ≤ s.smi.journalQueue.length → (s.journalAt t b).smi.journalQueue = s.smi.journalQueue ∧
      (s.journalAt t b).smi.port = s.smi.port)

/-- A record that joins the empty queue is written at its place of the 256, by its sequence number. The record write is
followed by the count write, of that number plus 1; when that completes CAUSE.JOURNAL is set, the record leaves the
queue, and the next one is written at its place. A fault of either write drops the record, counts one more lost write,
sets CAUSE.MEMORY and no other flag, and produces no record. The resets empty the queue and set the count to 0: after a
soft reset the queue holds the reset's own records, numbered from 0 (R191). -/
def Obligations.JournalWrites : Prop :=
  (∀ (t : Time) (b : Journal) (s : State), s.smi.journalQueue = [] → s.smi.journalPhase = .idle →
    (s.journalAt t b).smi.journalPhase = .record ∧ (s.journalAt t b).smi.port.holds (.writing .journalRecord
      (s.smi.base + 8192 + 32 * (s.smi.journalCount % 256)) (JournalRecord.bytes ⟨s.smi.journalCount, t, b⟩)
      .urgent)) ∧
  (∀ (t : Time) (s : State) (r : JournalRecord) (rs : List JournalRecord), s.answering .journalRecord →
    s.smi.journalQueue = r :: rs →
    ∃ u, exec (.journalRecordWrite t) s = .next u ∧ u.smi.journalPhase = .count ∧
      u.smi.journalQueue = s.smi.journalQueue ∧ u.smi.flags = s.smi.flags ∧
      u.smi.port.holds (.writing .journalCount s.smi.base (le 4 ((r.seq + 1) % 4294967296)) .urgent)) ∧
  (∀ (t : Time) (s : State) (r : JournalRecord), s.answering .journalCount → s.smi.journalQueue = [r] →
    ∃ u, exec (.journalCountWrite t) s = .next u ∧ u.smi.journalPhase = .idle ∧ u.smi.journalQueue = [] ∧
      u.smi.flags = { s.smi.flags with journal := true }) ∧
  (∀ (t : Time) (s : State) (r q : JournalRecord) (rs : List JournalRecord), s.answering .journalCount →
    s.smi.journalQueue = r :: q :: rs →
    ∃ u, exec (.journalCountWrite t) s = .next u ∧ u.smi.journalPhase = .record ∧ u.smi.journalQueue = q :: rs ∧
      u.smi.flags = { s.smi.flags with journal := true } ∧
      u.smi.port.holds (.writing .journalRecord (s.smi.base + 8192 + 32 * (q.seq % 256)) q.bytes .urgent)) ∧
  (∀ (t : Time) (s : State) (f : InFlight) (r : JournalRecord) (rs : List JournalRecord),
    s.smi.port.inFlight = some f → f.abandoned = false → f.granted + 100 ≤ max s.clock t →
    f.access.purpose = .journalRecord ∨ f.access.purpose = .journalCount → s.smi.journalQueue = r :: rs →
    ∃ u, exec (.accessTimeout t) s = .next u ∧ u.smi.flags = { s.smi.flags with memory := true } ∧
      u.smi.journalCount = s.smi.journalCount ∧ u.smi.journalQueue = rs ∧
      u.smi.journalLost = min 4294967295 (s.smi.journalLost + 1) ∧
      (rs = [] → u.smi.journalPhase = .idle) ∧
      ∀ (q : JournalRecord) (qs : List JournalRecord), rs = q :: qs → u.smi.journalPhase = .record ∧
        u.smi.port.holds (.writing .journalRecord (s.smi.base + 8192 + 32 * (q.seq % 256)) q.bytes .urgent)) ∧
  State.reset.smi.journalCount = 0 ∧ State.reset.smi.journalQueue = [] ∧
  ∀ (t : Time) (v : BitVec 32) (s : State), ∃ u, exec (.reset t v) s = .next u ∧
    u.smi.journalQueue.map (·.seq) = List.range u.smi.journalQueue.length

/-- Each expiry of the status timer re-arms it 50,000 µs on and starts a refresh when none is writing, with the
next tag and the snapshot of this instant, and else marks one as owed; each write is followed by the next, and
after the last one an owed refresh starts (R192, R193). The snapshot is written in 22 accesses, the header from offset
4, the counters from 0x0800 and the per-screen status from 0x0900, and holds every block's fields at their bytes (R193,
R194). That each write is queued once the one before has completed, at the BASE that then holds, is log entry 71, an
overdue timer re-armed from its own expiry 50, absent values and cursors at an end 33 and 61, and outcomes unwritten
while no write of them is in flight 72: the model's. -/
def Obligations.StatusRefresh : Prop :=
  (∀ (t : Time) (s : State), s.smi.statusTimer ≤ max s.clock t → s.smi.refresh = .idle →
    ∃ u, exec (.statusTimer t) s = .next u ∧ u.smi.statusTimer = s.smi.statusTimer + 50000 ∧
      u.smi.refreshTag = (s.smi.refreshTag + 1) % 4294967296 ∧
      u.smi.port.holds (.writing .status (s.smi.base + 4)
        (((s.begin t).statusHeader ((s.smi.refreshTag + 1) % 4294967296)).take 32) .background) ∧
      u.smi.refresh = .writing (snapshotWrites ((s.begin t).statusHeader ((s.smi.refreshTag + 1) % 4294967296))
        (s.begin t).statusCounters (s.begin t).statusScreens).tail false) ∧
  (∀ (t : Time) (s : State) (rest : List (Nat × List Byte)) (owed : Bool),
    s.smi.statusTimer ≤ max s.clock t → s.smi.refresh = .writing rest owed →
    exec (.statusTimer t) s = .next { s.begin t with smi := { s.smi with
      statusTimer := s.smi.statusTimer + 50000, refresh := .writing rest true } }) ∧
  (∀ (t : Time) (s : State) (o : Nat) (bs : List Byte) (rest : List (Nat × List Byte)) (owed : Bool),
    s.answering .status → s.smi.refresh = .writing ((o, bs) :: rest) owed →
    ∃ u, exec (.statusWrite t) s = .next u ∧ u.smi.refresh = .writing rest owed ∧
      u.smi.refreshTag = s.smi.refreshTag ∧
      u.smi.port.holds (.writing .status (s.smi.base + o) bs .background)) ∧
  (∀ (t : Time) (s : State), s.answering .status → s.smi.refresh = .writing [] false →
    ∃ u, exec (.statusWrite t) s = .next u ∧ u.smi.refresh = .idle ∧ u.smi.refreshTag = s.smi.refreshTag) ∧
  (∀ (t : Time) (s : State), s.answering .status → s.smi.refresh = .writing [] true →
    ∃ u, exec (.statusWrite t) s = .next u ∧ u.smi.refreshTag = (s.smi.refreshTag + 1) % 4294967296 ∧
      u.smi.port.holds (.writing .status (s.smi.base + 4)
        (((s.begin t).statusHeader ((s.smi.refreshTag + 1) % 4294967296)).take 32) .background)) ∧
  ∀ (tag : Nat) (s : State), s.snapshotIs tag (s.statusHeader tag) s.statusCounters s.statusScreens

/-- The grant of a free port: the oldest access of the only queue that holds one; and where both hold one, under
STRICT the urgent one, and under a number W the urgent one while the counter is below W, which raises it, else the
background one, which clears it. A background grant alone clears the counter, an urgent grant alone leaves it (R184). -/
def Obligations.PortGrants : Prop :=
  ∀ (now : Time) (p : Port) (a b : Access) (us bs : List Access), p.inFlight = none →
    (p.urgent = a :: us → p.background = [] →
      p.grant now = { p with urgent := us, inFlight := some ⟨a, now, false⟩ }) ∧
    (p.urgent = [] → p.background = b :: bs →
      p.grant now = { p with background := bs, inFlight := some ⟨b, now, false⟩, counter := 0 }) ∧
    (p.urgent = a :: us → p.background = b :: bs →
      (p.weight = .strict → p.grant now = { p with urgent := us, inFlight := some ⟨a, now, false⟩ }) ∧
      ∀ w, p.weight = .grants w →
        (p.counter < w →
          p.grant now = { p with urgent := us, inFlight := some ⟨a, now, false⟩, counter := p.counter + 1 }) ∧
        (w ≤ p.counter →
          p.grant now = { p with background := bs, inFlight := some ⟨b, now, false⟩, counter := 0 }))

/-- An access with no answer 100 µs after its grant is faulted and leaves the port: CAUSE.MEMORY is set, and for any
but the journal's own writes MEMORY FAULT is produced with the access and its grant time (R185). The record of a fetch
is the last of its fault (R106); that of another requester stands first, which is log entry 27, the model's reading, as
is 33, that CUE REJECTED for MEMORY has cue number 0. The requester is told: a LOAD ends with MEMORY FAULT (R23); an
offer is dropped with the reason MEMORY (R68); a fetch frees its way and answers FAULTED, and a cancelled read just
ends (R106, R109; that an entry answered FAULTED holds no pin is log entry 45); an AMEND CUE ends with MEMORY FAULT
(R177); a scan or a sweep ends with nothing taken (R187, R189); an outcome is unwritten (R188); a refresh ends (R193).
Which outcome of a slot the write belongs to is log entry 51, the model's choice. An access that a soft reset abandoned
is let go without a record, and before the 100 µs nothing happens (log entry 2). -/
def Obligations.AccessTimedOut : Prop :=
  (∀ (t : Time) (s : State) (f : InFlight), s.smi.port.inFlight = some f → f.abandoned = false →
    f.granted + 100 ≤ max s.clock t →
    ∃ u, exec (.accessTimeout t) s = .next u ∧ u.smi.flags.memory = true ∧ u.smi.port.sound ∧
      u.smi.port.inFlight ≠ some f ∧
      (f.access.purpose.isJournal = false → (∀ j w, f.access.purpose ≠ .fetch j w) →
        s.smi.journalQueue.length < 16 →
        (⟨s.smi.journalCount, f.granted, f.access.faultRecord⟩ : JournalRecord) ∈ u.smi.journalQueue) ∧
      ∀ j w, f.access.purpose = .fetch j w → u.smi.journalQueue.length < 16 →
        ∃ rs n, u.smi.journalQueue = rs ++ [⟨n, f.granted, f.access.faultRecord⟩] ∧
          (n + 1) % 4294967296 = u.smi.journalCount) ∧
  (∀ (t : Time) (s : State) (f : InFlight), s.smi.port.inFlight = some f → f.abandoned = true →
    f.granted + 100 ≤ max s.clock t → exec (.accessTimeout t) s = .next (s.begin t).freePort) ∧
  (∀ (t : Time) (s : State) (f : InFlight), s.smi.port.inFlight = some f → max s.clock t < f.granted + 100 →
    exec (.accessTimeout t) s = .next (s.begin t)) ∧
  (∀ (t : Time) (s : State) (p : Progress) (w : LoadWork), s.overdue t .load → s.ctl.progress = some p →
    p.work = .load w →
    ∃ u, exec (.accessTimeout t) s = .next u ∧ s.sameBlocks u ∧
      u.ctl = { s.ctl with engine := .idle, progress := none } ∧
      s.handedBack u p.slot .memoryFault [w.table.code, w.index, 0, 0]) ∧
  (∀ (t : Time) (s : State) (p : Progress) (c : Nat), s.overdue t .amend → s.ctl.progress = some p →
    p.work = .amend c →
    ∃ u, exec (.accessTimeout t) s = .next u ∧ s.sameBlocks u ∧ u.ctl = { s.ctl with progress := none } ∧
      s.handedBack u p.slot .memoryFault []) ∧
  (∀ (t : Time) (s : State) (c : Cursor) (x : Section), s.overdue t (.offer false) → s.ctl.engine = .armed →
    s.wlk.cursor = some c → s.wlk.sec c.sec = some x → c.cue + 1 < x.cueEnd → s.wlk.owedGo = none →
    s.smi.journalQueue.length < 15 →
    ∃ u, exec (.accessTimeout t) s = .next u ∧ u.sch = s.sch ∧ u.du = s.du ∧ u.trk = s.trk ∧ u.arb = s.arb ∧
      u.links = s.links ∧ u.ctl = s.ctl ∧ u.wlk.cursor = some { c with cue := c.cue + 1 } ∧
      (c.cue, c.pass) ∈ u.wlk.unhanded ∧
      (⟨(s.smi.journalCount + 1) % 4294967296, max s.clock t, .cueRejected 11 c.cue 0 0⟩ : JournalRecord) ∈
        u.smi.journalQueue) ∧
  (∀ (t : Time) (s : State) (j : Fin 32) (w : Fin 4) (e : CacheEntry), s.overdue t (.fetch j w) →
    (s.way j w).cancelled = false → (s.way j w).entry = some e → s.ctl.engine ≠ .running → s.ctl.progress = none →
    ∃ u, exec (.accessTimeout t) s = .next u ∧ u.trk = s.trk ∧ u.wlk = s.wlk ∧ u.arb = s.arb ∧ u.links = s.links ∧
      u.ctl = s.ctl ∧
      u.sch = { s.sch with armed := s.sch.armed.map fun x => { x with
        keys := x.keys.map fun r => if r.1 = e.key ∧ r.2 = .pending then (e.key, .faulted) else r
        unpinned := if (e.key, .pending) ∈ x.keys ∧ e.key ∉ x.unpinned then x.unpinned ++ [e.key] else x.unpinned } } ∧
      u.smi.journalCount = (s.smi.journalCount + 1) % 4294967296 ∧
      ((∀ i ∈ s.du.queue, setOf i.key ≠ j) → (u.way j w).entry = none ∧ u.du.queue = s.du.queue) ∧
      ∀ (i : WaitItem) (is : List WaitItem), s.du.queue = i :: is → setOf i.key = j →
        u.du.queue = is ∧ ∃ q, (u.way j w).entry = some { key := i.key, state := .fetching 0 q, pins := i.pins }) ∧
  (∀ (t : Time) (s : State) (j : Fin 32) (w : Fin 4), s.overdue t (.fetch j w) → (s.way j w).cancelled = true →
    ∃ u, exec (.accessTimeout t) s = .next u ∧ (u.way j w).cancelled = false ∧
      (u.way j w).entry.map (·.key) = (s.way j w).entry.map (·.key) ∧
      (u.way j w).entry.map (·.pins) = (s.way j w).entry.map (·.pins) ∧ u.sch = s.sch ∧ u.ctl = s.ctl) ∧
  (∀ (t : Time) (s : State) (p : Purpose) (slot : Slot), s.overdue t p →
    p = .scanState slot ∨ p = .scanSlot slot false ∨ p = .scanSlot slot true ∨ p = .take slot ∨ p = .sweepState slot ∨
      p = .sweepResults slot ∨ p = .sweepDone slot → s.smi.scanRequest = false →
    ∃ u, exec (.accessTimeout t) s = .next u ∧ s.sameBlocks u ∧ u.ctl = s.ctl ∧ u.smi.scan = .idle ∧
      u.smi.rotation = s.smi.rotation ∧ u.smi.sweepPending = s.smi.sweepPending ∧
      u.smi.outcomes = s.smi.outcomes) ∧
  (∀ (t : Time) (s : State) (slot : Slot) (o : OutcomeRecord),
    s.overdue t (.resultWords slot) ∨ s.overdue t (.doneWord slot) → s.writingOutcome slot = some o →
    ∃ u, exec (.accessTimeout t) s = .next u ∧ s.sameBlocks u ∧ u.ctl = s.ctl ∧
      (s.smi.scanRequest = false ∨ (∀ b, s.smi.scan ≠ .outcomes b) →
        u.smi.outcomes = s.smi.outcomes.map fun q => if q = o then { q with writing := false } else q) ∧
      u.smi.flags.directive = s.smi.flags.directive ∧
      ((∀ b, s.smi.scan ≠ .outcomes b) → u.smi.scan = s.smi.scan) ∧
      ∀ b, s.smi.scan = .outcomes b → (∀ q ∈ s.smi.outcomes, q ≠ o → q.writing = false) →
        s.smi.scanRequest = false → u.smi.scan = .idle) ∧
  ∀ (t : Time) (s : State) (rest : List (Nat × List Byte)) (owed : Bool), s.overdue t .status →
    s.smi.refresh = .writing rest owed →
    ∃ u, exec (.accessTimeout t) s = .next u ∧ s.sameBlocks u ∧ u.ctl = s.ctl ∧
      (owed = false → u.smi.refresh = .idle ∧ u.smi.refreshTag = s.smi.refreshTag) ∧
      (owed = true → u.smi.refreshTag = (s.smi.refreshTag + 1) % 4294967296)

/-- A late answer is discarded; the answer of an access that a soft reset abandoned lets the port go, and the port
then grants the next access (R185). -/
def Obligations.LateAnswers : Prop :=
  (∀ (t : Time) (s : State), exec (.lateAnswer t false) s = .next (s.begin t)) ∧
  (∀ (t : Time) (b : Bool) (s : State), (∀ f, s.smi.port.inFlight = some f → f.abandoned = false) →
    exec (.lateAnswer t b) s = .next (s.begin t)) ∧
  ∀ (t : Time) (s : State) (f : InFlight), s.smi.port.inFlight = some f → f.abandoned = true →
    ∃ u, exec (.lateAnswer t true) s = .next u ∧ u = { s.begin t with smi := { s.smi with port := u.smi.port } } ∧
      u.smi.port.sound ∧ (∀ a, s.smi.port.waits a → u.smi.port.holds a) ∧ u.smi.port.inFlight ≠ some f

/-! ### The desk -/

/-- A rising edge less than 8,000 µs after the line's last accepted edge raises the line's debounced count, and
nothing else changes but the input level (R156). -/
def Obligations.EdgesDebounced : Prop :=
  ∀ (t : Time) (l : Line) (s : State) (e : Time), l ≠ .freeze → (s.line l).lastEdge = some e →
    max s.clock t < e + 8000 →
    exec (risingCommand t l) s = .next ((s.begin t).setLine l
      { s.line l with level := true, debounced := min 4294967295 ((s.line l).debounced + 1) })

/-- What an accepted BEAT or DOWNBEAT does. In ARMED at a BEAT section it starts the show (R159, R175); in RUNNING it
goes to the tracker, and in any other engine state it is counted as ignored (R158, R160).
- In LOCKING it is the lock beat: show beat B, or B + 1 once a beat has been counted since the last positioning (R29).
- In a lockout or in SUSPENDED it is discarded (R46, R50). In TRACKING an interval below half the estimate makes it a
  bounce, and the eighth bounce of a run starts a lockout of 2,000,000 µs (R30, R46).
- After a beat in a fermata bar it is counted with the estimate, ring and confidence kept, or absorbed (R31, R45).
- In FREEWHEEL it is matched to the beat nearest to it, never below B, and in LOST it is the next beat (R40, R41).
- A DOWNBEAT in TRACKING corrects the bar at its beat m of N: none at m = 1, behind when 2m > N, else ahead (R43, R44).
- A counted beat on the first beat of a marked bar sets the estimate and empties the ring (R36). After every counted
  beat the timeout is armed outside a fermata bar, and stopped else (R37).
- The final beat of a pass moves the section in force on: to the next pass of a vamp whose exit flag is clear, and else
  to the next section of the running order, or to END, and the show ends when nothing is armed (R55, R56, R175). Cues
  that the offer cursor has not reached are then passed over, with CUE REJECTED (R66). That SECTION ENTERED comes first
  is log entry 68, the pass origin that a CALLED section keeps 24, that the cursor carries no origin in it 77, what the
  record of END carries and the fire cursor in END 33 and 58, and that the end is tested after the beat 16: the model's
  readings and choices. The tracker is TRACKING afterwards unless the show has left its BEAT section (R35, R50). -/
def Obligations.BeatArrivals : Prop :=
  (∀ (t : Time) (l : Line) (s : State), l = .beat ∨ l = .downbeat →
    s.ctl.engine = .running ∨ (s.ctl.engine = .armed ∧ s.inBeatSection = true) →
    s.trk.lockout = none → s.trk.state = .locking → s.nothingFires → s.acceptsEdge t l →
    ∃ u, exec (risingCommand t l) s = .next u ∧
      u.trk.beat = (if s.trk.counted then s.trk.beat + 1 else s.trk.beat) ∧ u.trk.bReal = u.trk.beat ∧
      u.trk.tLast = max s.clock t ∧ u.trk.tReal = max s.clock t ∧ u.trk.counted = true ∧
      u.trk.synthetic = 0 ∧ u.trk.bounces = 0 ∧ u.tracksUnlessLeft .tracking ∧
      (s.inBeatSection = true → u.inCalledSection = true → u.trk.state = .suspended) ∧ u.trk.rearmed ∧
      (u.wlk.inForce ≠ .endOfShow → u.ctl.engine = .running) ∧
      (s.ctl.engine = .armed → s.smi.journalQueue.length < 16 →
        (⟨s.smi.journalCount, max s.clock t, .engineState 4 5 4 255 (lineCode l) 0⟩ : JournalRecord) ∈
          u.smi.journalQueue) ∧
      u.du = s.du ∧ u.arb = s.arb ∧ u.links = s.links ∧ u.desk = (s.edgeTaken t l).desk) ∧
  (∀ (t : Time) (l : Line) (s : State), l = .beat ∨ l = .downbeat → s.acceptsEdge t l → s.ctl.engine ≠ .running →
    (s.ctl.engine = .armed → s.inBeatSection = false) →
    exec (risingCommand t l) s = .next ((s.edgeTaken t l).setLine l { (s.edgeTaken t l).line l with
      ignored := min 4294967295 ((s.line l).ignored + 1) })) ∧
  (∀ (t : Time) (l : Line) (s : State), l = .beat ∨ l = .downbeat → s.acceptsEdge t l → s.ctl.engine = .running →
    (s.trk.lockout ≠ none ∨ s.trk.state = .suspended → exec (risingCommand t l) s = .next (s.edgeTaken t l)) ∧
    (s.trk.lockout = none → s.trk.state = .tracking → max s.clock t - s.trk.tLast < s.trk.period / 2 →
      (s.trk.bounces + 1 < 8 → exec (risingCommand t l) s =
        .next { s.edgeTaken t l with trk := { s.trk with bounces := s.trk.bounces + 1 } }) ∧
      (8 ≤ s.trk.bounces + 1 → ∃ u, exec (risingCommand t l) s = .next u ∧
        u = { s.edgeTaken t l with smi := u.smi, trk := { s.trk with
          bounces := s.trk.bounces + 1, lockout := some (max s.clock t + 2000000) } } ∧
        u.smi.flags = { s.smi.flags with tracker := true } ∧
        (s.smi.journalQueue.length < 16 → u.smi.journalQueue = s.smi.journalQueue ++
          [⟨s.smi.journalCount, max s.clock t, .trackerState 3 3 5 s.trk.beat s.trk.period⟩])))) ∧
  (∀ (t : Time) (s : State), s.acceptsEdge t .beat → s.ctl.engine = .running → s.trk.lockout = none →
    s.nothingFires →
    (s.trk.state = .tracking → s.trk.period / 2 ≤ max s.clock t - s.trk.tLast → s.trk.facts.fermata = true →
      ∃ u, exec (.beat t) s = .next u ∧ u.trk.beat = s.trk.beat + (if s.trk.absorb = 0 then 1 else 0) ∧
        u.trk.bReal = u.trk.beat ∧ u.trk.tLast = max s.clock t ∧ u.trk.tReal = max s.clock t ∧
        u.trk.synthetic = 0 ∧ u.trk.bounces = 0 ∧ (s.unmarked → s.trk.sameTempo u.trk) ∧ u.trk.rearmed ∧
        (u.trk.state = .tracking → u.trk.absorb = s.trk.absorb - 1) ∧ u.tracksUnlessLeft .tracking) ∧
    ∀ target, (s.trk.state = .freewheel ∧ target = max s.trk.beat
        (s.trk.bReal + roundHalfUp (max s.clock t - s.trk.tReal) s.trk.period)) ∨
      (s.trk.state = .lost ∧ target = s.trk.beat + 1) →
      ∃ u, exec (.beat t) s = .next u ∧ (u.trk.beat = target ∨ (u.trk.beat < target ∧ u.inBeatSection = false)) ∧
        u.trk.bReal = u.trk.beat ∧ u.trk.tLast = max s.clock t ∧ u.trk.tReal = max s.clock t ∧
        u.trk.synthetic = 0 ∧ u.trk.bounces = 0 ∧ (s.unmarked → s.trk.sameTempo u.trk) ∧ u.trk.rearmed ∧
        u.tracksUnlessLeft .tracking) ∧
  (∀ (t : Time) (s : State) (x : Section) (b m n : Nat), s.acceptsEdge t .downbeat → s.ctl.engine = .running →
    s.trk.lockout = none → s.nothingFires → s.trk.state = .tracking →
    s.trk.period / 2 ≤ max s.clock t - s.trk.tLast → s.downbeatFinds x b m n → s.smi.journalQueue.length < 16 →
    ∃ u, exec (.downbeat t) s = .next u ∧
      (m = 1 → u.trk.state = .tracking ∧ u.trk.absorb = 0 ∧ u.trk.beat = b ∧
        u.smi.journalCount = s.smi.journalCount) ∧
      (1 < m → 2 * m ≤ n → u.trk.state = .tracking ∧ u.trk.absorb = m - 1 ∧ u.trk.beat = b ∧
        u.smi.journalQueue = s.smi.journalQueue ++
          [⟨s.smi.journalCount, max s.clock t, .barCorrection m n (-((m - 1 : Nat) : Int)) b⟩]) ∧
      (1 < m → m ≤ n → n < 2 * m → s.beforeFinal x (b + (n - m + 1)) → u.trk.state = .tracking ∧
        u.trk.absorb = 0 ∧ u.trk.beat = b + (n - m + 1) ∧ u.trk.bReal = u.trk.beat ∧
        u.smi.journalQueue = s.smi.journalQueue ++ [⟨s.smi.journalCount, max s.clock t,
          .barCorrection m n ((n - m + 1 : Nat) : Int) (b + (n - m + 1))⟩])) ∧
  (∀ (t : Time) (s : State) (n : Nat) (x : Section), s.acceptsEdge t .beat → s.ctl.engine = .running →
    s.trk.lockout = none → s.nothingFires → s.trk.state = .tracking →
    s.trk.period / 2 ≤ max s.clock t - s.trk.tLast → s.trk.absorb = 0 → s.finalBeatIn n x →
    ∃ u, exec (.beat t) s = .next u ∧ u.trk.beat = s.trk.beat + 1 ∧ s.passEnds u n x) ∧
  ∀ (t : Time) (s : State) (x : Section) (r : Bar), s.acceptsEdge t .beat → s.ctl.engine = .running →
    s.trk.lockout = none → s.nothingFires → s.trk.state = .tracking →
    s.trk.period / 2 ≤ max s.clock t - s.trk.tLast → s.trk.absorb = 0 → s.nextBeatIn x 1 r → r.mark ≠ 0 →
    ∃ u, exec (.beat t) s = .next u ∧ u.trk.beat = s.trk.beat + 1 ∧ u.trk.period = r.mark * 100 ∧ u.trk.ring = [] ∧
      u.trk.confidence = .loose ∧ u.tracksUnlessLeft .tracking ∧
      (u.trk.state = .tracking → u.trk.timeout =
        if r.fermata then none else some (max s.clock t + 3 * (r.mark * 100) / 2))

/-- A normal beat: an accepted BEAT or DOWNBEAT in TRACKING, no bounce, in a bar without fermata, moves the
estimate by w/8 of its difference from the interval, pushes the interval into the ring of 8, dates the last beat now,
and takes its confidence from the mean deviation of the ring; with no tempo mark in the score these are the values it
leaves, and the beat timeout is armed again from now, or stopped in a fermata bar (R37). A BEAT raises the show beat by 1
unless it is absorbed (R32, R33, R34, R28, R45). Under FREEZE the armed list
stays, and each POSITION entry of it that is GATED or TIMED is predicted from the tracker as the beat leaves it, with
A, T and its lead, and passes the gate (R79, R80, R81), where the lead is the largest of the screens addressed (R78). -/
def Obligations.NormalBeatCounted : Prop :=
  (∀ (t : Time) (l : Line) (s : State), l = .beat ∨ l = .downbeat → s.ctl.engine = .running →
    s.trk.lockout = none → s.trk.state = .tracking → s.nothingFires → s.acceptsEdge t l →
    s.trk.period / 2 ≤ max s.clock t - s.trk.tLast → s.trk.facts.fermata = false → s.unmarked →
    ∃ u, exec (risingCommand t l) s = .next u ∧
      u.trk.tLast = max s.clock t ∧ u.trk.tReal = max s.clock t ∧ u.trk.synthetic = 0 ∧ u.trk.bounces = 0 ∧
      (u.trk.period : Int) = max 150000 (min 3000000 ((s.trk.period : Int) +
        roundHalfAway ((((max s.clock t - s.trk.tLast : Nat) : Int) - (s.trk.period : Int)) * (s.trk.weight : Int)) 8)) ∧
      u.trk.ring = (s.trk.ring ++ [max s.clock t - s.trk.tLast]).drop (s.trk.ring.length + 1 - 8) ∧
      u.trk.confidence = confidenceTable u.trk.ring u.trk.period ∧ u.trk.rearmed ∧
      (l = .beat → u.trk.beat = s.trk.beat + (if s.trk.absorb = 0 then 1 else 0)) ∧
      u.du = s.du ∧ u.arb = s.arb ∧ u.links = s.links ∧
      (s.sch.freeze = true → s.inCalledSection = false → u.sch.armed = s.sch.armed.map fun e =>
        match e.target with
        | some (b, tick) => if e.timing = .gated ∨ e.timing = .timed then
            let T := u.trk.view.predicts b tick - s.cueLead e.copy
            { e with appear := some (u.trk.view.predicts b tick), lead := some (s.cueLead e.copy), fire := some T
                     timing := if u.inCalledSection then (if T ≤ max s.clock t then .due else .timed)
                       else u.trk.view.gates (max s.clock t) b tick T }
          else e
        | none => e)) ∧
  ∀ (s : State) (c : Cue), (∀ i, s.isAddressed c i → s.leadOf c i ≤ s.cueLead c) ∧
    ((∃ i, s.isAddressed c i ∧ s.cueLead c = s.leadOf c i) ∨ ((∀ i, ¬s.isAddressed c i) ∧ s.cueLead c = 0))

/-- An accepted GO. In a vamp it sets the exit flag (R57). In a CALLED section, or as it starts the show there in ARMED
(R159), it makes a WAITING or FOLLOW cue at the fire cursor DUE, with T the GO's time and A its lead later, and is owed
where that cue is not armed or is DUE already (R59, R84, R86, R60); alone in the list, complete and without FREEZE, the
cue fires at once (R87). At the end of the section it enters the next one, with the cause GO: the first cue of a CALLED
section is acted on by the same GO, a BEAT section has the tracker LOCKING and its origin at the lock beat, and after
the last one the section in force is END, and the show ends when nothing is armed (R61, R48, R175; the pass origin that
a CALLED section keeps is log entry 24, and what the record of END carries log entries 33 and 58, as is the fire cursor
in END, none). That SECTION ENTERED comes first, before TRACKER STATE and CUE REJECTED, is log entry 68, the model's
choice. Where the GO has nothing to act on it is journalled as DESK IGNORED with its reason and counted (R57,
R59, R160, R161). -/
def Obligations.GoPressed : Prop :=
  (∀ (t : Time) (s : State) (n : Nat) (x : Section), s.acceptsEdge t .go → s.ctl.engine = .running →
    s.wlk.inForce = .sec n → s.wlk.sec n = some x → s.nothingFires → x.mode = .beat → x.vamp = true →
    s.wlk.exitFlag = false →
    ∃ u, exec (.go t) s = .next u ∧ u.wlk.exitFlag = true ∧ u.wlk.inForce = s.wlk.inForce ∧ u.trk = s.trk ∧
      u.sch = s.sch ∧ u.du = s.du ∧ u.arb = s.arb ∧ u.links = s.links ∧ u.ctl = s.ctl) ∧
  (∀ (t : Time) (s : State) (n : Nat) (x : Section) (c : Nat), s.acceptsEdge t .go →
    s.ctl.engine = .running ∨ s.ctl.engine = .armed → s.wlk.inForce = .sec n → s.wlk.sec n = some x →
    x.mode = .called → s.wlk.owedGo = none → s.wlk.fireCursor = some c → c < x.firstCue + x.cueCount →
    s.nothingFires ∨ (∃ e, s.sch.armed = [e] ∧ s.armedEntry c s.wlk.pass = some e ∧ e.timing ≠ .due) →
    ∃ u, exec (.go t) s = .next u ∧ u.wlk.inForce = .sec n ∧ u.ctl = { s.ctl with engine := .running } ∧
      u.desk = (s.edgeTaken t .go).desk ∧
      (s.ctl.engine = .armed → s.smi.journalQueue.length < 16 →
        (⟨s.smi.journalCount, max s.clock t, .engineState 4 5 4 255 (lineCode .go) 0⟩ : JournalRecord) ∈
          u.smi.journalQueue) ∧
      (s.armedEntry c s.wlk.pass = none → u.wlk.owedGo = some (max s.clock t) ∧ u.trk = s.trk ∧
        u.sch = s.sch ∧ u.du = s.du ∧ u.arb = s.arb ∧ u.links = s.links) ∧
      ∀ e, s.armedEntry c s.wlk.pass = some e →
        (s.sch.freeze = true → e.timing = .due → (∀ delay, e.copy.anchor ≠ .follow delay) →
          u.wlk.owedGo = some (max s.clock t) ∧ u.sch = s.sch) ∧
        (s.sch.freeze = true → e.timing = .waiting ∨ (∃ delay, e.copy.anchor = .follow delay) →
          u.armedEntry c s.wlk.pass = some (s.dueByGo (max s.clock t) e) ∧
          u.wlk.owedGo = none ∧ u.trk = s.trk ∧ u.du = s.du ∧ u.arb = s.arb ∧ u.links = s.links) ∧
        (s.sch.freeze = false → s.sch.armed = [e] → (∀ p ∈ e.keys, p.2 ≠ .pending) →
          e.timing = .waiting ∨ (e.timing ≠ .due ∧ ∃ delay, e.copy.anchor = .follow delay) →
          u.sch.armed = [] ∧ u.wlk.owedGo = none ∧
          u.sch.fireRecord = some { cue := e.cue, pass := e.pass, appear := max s.clock t + s.cueLead e.copy })) ∧
  (∀ (t : Time) (s : State) (n : Nat) (x : Section) (c : Nat), s.acceptsEdge t .go → s.ctl.engine = .running →
    s.wlk.inForce = .sec n → s.wlk.sec n = some x → s.nothingFires → x.mode = .called → s.wlk.owedGo = none →
    s.wlk.fireCursor = some c → x.firstCue + x.cueCount ≤ c →
    ∃ u, exec (.go t) s = .next u ∧ s.goEnters u n) ∧
  ∀ (t : Time) (s : State), s.acceptsEdge t .go → s.nothingFires →
    ((s.ctl.engine ≠ .running → (s.ctl.engine = .armed → s.inCalledSection = false) →
      ∃ u, exec (.go t) s = .next u ∧ s.goIgnored u 1) ∧
    (s.ctl.engine = .running → s.wlk.inForce = .endOfShow →
      ∃ u, exec (.go t) s = .next u ∧ s.goIgnored u 4) ∧
    ∀ n x, s.ctl.engine = .running → s.wlk.inForce = .sec n → s.wlk.sec n = some x →
      (x.mode = .beat → x.vamp = false → ∃ u, exec (.go t) s = .next u ∧ s.goIgnored u 2) ∧
      (x.mode = .beat → x.vamp = true → s.wlk.exitFlag = true → ∃ u, exec (.go t) s = .next u ∧ s.goIgnored u 3) ∧
      (x.mode = .called → s.wlk.owedGo ≠ none → ∃ u, exec (.go t) s = .next u ∧ s.goIgnored u 5))

/-- An accepted BACK in RUNNING takes the top off a history of two or more and ends an owed GO. For the new top it
places a request with the operator flag, released now, at each of the entry's screens that is no monitor and whose
layout names a language of its tuples: on a READY link the title replaces a shown top of its level, whatever its dwell,
or goes up over lower ones, at once; on another link it waits; under a higher level it goes in silently (R70, R120,
R121). In the CALLED section and pass of the popped cue the fire cursor and the offer cursor move back to it, and it is
read again. With fewer than two entries (NO HISTORY), and outside RUNNING (ENGINE STATE), BACK is journalled as ignored
and counted (R60, R70, R160, R161). That every BACK with two entries ends an owed GO, and one with fewer keeps it, is
log entry 53, that the offer cursor then carries no origin 77, and that BACK is itself followed by an offer review 80:
the model's. -/
def Obligations.BackPressed : Prop :=
  (∀ (t : Time) (s : State), s.ctl.engine = .running → s.acceptsEdge t .back →
    (∀ (p q : HistoryEntry) (rest : List HistoryEntry), s.wlk.history = p :: q :: rest →
      ∃ u, exec (.back t) s = .next u ∧ u.wlk.history = q :: rest ∧ u.wlk.inForce = s.wlk.inForce ∧
        u.wlk.owedGo = none ∧ u.trk = s.trk ∧ u.sch = s.sch ∧ u.du = s.du ∧ u.ctl = s.ctl ∧
        (∀ i : Screen16, s.isMonitor i = false →
          (q.screens.getLsbD i.val = false ∨ (s.screen i).backTuples q = [] →
            u.screen i = s.screen i ∧ u.link i = s.link i) ∧
          (q.screens.getLsbD i.val = true → (s.screen i).backTuples q ≠ [] →
            s.backPlaced u i (s.backRequestOf (max s.clock t) i q))) ∧
        (∀ x, s.wlk.sec p.sec = some x → x.mode = .called → s.wlk.inForce = .sec p.sec → s.wlk.pass = p.pass →
          u.wlk.fireCursor = some p.cue ∧
          (p.cue < x.firstCue + x.cueCount → u.wlk.waiting = none ∧
            u.wlk.cursor = some { sec := p.sec, pass := p.pass, origin := none, cue := p.cue } ∧
            ∀ sc, s.wlk.script = some sc → s.wlk.reading = false → s.sch.armed.length < 32 → u.wlk.reading = true ∧
              u.smi.port.holds (.read (.offer false) (sc.cueTable + 32 * p.cue) 32 .urgent FaultDetail.none))) ∧
        (s.inCalledSection = false ∨ s.wlk.inForce ≠ .sec p.sec ∨ s.wlk.pass ≠ p.pass →
          u.wlk.fireCursor = s.wlk.fireCursor ∧
          ∀ c y, s.wlk.cursor = some c → s.wlk.sec c.sec = some y → c.cue < y.cueEnd → u.wlk.cursor = some c)) ∧
    (s.wlk.history.length < 2 → ∃ u, exec (.back t) s = .next u ∧ s.pressIgnored u t .back 7)) ∧
  ∀ (t : Time) (s : State), s.ctl.engine ≠ .running → s.acceptsEdge t .back →
    ∃ u, exec (.back t) s = .next u ∧ s.pressIgnored u t .back 1

/-- An accepted BLANK. A screen, not the mirror monitor, whose visible top is at level 1 or above and whose link is
BUSY holds the BLANK-pending flag, until the link becomes READY again (RepliesTaken); on a READY link the top is
removed and a message leaves at once, copied to the monitor when the screen is the mirror source. A screen that neither
has such a top on such a link nor holds the flag is left as it is. When no screen takes or holds the flag the press is
ignored with NOTHING SHOWN, and in IDLE, LOADING, LOADED and ARMED with ENGINE STATE: journalled and counted (R129,
R119, R123, R134, R158, R160, R161). -/
def Obligations.BlankPressed : Prop :=
  (∀ (t : Time) (s : State),
    s.ctl.engine = .running ∨ s.ctl.engine = .pausing ∨ s.ctl.engine = .paused ∨ s.ctl.engine = .ended →
    s.acceptsEdge t .blank →
    (∀ (i : Screen16) (l : Level) (e : Entry), s.isMonitor i = false → (s.screen i).visibleTop = some (l, e) → l ≠ 0 →
      ((s.link i).state = .busy →
        ∃ u, exec (.blank t) s = .next u ∧ (u.screen i).blankPending = true ∧
          (e.endTime = none → (s.screen i).pendingAt[l] = none →
            (u.screen i).stack[l].map (·.serial) = some e.serial) ∧
          u.link i = s.link i ∧ u.trk = s.trk ∧ u.wlk = s.wlk ∧ u.sch = s.sch ∧ u.du = s.du ∧ u.ctl = s.ctl) ∧
      ((s.link i).state = .ready →
        ∃ u, exec (.blank t) s = .next u ∧ s.blankCarriedOut u i ∧ u.trk = s.trk ∧ u.wlk = s.wlk ∧
          u.sch = s.sch ∧ u.du = s.du ∧ u.ctl = s.ctl ∧ u.smi = (s.edgeTaken t .blank).smi)) ∧
    (∀ (i j : Screen16), s.isMonitor i = false → s.takesPress j → ¬s.takesPress i →
      (s.screen i).blankPending = false →
      ∃ u, exec (.blank t) s = .next u ∧ u.screen i = s.screen i ∧ u.link i = s.link i) ∧
    ((∀ i, ¬s.takesPress i ∧ (s.screen i).blankPending = false) →
      ∃ u, exec (.blank t) s = .next u ∧ s.pressIgnored u t .blank 8)) ∧
  ∀ (t : Time) (s : State),
    s.ctl.engine = .idle ∨ s.ctl.engine = .loading ∨ s.ctl.engine = .loaded ∨ s.ctl.engine = .armed →
    s.acceptsEdge t .blank → ∃ u, exec (.blank t) s = .next u ∧ s.pressIgnored u t .blank 1

/-- FREEZE: a change of level with no window running is accepted, handed to the scheduler, and starts a window of
8,000 µs; an edge within the window is counted and set aside; at the window's end the level is accepted when it
still differs (R157, R88). A release in RUNNING fires a complete DUE entry that stands alone in the list (R88, R87). -/
def Obligations.FreezeAccepted : Prop :=
  (∀ (t : Time) (a : Bool) (s : State), (∀ w, s.desk.freezeWindow = some w → w ≤ max s.clock t) →
    a ≠ s.desk.freezeLevel → a = true ∨ s.sch.armed = [] →
    ∃ u, exec (.freeze t a) s = .next u ∧ u.sch = { s.sch with freeze := a } ∧ u.desk.freezeLevel = a ∧
      u.desk.freezeWindow = some (max s.clock t + 8000) ∧ (u.line .freeze).level = a ∧
      (u.line .freeze).lastEdge = some (max s.clock t) ∧
      (u.line .freeze).accepted = min 4294967295 ((s.line .freeze).accepted + 1) ∧
      (∀ l, l ≠ .freeze → u.line l = s.line l) ∧ u.trk = s.trk ∧ u.wlk = s.wlk ∧ u.du = s.du ∧ u.arb = s.arb ∧
      u.links = s.links ∧ u.ctl = s.ctl ∧ u.smi = s.smi) ∧
  (∀ (t : Time) (a : Bool) (s : State) (w : Time), s.desk.freezeWindow = some w → max s.clock t < w →
    exec (.freeze t a) s = .next ((s.begin t).setLine .freeze { s.line .freeze with
      level := a, debounced := min 4294967295 ((s.line .freeze).debounced + 1) })) ∧
  (∀ (t : Time) (s : State) (w : Time), s.desk.freezeWindow = some w → w ≤ max s.clock t →
    (s.line .freeze).level = s.desk.freezeLevel →
    exec (.freezeWindowEnd t) s = .next { s.begin t with desk := { s.desk with freezeWindow := none } }) ∧
  (∀ (t : Time) (s : State) (e : Armed), (∀ w, s.desk.freezeWindow = some w → w ≤ max s.clock t) →
    s.desk.freezeLevel = true → s.ctl.engine = .running → s.sch.armed = [e] → e.timing = .due →
    (∀ p ∈ e.keys, p.2 ≠ .pending) → s.wlk.owedGo = none →
    ∃ u, exec (.freeze t false) s = .next u ∧ u.sch.freeze = false ∧ u.sch.armed = [] ∧
      u.sch.fireRecord = some { cue := e.cue, pass := e.pass, appear := e.appear.getD 0 } ∧
      u.desk.freezeLevel = false) ∧
  ∀ (t : Time) (s : State) (w : Time), s.desk.freezeWindow = some w → w ≤ max s.clock t →
    (s.line .freeze).level ≠ s.desk.freezeLevel → (s.line .freeze).level = true ∨ s.sch.armed = [] →
    ∃ u, exec (.freezeWindowEnd t) s = .next u ∧ u.sch = { s.sch with freeze := (s.line .freeze).level } ∧
      u.desk.freezeLevel = (s.line .freeze).level ∧ u.desk.freezeWindow = some (w + 8000) ∧
      (u.line .freeze).lastEdge = some w ∧
      (u.line .freeze).accepted = min 4294967295 ((s.line .freeze).accepted + 1) ∧ u.trk = s.trk ∧
      u.wlk = s.wlk ∧ u.du = s.du ∧ u.arb = s.arb ∧ u.links = s.links ∧ u.ctl = s.ctl ∧ u.smi = s.smi

/-! ### Timers of the show -/

/-- The end of a noise lockout turns it off, sets the bounce run to 0 and journals it. The beat timeout counts a
synthetic beat dated one estimate after the last beat, with the estimate, ring and confidence kept in a score without
tempo marks, and is armed again from that date: the first makes the state FREEWHEEL and sets CAUSE.TRACKER, and the
eighth makes it LOST and sets it again, unless the show has left its BEAT section (R47, R38, R39; that the
tracker then stays SUSPENDED is log entry 15, the model's choice). -/
def Obligations.TrackerTimers : Prop :=
  (∀ (t : Time) (s : State) (e : Time), s.trk.lockout = some e → e ≤ max s.clock t →
    ∃ u, exec (.lockoutEnd t) s = .next u ∧ u.trk = { s.trk with lockout := none, bounces := 0 } ∧
      u.smi.journalCount = (s.smi.journalCount + 1) % 4294967296 ∧ u.smi.flags = s.smi.flags ∧ u.wlk = s.wlk ∧
      u.sch = s.sch ∧ u.du = s.du ∧ u.desk = s.desk ∧ u.arb = s.arb ∧ u.links = s.links ∧ u.ctl = s.ctl) ∧
  ∀ (t : Time) (s : State) (e : Time), s.trk.timeout = some e → e ≤ max s.clock t → s.nothingFires →
    s.trk.state = .tracking ∨ s.trk.state = .freewheel →
    ∃ u, exec (.beatTimeout t) s = .next u ∧ u.trk.tLast = s.trk.tLast + s.trk.period ∧
      u.trk.beat = s.trk.beat + (if s.trk.absorb = 0 then 1 else 0) ∧ u.trk.tReal = s.trk.tReal ∧
      u.trk.bReal = s.trk.bReal ∧ (s.unmarked → s.trk.sameTempo u.trk) ∧ u.trk.rearmed ∧
      (s.trk.state = .tracking → u.smi.flags.tracker = true) ∧
      (s.trk.synthetic + 1 < 8 → u.tracksUnlessLeft .freewheel ∧
        (u.trk.state = .freewheel → u.trk.synthetic = s.trk.synthetic + 1)) ∧
      (8 ≤ s.trk.synthetic + 1 → u.tracksUnlessLeft .lost ∧
        (u.trk.state = .lost → u.trk.timeout = none ∧ u.smi.flags.tracker = true)) ∧
      u.du = s.du ∧ u.desk = s.desk ∧ u.arb = s.arb ∧ u.links = s.links

/-- The fire timer makes a TIMED entry DUE, and with it each TIMED entry that shares its position and whose own T has
come (R9; that another T is waited for is log entry 66, the model's reading). Under FREEZE they stay in the list; in
RUNNING without FREEZE two complete entries of one position fire both, the lower cue index first, and an entry,
complete and alone in the list, fires: it leaves the list, and the fire record names it with its appearance time (R83,
R87, R88, R90). A FOLLOW entry behind it, unless DUE, is timed from that appearance time, one TIMED before too, and
stays in the list until its own T or its last key has come, or fires at once (R85, R90, R77). The fire places a request
at each screen of the scope that is no monitor: a TITLE with the tuples PRESENT for the screen's layout, where there is
one, and a BLANK without any, each at the cue's level with the release time A less the screen's lead (R90, R92). A
TITLE is pushed to the history with the screens placed (R69). CUE FIRED is journalled, and CUE LATE after it when the
fire is later than T plus the late tolerance (R93, R94); that no record of a missing language comes between the two is
log entry 26, the model's reading. -/
def Obligations.FireTimerExpires : Prop :=
  (∀ (t : Time) (s : State) (e : Armed) (T : Time), s.sch.freeze = true → s.armedEntry e.cue e.pass = some e →
    e.timing = .timed → e.fire = some T → T ≤ max s.clock t →
    exec (.fireTimer t e.cue e.pass) s = .next { s.begin t with sch := { s.sch with
      armed := s.sch.armed.map fun x =>
        if (x.isOf e.cue e.pass = true ∨ (e.target ≠ none ∧ x.sec = e.sec ∧ x.pass = e.pass ∧ x.target = e.target)) ∧
            x.timing = .timed ∧ x.fire.any (fun f => decide (f ≤ max s.clock t)) = true
        then { x with timing := .due } else x } }) ∧
  (∀ (t : Time) (s : State) (e f : Armed) (T S : Time) (c : Nat), s.ctl.engine = .running → s.sch.freeze = false →
    s.sch.armed = [e, f] → e.cue < f.cue → f.sec = e.sec → f.pass = e.pass → e.target ≠ none →
    f.target = e.target → e.timing = .timed → f.timing = .timed → e.fire = some T → f.fire = some S →
    T ≤ max s.clock t → S ≤ max s.clock t → (∀ p ∈ e.keys, p.2 ≠ .pending) → (∀ p ∈ f.keys, p.2 ≠ .pending) →
    s.wlk.owedGo = none → c = e.cue ∨ c = f.cue →
    ∃ u, exec (.fireTimer t c e.pass) s = .next u ∧ u.sch.armed = [] ∧
      u.sch.fireRecord = some { cue := f.cue, pass := f.pass, appear := f.appear.getD 0 }) ∧
  (∀ (t : Time) (s : State) (e f : Armed) (T delay S : Nat), s.ctl.engine = .running → s.sch.freeze = false →
    s.sch.armed = [e, f] → f.cue = e.cue + 1 → f.pass = e.pass → f.copy.anchor = .follow delay → f.target = none →
    f.timing ≠ .due → e.timing = .timed → e.fire = some T → T ≤ max s.clock t → (∀ p ∈ e.keys, p.2 ≠ .pending) →
    s.wlk.owedGo = none → (∀ i, (s.screen i).staged = none) → S = e.appear.getD 0 + delay - s.cueLead f.copy →
    ∃ u, exec (.fireTimer t e.cue e.pass) s = .next u ∧
      (max s.clock t < S ∨ (∃ p ∈ f.keys, p.2 = .pending) → u.sch.armed = [{ f with
        lead := some (s.cueLead f.copy), appear := some (e.appear.getD 0 + delay), fire := some S
        timing := if S ≤ max s.clock t then .due else .timed }]) ∧
      (S ≤ max s.clock t → (∀ p ∈ f.keys, p.2 ≠ .pending) → u.sch.armed = [] ∧
        u.sch.fireRecord = some { cue := f.cue, pass := f.pass, appear := e.appear.getD 0 + delay })) ∧
  ∀ (t : Time) (s : State) (e : Armed) (T : Time), s.ctl.engine = .running → s.sch.freeze = false →
    s.sch.armed = [e] → e.timing = .timed → e.fire = some T → T ≤ max s.clock t →
    (∀ p ∈ e.keys, p.2 ≠ .pending) → s.wlk.owedGo = none →
    ∃ u, exec (.fireTimer t e.cue e.pass) s = .next u ∧ u.sch.armed = [] ∧
      u.sch.fireRecord = some { cue := e.cue, pass := e.pass, appear := e.appear.getD 0 } ∧ u.desk = s.desk ∧
      u.trk.beat = s.trk.beat ∧
      (∀ i, (s.screen i).titleTuples e ≠ [] → e.copy.action = .title → e.copy.scope.getLsbD i.val = true →
        s.isMonitor i = false → s.firedPlaced u i (s.firedRequest e i ((s.screen i).titleTuples e))) ∧
      (∀ i, e.copy.action = .blank → e.copy.scope.getLsbD i.val = true → s.isMonitor i = false →
        max s.clock t < (s.firedRequest e i []).release → u.waitsAt i (s.firedRequest e i [])) ∧
      (e.copy.action = .title → s.wlk.inForce ≠ .endOfShow → u.wlk.history = (({
        cue := e.cue, number := e.copy.number, sec := e.sec, pass := e.pass, level := e.copy.level,
        override := e.copy.override,
        screens := s.firedScreens e
        tuples := allLangs.filterMap (presentTuple e.keys)
        speaker := if e.copy.speaker = 0 then none else some e.copy.speaker, dwellPercent := e.dwellPercent
        dwellOverride := if e.copy.dwellOverride = 0 then none else some e.copy.dwellOverride } : HistoryEntry) ::
          s.wlk.history).take 16) ∧
      (e.copy.action = .blank → s.wlk.inForce ≠ .endOfShow → u.wlk.history = s.wlk.history) ∧
      ((∀ i, (s.screen i).pendingAt[e.copy.level] = none) → s.smi.journalQueue.length < 15 →
        (⟨s.smi.journalCount, max s.clock t, .cueFired e.pass e.sec e.copy.action.code e.copy.anchor.code e.cue
          e.copy.number (s.firedScreens e) (e.appear.getD 0) T⟩ : JournalRecord) ∈ u.smi.journalQueue ∧
        (T + s.sch.lateTolerance < max s.clock t → (⟨(s.smi.journalCount + 1) % 4294967296, max s.clock t,
          .cueLate e.pass e.cue e.copy.number (max s.clock t - T)⟩ : JournalRecord) ∈ u.smi.journalQueue))

/-! ### Timers of the screens -/

/-- What the release, dwell and notice timers of a screen do that is no mirror monitor. On a READY link: the release
timer sends an empty screen's only request; the dwell timer replaces the shown top by the request of its level once its
minimum dwell has passed; the notice timer removes a shown notice and a CLEAR leaves (R117, R120, R121, R128, R123).
Each message is copied to the monitor of the pair whose source the screen is (R134), and each SHOW gives its entry the
minimum dwell of R125.
A request released over other entries is judged by its level: above the visible top it is pushed on a READY link, which
buries that top, and waits else; below, and in place of a top that is not shown, it is granted silently; at the level of
the shown top it waits for the dwell and is DEFERRED once (R120, R121). A BLANK finds nothing, removes an entry that is
not shown silently, or takes the shown top down and sends CLEAR with its own override once the dwell has passed (R122).
Each event rises at the counters that select it (R136). -/
def Obligations.ScreenTimers : Prop :=
  (∀ (t : Time) (s : State) (i : Screen16) (l : Level), s.isMonitor i = false → (s.link i).state = .ready →
    (s.screen i).blankPending = false → (s.screen i).masked l = false →
    (∀ m : Level, m ≠ l → (s.screen i).stack[m] = none ∧ (s.screen i).pendingAt[m] = none) →
    (∀ r, (s.screen i).pendingAt[l] = some r → r.level = l → r.kind ≠ .blank → r.release ≤ max s.clock t →
      r.endTime = none →
      (∀ e, (s.screen i).releaseTimer = some e → e ≤ max s.clock t → (s.screen i).stack[l] = none →
        ∃ u, exec (.releaseTimer t i) s = .next u ∧ s.sameShow u ∧ (u.screen i).pendingAt[l] = none ∧
          (∃ x, s.showSent u i l x ∧ x.carries r ∧ s.sentAndCopied u i (s.showOf i l x)) ∧
          (s.screen i).counted (u.screen i) .shown 1 ∧ (s.screen i).counted (u.screen i) .late
            (if r.release + s.sch.lateTolerance < max s.clock t then 1 else 0) ∧ s.othersStand u i) ∧
      ∀ e y v, (s.screen i).dwellTimer = some e → e ≤ max s.clock t → (s.screen i).stack[l] = some y →
        y.visibleSince = some v → v + y.minDwell.getD 0 ≤ max s.clock t → y.endTime = none →
        ∃ u, exec (.dwellTimer t i) s = .next u ∧ s.sameShow u ∧ (u.screen i).pendingAt[l] = none ∧
          (∃ x, s.showSent u i l x ∧ x.carries r ∧ s.sentAndCopied u i (s.showOf i l x)) ∧
          s.othersStand u i) ∧
    ∀ e y T, (s.screen i).noticeTimer = some e → e ≤ max s.clock t → (s.screen i).pendingAt[l] = none →
      (s.screen i).stack[l] = some y → y.endTime = some T → T ≤ max s.clock t →
      (s.screen i).onScreen = .entry l y.serial →
      ∃ u, exec (.noticeTimer t i) s = .next u ∧ s.sameShow u ∧ (u.screen i).stack[l] = none ∧
        s.clearSent u i .default ∧ s.sentAndCopied u i (fun m => m.isClear .default) ∧ s.othersStand u i) ∧
  ∀ (t : Time) (s : State) (i : Screen16) (l : Level) (r : Request) (e : Time), (s.screen i).releaseTimer = some e →
    e ≤ max s.clock t → s.oneRequest i l r (max s.clock t) →
    ∃ u, exec (.releaseTimer t i) s = .next u ∧ s.sameShow u ∧ s.othersStand u i ∧
      s.requestJudged u i l r ((s.link i).state = .ready) (s.linkStands u i)

/-! ### Links -/

/-- Carrier up on a DOWN link makes it PROBING: the tag advances, HELLO leaves, the retry timer runs 1,000,000 µs, LINK
STATE is journalled. Carrier loss in any other state makes it DOWN: the operation in flight and the timers are dropped,
CAUSE.SCREEN is set, and the screen's record is UNKNOWN; a link lost in BUSY completes a held PAUSE when no link is
BUSY any more (R172). A change the link does not take moves the carrier input alone (R141, R142, R127). That the HELLO
operation holds the transition CUT is log entry 64, the model's choice. -/
def Obligations.CarrierChanges : Prop :=
  ∀ (t : Time) (s : State) (i : Screen16),
    ((s.link i).state = .down → ∃ u, exec (.carrierUp t i) s = .next u ∧ s.sameShow u ∧ u.arb = s.arb ∧
      u.ctl = s.ctl ∧ u.smi.flags = s.smi.flags ∧
      u.smi.journalCount = (s.smi.journalCount + 1) % 4294967296 ∧
      u.links = s.links.set i { s.link i with
        carrier := true, state := .probing, tag := (s.link i).tag + 1, hellos := 1, replyTimer := none
        retryTimer := some (max s.clock t + 1000000)
        op := some { kind := .helloMsg, tag := (s.link i).tag + 1, transition := .cut
                     sendTime := max s.clock t, subject := none } } ∧
      u.sent = [(i, helloFrame ((s.link i).tag + 1))]) ∧
    ((s.link i).state ≠ .down →
      exec (.carrierUp t i) s = .next ((s.begin t).setLink i { s.link i with carrier := true })) ∧
    ((s.link i).state = .down →
      exec (.carrierLoss t i) s = .next ((s.begin t).setLink i { s.link i with carrier := false })) ∧
    ((s.link i).state ≠ .down → ∃ u, exec (.carrierLoss t i) s = .next u ∧ s.sameShow u ∧
      u.smi.flags.screen = true ∧ u.sent = [] ∧ ((s.link i).state = .busy → s.quietTested u) ∧
      ((s.link i).state ≠ .busy → u.ctl = s.ctl ∧ u.smi.outcomes = s.smi.outcomes) ∧
      u.links = s.links.set i { s.link i with
        carrier := false, state := .down, op := none, replyTimer := none, retryTimer := none } ∧
      u.screen i = { s.screen i with onScreen := .unknown, blankPending := false, clearOwed := false } ∧
      ∀ j, j ≠ i → u.screen j = s.screen j)

/-- The retry timer in PROBING sends HELLO again with the same tag, the operation's send time kept (log entry 49, the
model's reading). A HELLO-REPLY of the episode's tag with fields in range records the capabilities and makes the link
READY, journalled as LINK STATE with the cause HELLO REPLY, the capabilities and F. The resync leaves with CUT in the same
step, so the link is BUSY with it: a SHOW of what is the visible top once the notice ends that have been reached are
handled, under the staged layout where there is one, or a CLEAR with none, copied to the monitor. The entry shown has its
minimum dwell computed again, under the capabilities just recorded, and is visible since now, and the on-screen record
names it, or is BLANK; with no request released the other levels stay. On the mirror monitor it is what the source shows,
and the hold is emptied. Any other HELLO-REPLY is counted as ignored (R142, R143, R127, R128, R134, R125, R151). That the
record of the link holds no link-state bits, and message, tag and send time 0, is log entry 33, that a copy sets the
monitor's on-screen record and counts as SHOWN 14, and its prefix decision 65: the model's. -/
def Obligations.HelloExchange : Prop :=
  (∀ (t : Time) (s : State) (i : Screen16) (e : Time), (s.link i).state = .probing →
    (s.link i).retryTimer = some e → e ≤ max s.clock t →
    exec (.helloRetryTimer t i) s = .next (((s.begin t).setLink i { s.link i with
      hellos := min 4294967295 ((s.link i).hellos + 1)
      retryTimer := some (max s.clock t + 1000000) }).transmit i (helloFrame (s.link i).tag))) ∧
  (∀ (t : Time) (s : State) (i : Screen16) (caps : Byte) (f n : Nat), (s.link i).state = .probing → f ≤ 2000 →
    1 ≤ n → n ≤ 4 →
    let c : Caps := { fade := caps.getLsbD 0, overlap := caps.getLsbD 1, fadeTime := f, capacity := n }
    let v := s.setLink i { s.link i with caps := some c }
    let x := (s.screen i).noticesEnded (max s.clock t)
    ∃ u, exec (.helloReply t i (s.link i).tag caps f n) s = .next u ∧ s.sameShow u ∧ u.ctl = s.ctl ∧
      u.clock = max s.clock t ∧ s.othersStand u i ∧ u.smi.flags = s.smi.flags ∧
      u.smi.journalCount = (s.smi.journalCount + 1) % 4294967296 ∧
      (s.smi.journalQueue.length < 16 → u.smi.journalQueue = s.smi.journalQueue ++
        [⟨s.smi.journalCount, max s.clock t, .linkState i 2 3 3 0 0
          (8 + 16 * bit (caps.getLsbD 0) + 32 * bit (caps.getLsbD 1) + 64 * (n - 1)) f 0⟩]) ∧
      u.link i = { s.link i with
        state := .busy, caps := some c, tag := (s.link i).tag + 1, retryTimer := none
        replyTimer := some (max s.clock t + 250000), op := (u.link i).op } ∧
      (u.link i).op.map (·.transition) = some .cut ∧
      (∀ a, s.arb.mirror = some (a, i) → u.arb.hold = none ∧ (u.screen i).stack = (s.screen i).stack ∧
        (u.screen i).pendingAt = (s.screen i).pendingAt ∧
        (∀ l e, (s.screen a).visibleTop = some (l, e) → (u.screen i).onScreen = .entry l e.serial ∧
          (s.screen i).counted (u.screen i) .shown 1) ∧
        ((s.screen a).visibleTop = none → (u.screen i).onScreen = .blank) ∧
        ∃ m : Message, m.isDisplayOf (s.screen a) .cut ∧ v.messageSent u i m ∧ u.sent = [(i, v.nextFrame i m)]) ∧
      (s.isMonitor i = false →
        (∀ l e, x.visibleTop = some (l, e) →
          (u.screen i).onScreen = .entry l e.serial ∧ (s.screen i).counted (u.screen i) .shown 1 ∧
          (∃ d, v.dwellIs i e d ∧
            (u.screen i).stack[l] = some { e with minDwell := some d, visibleSince := some u.clock }) ∧
          (x.nothingReleased u.clock → (u.screen i).pendingAt = x.pendingAt ∧
            ∀ k : Level, k ≠ l → (u.screen i).stack[k] = x.stack[k]) ∧
          v.sentAndCopied u i fun m => v.showWith i l e .cut m ∧ v.messageSent u i m) ∧
        (x.visibleTop = none → (u.screen i).onScreen = .blank ∧
          (x.nothingReleased u.clock → (u.screen i).pendingAt = x.pendingAt ∧ (u.screen i).stack = x.stack) ∧
          v.sentAndCopied u i fun m => m.isClear .cut ∧ v.messageSent u i m))) ∧
  ∀ (t : Time) (s : State) (i : Screen16) (tag caps : Byte) (f n : Nat),
    ¬((s.link i).state = .probing ∧ (s.link i).tag = tag ∧ f ≤ 2000 ∧ 1 ≤ n ∧ n ≤ 4) →
    exec (.helloReply t i tag caps f n) s = .next ((s.begin t).setLink i { s.link i with
      ignored := min 4294967295 ((s.link i).ignored + 1) })

/-- A DONE or REFUSED with the tag of the operation in flight takes the link out of BUSY, and the screen's next message
leaves at once with the next tag, if it has one: on the mirror monitor the copy held (R134), and with none held
nothing, since a monitor is not evaluated, which is log entry 13, the model's reading; else the CLEAR owed, with CUT
(R135); else what the evaluation of the screen finds (R119, R127): nothing where the screen is settled and its visible
top agrees with the on-screen record or that is UNKNOWN, and otherwise a SHOW of the visible top, or a CLEAR when there
is none (R123); a desk BLANK that waited is carried out (R129), a request that waited is judged (R120 to R122), and a
shown notice whose end has been reached is taken down (R128). REFUSED is besides counted and journalled as TITLE
REFUSED, and leaves the stack and the on-screen record as they were (R149). The reply timer makes a BUSY link FAULTED,
counted and journalled, and the on-screen record UNKNOWN (R150). Each of them completes a held PAUSE when no link is
BUSY any more (R172). A reply not taken is counted as ignored (R151). That a REFUSED of a CLEAR has level and number 0,
and the LINK STATE of a timeout capabilities and F 0, is log entry 33, the model's choice. -/
def Obligations.RepliesTaken : Prop :=
  (∀ (t : Time) (s : State) (i : Screen16) (tag reason : Byte) (o : Operation) (c : Instr),
    c = .done t i tag ∨ c = .refused t i tag reason → (s.link i).state = .busy → (s.link i).op = some o →
    o.tag = tag →
    ∃ u, exec c s = .next u ∧ s.sameShow u ∧ (u.link i).caps = (s.link i).caps ∧ s.quietTested u ∧
      (s.isMonitor i = true → s.arb.hold = none → s.wentReady u i ∧ (u.screen i).stack = (s.screen i).stack ∧
        (u.screen i).onScreen = (s.screen i).onScreen) ∧
      (∀ m, s.isMonitor i = true → s.arb.hold = some m → u.arb.hold = none ∧ (u.link i).state = .busy ∧
        (u.link i).tag = (s.link i).tag + 1 ∧ u.sent = [(i, s.nextFrame i m)]) ∧
      (s.isMonitor i = false → (s.screen i).clearOwed = true → s.clearSent u i .cut ∧ (u.screen i).clearOwed = false ∧
        (u.link i).op.map (·.transition) = some .cut) ∧
      (s.isMonitor i = false → (s.screen i).clearOwed = false → (s.screen i).settled (max s.clock t) →
        (s.screen i).onScreen = .unknown ∨ (s.screen i).agrees → s.wentReady u i ∧
        (u.screen i).stack = (s.screen i).stack ∧ (u.screen i).onScreen = (s.screen i).onScreen) ∧
      (s.isMonitor i = false → (s.screen i).clearOwed = false → (s.screen i).settled (max s.clock t) →
        (s.screen i).onScreen ≠ .unknown →
        (∀ l e, (s.screen i).visibleTop = some (l, e) → (s.screen i).onScreen ≠ .entry l e.serial →
          ∃ x, s.showSent u i l x ∧ x.serial = e.serial ∧ s.sentAndCopied u i (s.showOf i l x)) ∧
        ((s.screen i).visibleTop = none → (s.screen i).onScreen ≠ .blank → s.clearSent u i .default ∧
          s.sentAndCopied u i (fun m => m.isClear .default))) ∧
      (s.isMonitor i = false → (s.screen i).clearOwed = false → (s.screen i).blankPending = true →
        s.blankCarriedOut u i) ∧
      (∀ l r, (s.screen i).clearOwed = false → s.oneRequest i l r (max s.clock t) →
        s.requestJudged u i l r True (s.wentReady u i)) ∧
      (∀ (l : Level) (y : Entry) (T : Time), s.isMonitor i = false → (s.screen i).clearOwed = false →
        (s.screen i).blankPending = false → (∀ m : Level, (s.screen i).pendingAt[m] = none) →
        (s.screen i).stack[l] = some y → y.endTime = some T → T ≤ max s.clock t →
        (∀ m : Level, m ≠ l → (s.screen i).stack[m] = none) → (s.screen i).onScreen = .entry l y.serial →
        (u.screen i).stack[l] = none ∧ s.clearSent u i .default ∧
        s.sentAndCopied u i (fun m => m.isClear .default)) ∧
      (s.isMonitor i = false → (s.screen i).clearOwed = false → s.othersStand u i) ∧
      (c = .refused t i tag reason → (s.screen i).counted (u.screen i) .refused 1 ∧
        (s.smi.journalQueue.length < 16 → (⟨s.smi.journalCount, max s.clock t, .titleRefused i o.kind.code
          (if reason = 1 then 1 else if reason = 2 then 2 else 3) ((o.subject.map fun p => p.1.val).getD 0) tag
          ((o.subject.map fun p => p.2.number).getD 0)⟩ : JournalRecord) ∈ u.smi.journalQueue)) ∧
      (c = .done t i tag → s.ctl.heldPause = none → u.smi.journalCount = s.smi.journalCount)) ∧
  (∀ (t : Time) (s : State) (i : Screen16) (tag reason : Byte),
    ¬((s.link i).state = .busy ∧ ∃ o, (s.link i).op = some o ∧ o.tag = tag) →
      exec (.done t i tag) s = .next ((s.begin t).setLink i { s.link i with
        ignored := min 4294967295 ((s.link i).ignored + 1) }) ∧
      exec (.refused t i tag reason) s = .next ((s.begin t).setLink i { s.link i with
        ignored := min 4294967295 ((s.link i).ignored + 1) })) ∧
  ∀ (t : Time) (s : State) (i : Screen16) (e : Time), (s.link i).state = .busy →
    (s.link i).replyTimer = some e → e ≤ max s.clock t →
    ∃ u, exec (.replyTimer t i) s = .next u ∧ s.sameShow u ∧ s.quietTested u ∧
      u.links = s.links.set i { s.link i with state := .faulted, op := none, replyTimer := none } ∧
      u.smi.flags.screen = true ∧ (u.screen i).onScreen = .unknown ∧ (u.screen i).blankPending = false ∧
      (u.screen i).stack = (s.screen i).stack ∧ (u.screen i).pendingAt = (s.screen i).pendingAt ∧
      (s.screen i).counted (u.screen i) .faults 1 ∧
      (∀ o, (s.link i).op = some o → s.smi.journalQueue.length < 16 →
        (⟨s.smi.journalCount, max s.clock t, .linkState i 4 5 4 o.kind.code o.tag 0 0 o.sendTime⟩ : JournalRecord) ∈
          u.smi.journalQueue) ∧
      ∀ j, j ≠ i → u.screen j = s.screen j

/-- No event of a link or of a screen's timer touches the tracker, the walker, the scheduler, the Descriptor Unit
or the Desk Port (R148, R149, R150, R119). -/
def Obligations.LinkFrame : Prop :=
  ∀ (c : Instr) (s u : State), ofLinks c = true → exec c s = .next u → s.sameShow u

/-- The frames of a link. SHOW is kind 2 of length 25: its tag, its transition's code, four slots, the speaker or 0 and
whether the prefix is drawn; a slot at or above the slot capacity, and an EMPTY one, is language 255, and an EMPTY handle
0. CLEAR is kind 3 of length 3. Each begins with 126 and its bytes from length to check sum to a multiple of 256. The
transition is the row of the table, a CLEAR's CROSS going as FADE, and lasts 0, 2F or F (R144, R145, R146, R147).

The receiver: between frames a byte that is not 126 is discarded and 126 begins a frame; the bytes of a
whole frame, each within 1,000 µs of the one before, are one command once the check byte that the length implies has
come; a byte later than that ends the partial frame and is taken as one between frames, and the end of a gap longer than
1,000 µs discards the partial frame. The frame of a HELLO-REPLY, DONE or REFUSED is the command of its fields; a frame
whose length is not that of its kind, whose kind is none of these three, or whose check fails is discarded, as is
the frame of a DONE with its tag byte changed (R197). -/
def Obligations.FramesSentAndRead : Prop :=
  (∀ (m : Message) (tag : Byte) (tr : Transition) (cap : Nat), (∀ n, m.speaker = some n → n < 256) →
    let f := messageFrame m tag tr cap
    u8 f 0 = 126 ∧ ((f.drop 1).map BitVec.toNat).sum % 256 = 0 ∧ u8 f 1 + 3 = f.length ∧ u8 f 3 = tag.toNat ∧
    u8 f 4 = tr.code ∧
    (m.isShow = false → u8 f 1 = 3 ∧ u8 f 2 = 3) ∧
    (m.isShow = true → u8 f 1 = 25 ∧ u8 f 2 = 2 ∧
      (∀ k : Fin 4, (k.val < cap → u8 f (5 + 5 * k.val) = (m.slots[k].lang.map (·.val)).getD 255 ∧
          u32 f (6 + 5 * k.val) = (m.slots[k].handle.map (·.toNat)).getD 0) ∧
        (cap ≤ k.val → u8 f (5 + 5 * k.val) = 255 ∧ u32 f (6 + 5 * k.val) = 0)) ∧
      u8 f 25 = m.speaker.getD 0 ∧ u8 f 26 = if m.drawPrefix then 1 else 0)) ∧
  (∀ (p : Transition) (c : Option Caps) (k : Caps),
    resolveShow .cut p c = .cut ∧ resolveShow .default .cut c = .cut ∧
    resolveShow .default .fade (some k) = (if k.fade then .fade else .cut) ∧
    resolveShow .default .cross (some k) = (if k.fade then if k.overlap then .cross else .fade else .cut) ∧
    (∀ o, resolveClear o p (some k) = if resolveShow o p (some k) = .cross
      then if k.fade then .fade else .cut else resolveShow o p (some k)) ∧
    transitionTime .cut c = 0 ∧ transitionTime .fade (some k) = 2 * k.fadeTime * 1000 ∧
    transitionTime .cross (some k) = k.fadeTime * 1000) ∧
  (∀ (t : Time) (i : Screen16) (tag reason caps : Byte) (f n : Nat), f < 65536 → n < 256 →
    frameCommand t i ((frame 130 tag []).drop 1) = .done t i tag ∧
    frameCommand t i ((frame 131 tag [reason]).drop 1) = .refused t i tag reason ∧
    frameCommand t i ((frame 129 tag ([caps] ++ le 2 f ++ le 1 n)).drop 1) = .helloReply t i tag caps f n ∧
    ∀ b : Byte, b ≠ tag → frameCommand t i (((frame 130 tag []).drop 1).set 2 b) = .frameDiscarded t i) ∧
  (∀ (t : Time) (i : Screen16) (inner : List Byte),
    ((u8 inner 1 ≠ 129 ∨ u8 inner 0 ≠ 6) ∧ (u8 inner 1 ≠ 130 ∨ u8 inner 0 ≠ 2) ∧
        (u8 inner 1 ≠ 131 ∨ u8 inner 0 ≠ 3)) ∨
      (inner.map BitVec.toNat).sum % 256 ≠ 0 → frameCommand t i inner = .frameDiscarded t i) ∧
  (∀ (t : Time) (i : Screen16) (b : Byte) (r : Receiver), r.partialFrame = none →
    (b ≠ 126 → r.byte t i b = ({ partialFrame := none, lastByte := t }, none)) ∧
    (b = 126 → r.byte t i b = ({ partialFrame := some [], lastByte := t }, none))) ∧
  (∀ (i : Screen16) (t last : Time) (b : Byte) (bs : List (Time × Byte)) (r : Receiver), r.partialFrame = none →
    (bs ++ [(last, b)]).length = u8 ((bs ++ [(last, b)]).map (·.2)) 0 + 2 →
    ((t, 126) :: bs ++ [(last, b)]).IsChain (fun x y => y.1 ≤ x.1 + 1000) →
    r.feed i ((t, 126) :: bs ++ [(last, b)]) =
      ({ partialFrame := none, lastByte := last }, [frameCommand last i ((bs ++ [(last, b)]).map (·.2))])) ∧
  ∀ (t : Time) (i : Screen16) (b : Byte) (r : Receiver) (inner : List Byte), r.partialFrame = some inner →
    (r.lastByte + 1000 < t →
      r.byte t i b = ({ partialFrame := if b = 126 then some [] else none, lastByte := t },
        some (.frameGapTimeout t i)) ∧
      r.gap t i = ({ r with partialFrame := none }, some (.frameGapTimeout t i))) ∧
    (t ≤ r.lastByte + 1000 → r.gap t i = (r, none))

/-! ### Sound states -/

/-- Every command keeps a sound state sound: the port grants as soon as it can, the journal queue holds at most 16
records and is being written while it holds one, BASE is aligned within show memory, each link holds what its state
needs, level 0 is never masked, the cue history holds at most 16 entries, and the wait queue at most 256 keys, none of
them twice or also in the cache, which holds each key once, in its own set (R184, R190, R191, R181, R140, R115, R69,
R100, R103). -/
def Obligations.SoundKept : Prop :=
  ∀ (s u : State), s.sound → step s = .next u → u.sound

/-- The state after a power-on reset is sound (R180, R100, R113, R139). -/
def Obligations.SoundAtReset : Prop := State.reset.sound
end

