-- ==== Sys2Proof/Laws/State.lean ====
section
/-! SUPPORT. One lemma for each field after each named update of State, so that no proof unfolds a record
update, and what a screen, link, desk line or cache set reads as after another has been written. -/

namespace Sys2Proof.Machine

variable (s : State)

/-! ### begin -/

@[simp] theorem State.begin_clock (t : Time) : (State.begin t s).clock = max s.clock t := rfl
@[simp] theorem State.begin_smi (t : Time) : (State.begin t s).smi = s.smi := rfl
@[simp] theorem State.begin_ctl (t : Time) : (State.begin t s).ctl = s.ctl := rfl
@[simp] theorem State.begin_desk (t : Time) : (State.begin t s).desk = s.desk := rfl
@[simp] theorem State.begin_trk (t : Time) : (State.begin t s).trk = s.trk := rfl
@[simp] theorem State.begin_wlk (t : Time) : (State.begin t s).wlk = s.wlk := rfl
@[simp] theorem State.begin_sch (t : Time) : (State.begin t s).sch = s.sch := rfl
@[simp] theorem State.begin_du (t : Time) : (State.begin t s).du = s.du := rfl
@[simp] theorem State.begin_arb (t : Time) : (State.begin t s).arb = s.arb := rfl
@[simp] theorem State.begin_links (t : Time) : (State.begin t s).links = s.links := rfl
@[simp] theorem State.begin_sent (t : Time) : (State.begin t s).sent = [] := rfl
@[simp] theorem State.begin_pending (t : Time) : (State.begin t s).pending = s.pending := rfl

/-! ### setScreen -/

@[simp] theorem State.setScreen_clock (i : Screen16) (x : Screen) : (State.setScreen i x s).clock = s.clock := rfl
@[simp] theorem State.setScreen_smi (i : Screen16) (x : Screen) : (State.setScreen i x s).smi = s.smi := rfl
@[simp] theorem State.setScreen_ctl (i : Screen16) (x : Screen) : (State.setScreen i x s).ctl = s.ctl := rfl
@[simp] theorem State.setScreen_desk (i : Screen16) (x : Screen) : (State.setScreen i x s).desk = s.desk := rfl
@[simp] theorem State.setScreen_trk (i : Screen16) (x : Screen) : (State.setScreen i x s).trk = s.trk := rfl
@[simp] theorem State.setScreen_wlk (i : Screen16) (x : Screen) : (State.setScreen i x s).wlk = s.wlk := rfl
@[simp] theorem State.setScreen_sch (i : Screen16) (x : Screen) : (State.setScreen i x s).sch = s.sch := rfl
@[simp] theorem State.setScreen_du (i : Screen16) (x : Screen) : (State.setScreen i x s).du = s.du := rfl
@[simp] theorem State.setScreen_arb (i : Screen16) (x : Screen) : (State.setScreen i x s).arb = { s.arb with screens := s.arb.screens.set i x } := rfl
@[simp] theorem State.setScreen_links (i : Screen16) (x : Screen) : (State.setScreen i x s).links = s.links := rfl
@[simp] theorem State.setScreen_sent (i : Screen16) (x : Screen) : (State.setScreen i x s).sent = s.sent := rfl
@[simp] theorem State.setScreen_pending (i : Screen16) (x : Screen) : (State.setScreen i x s).pending = s.pending := rfl

/-! ### setLink -/

@[simp] theorem State.setLink_clock (i : Screen16) (x : Link) : (State.setLink i x s).clock = s.clock := rfl
@[simp] theorem State.setLink_smi (i : Screen16) (x : Link) : (State.setLink i x s).smi = s.smi := rfl
@[simp] theorem State.setLink_ctl (i : Screen16) (x : Link) : (State.setLink i x s).ctl = s.ctl := rfl
@[simp] theorem State.setLink_desk (i : Screen16) (x : Link) : (State.setLink i x s).desk = s.desk := rfl
@[simp] theorem State.setLink_trk (i : Screen16) (x : Link) : (State.setLink i x s).trk = s.trk := rfl
@[simp] theorem State.setLink_wlk (i : Screen16) (x : Link) : (State.setLink i x s).wlk = s.wlk := rfl
@[simp] theorem State.setLink_sch (i : Screen16) (x : Link) : (State.setLink i x s).sch = s.sch := rfl
@[simp] theorem State.setLink_du (i : Screen16) (x : Link) : (State.setLink i x s).du = s.du := rfl
@[simp] theorem State.setLink_arb (i : Screen16) (x : Link) : (State.setLink i x s).arb = s.arb := rfl
@[simp] theorem State.setLink_links (i : Screen16) (x : Link) : (State.setLink i x s).links = s.links.set i x := rfl
@[simp] theorem State.setLink_sent (i : Screen16) (x : Link) : (State.setLink i x s).sent = s.sent := rfl
@[simp] theorem State.setLink_pending (i : Screen16) (x : Link) : (State.setLink i x s).pending = s.pending := rfl

/-! ### setLine -/

@[simp] theorem State.setLine_clock (l : Line) (x : LinePort) : (State.setLine l x s).clock = s.clock := rfl
@[simp] theorem State.setLine_smi (l : Line) (x : LinePort) : (State.setLine l x s).smi = s.smi := rfl
@[simp] theorem State.setLine_ctl (l : Line) (x : LinePort) : (State.setLine l x s).ctl = s.ctl := rfl
@[simp] theorem State.setLine_desk (l : Line) (x : LinePort) : (State.setLine l x s).desk = { s.desk with lines := s.desk.lines.set (lineIndex l) x } := rfl
@[simp] theorem State.setLine_trk (l : Line) (x : LinePort) : (State.setLine l x s).trk = s.trk := rfl
@[simp] theorem State.setLine_wlk (l : Line) (x : LinePort) : (State.setLine l x s).wlk = s.wlk := rfl
@[simp] theorem State.setLine_sch (l : Line) (x : LinePort) : (State.setLine l x s).sch = s.sch := rfl
@[simp] theorem State.setLine_du (l : Line) (x : LinePort) : (State.setLine l x s).du = s.du := rfl
@[simp] theorem State.setLine_arb (l : Line) (x : LinePort) : (State.setLine l x s).arb = s.arb := rfl
@[simp] theorem State.setLine_links (l : Line) (x : LinePort) : (State.setLine l x s).links = s.links := rfl
@[simp] theorem State.setLine_sent (l : Line) (x : LinePort) : (State.setLine l x s).sent = s.sent := rfl
@[simp] theorem State.setLine_pending (l : Line) (x : LinePort) : (State.setLine l x s).pending = s.pending := rfl

/-! ### setCacheSet -/

@[simp] theorem State.setCacheSet_clock (j : Fin 32) (x : CacheSet) : (State.setCacheSet j x s).clock = s.clock := rfl
@[simp] theorem State.setCacheSet_smi (j : Fin 32) (x : CacheSet) : (State.setCacheSet j x s).smi = s.smi := rfl
@[simp] theorem State.setCacheSet_ctl (j : Fin 32) (x : CacheSet) : (State.setCacheSet j x s).ctl = s.ctl := rfl
@[simp] theorem State.setCacheSet_desk (j : Fin 32) (x : CacheSet) : (State.setCacheSet j x s).desk = s.desk := rfl
@[simp] theorem State.setCacheSet_trk (j : Fin 32) (x : CacheSet) : (State.setCacheSet j x s).trk = s.trk := rfl
@[simp] theorem State.setCacheSet_wlk (j : Fin 32) (x : CacheSet) : (State.setCacheSet j x s).wlk = s.wlk := rfl
@[simp] theorem State.setCacheSet_sch (j : Fin 32) (x : CacheSet) : (State.setCacheSet j x s).sch = s.sch := rfl
@[simp] theorem State.setCacheSet_du (j : Fin 32) (x : CacheSet) : (State.setCacheSet j x s).du = { s.du with sets := s.du.sets.set j x } := rfl
@[simp] theorem State.setCacheSet_arb (j : Fin 32) (x : CacheSet) : (State.setCacheSet j x s).arb = s.arb := rfl
@[simp] theorem State.setCacheSet_links (j : Fin 32) (x : CacheSet) : (State.setCacheSet j x s).links = s.links := rfl
@[simp] theorem State.setCacheSet_sent (j : Fin 32) (x : CacheSet) : (State.setCacheSet j x s).sent = s.sent := rfl
@[simp] theorem State.setCacheSet_pending (j : Fin 32) (x : CacheSet) : (State.setCacheSet j x s).pending = s.pending := rfl

/-! ### setWay -/

@[simp] theorem State.setWay_clock (j : Fin 32) (w : Fin 4) (x : Way) : (State.setWay j w x s).clock = s.clock := rfl
@[simp] theorem State.setWay_smi (j : Fin 32) (w : Fin 4) (x : Way) : (State.setWay j w x s).smi = s.smi := rfl
@[simp] theorem State.setWay_ctl (j : Fin 32) (w : Fin 4) (x : Way) : (State.setWay j w x s).ctl = s.ctl := rfl
@[simp] theorem State.setWay_desk (j : Fin 32) (w : Fin 4) (x : Way) : (State.setWay j w x s).desk = s.desk := rfl
@[simp] theorem State.setWay_trk (j : Fin 32) (w : Fin 4) (x : Way) : (State.setWay j w x s).trk = s.trk := rfl
@[simp] theorem State.setWay_wlk (j : Fin 32) (w : Fin 4) (x : Way) : (State.setWay j w x s).wlk = s.wlk := rfl
@[simp] theorem State.setWay_sch (j : Fin 32) (w : Fin 4) (x : Way) : (State.setWay j w x s).sch = s.sch := rfl
@[simp] theorem State.setWay_arb (j : Fin 32) (w : Fin 4) (x : Way) : (State.setWay j w x s).arb = s.arb := rfl
@[simp] theorem State.setWay_links (j : Fin 32) (w : Fin 4) (x : Way) : (State.setWay j w x s).links = s.links := rfl
@[simp] theorem State.setWay_sent (j : Fin 32) (w : Fin 4) (x : Way) : (State.setWay j w x s).sent = s.sent := rfl
@[simp] theorem State.setWay_pending (j : Fin 32) (w : Fin 4) (x : Way) : (State.setWay j w x s).pending = s.pending := rfl

/-! ### setPort -/

@[simp] theorem State.setPort_clock (p : Port) : (State.setPort p s).clock = s.clock := rfl
@[simp] theorem State.setPort_smi (p : Port) : (State.setPort p s).smi = { s.smi with port := p } := rfl
@[simp] theorem State.setPort_ctl (p : Port) : (State.setPort p s).ctl = s.ctl := rfl
@[simp] theorem State.setPort_desk (p : Port) : (State.setPort p s).desk = s.desk := rfl
@[simp] theorem State.setPort_trk (p : Port) : (State.setPort p s).trk = s.trk := rfl
@[simp] theorem State.setPort_wlk (p : Port) : (State.setPort p s).wlk = s.wlk := rfl
@[simp] theorem State.setPort_sch (p : Port) : (State.setPort p s).sch = s.sch := rfl
@[simp] theorem State.setPort_du (p : Port) : (State.setPort p s).du = s.du := rfl
@[simp] theorem State.setPort_arb (p : Port) : (State.setPort p s).arb = s.arb := rfl
@[simp] theorem State.setPort_links (p : Port) : (State.setPort p s).links = s.links := rfl
@[simp] theorem State.setPort_sent (p : Port) : (State.setPort p s).sent = s.sent := rfl
@[simp] theorem State.setPort_pending (p : Port) : (State.setPort p s).pending = s.pending := rfl

/-! ### setCause -/

@[simp] theorem State.setCause_clock (f : CauseFlag) : (State.setCause f s).clock = s.clock := rfl
@[simp] theorem State.setCause_smi (f : CauseFlag) : (State.setCause f s).smi = { s.smi with flags := s.smi.flags.setFlag f } := rfl
@[simp] theorem State.setCause_ctl (f : CauseFlag) : (State.setCause f s).ctl = s.ctl := rfl
@[simp] theorem State.setCause_desk (f : CauseFlag) : (State.setCause f s).desk = s.desk := rfl
@[simp] theorem State.setCause_trk (f : CauseFlag) : (State.setCause f s).trk = s.trk := rfl
@[simp] theorem State.setCause_wlk (f : CauseFlag) : (State.setCause f s).wlk = s.wlk := rfl
@[simp] theorem State.setCause_sch (f : CauseFlag) : (State.setCause f s).sch = s.sch := rfl
@[simp] theorem State.setCause_du (f : CauseFlag) : (State.setCause f s).du = s.du := rfl
@[simp] theorem State.setCause_arb (f : CauseFlag) : (State.setCause f s).arb = s.arb := rfl
@[simp] theorem State.setCause_links (f : CauseFlag) : (State.setCause f s).links = s.links := rfl
@[simp] theorem State.setCause_sent (f : CauseFlag) : (State.setCause f s).sent = s.sent := rfl
@[simp] theorem State.setCause_pending (f : CauseFlag) : (State.setCause f s).pending = s.pending := rfl

/-! ### setScan -/

@[simp] theorem State.setScan_clock (x : Scan) : (State.setScan x s).clock = s.clock := rfl
@[simp] theorem State.setScan_smi (x : Scan) : (State.setScan x s).smi = { s.smi with scan := x } := rfl
@[simp] theorem State.setScan_ctl (x : Scan) : (State.setScan x s).ctl = s.ctl := rfl
@[simp] theorem State.setScan_desk (x : Scan) : (State.setScan x s).desk = s.desk := rfl
@[simp] theorem State.setScan_trk (x : Scan) : (State.setScan x s).trk = s.trk := rfl
@[simp] theorem State.setScan_wlk (x : Scan) : (State.setScan x s).wlk = s.wlk := rfl
@[simp] theorem State.setScan_sch (x : Scan) : (State.setScan x s).sch = s.sch := rfl
@[simp] theorem State.setScan_du (x : Scan) : (State.setScan x s).du = s.du := rfl
@[simp] theorem State.setScan_arb (x : Scan) : (State.setScan x s).arb = s.arb := rfl
@[simp] theorem State.setScan_links (x : Scan) : (State.setScan x s).links = s.links := rfl
@[simp] theorem State.setScan_sent (x : Scan) : (State.setScan x s).sent = s.sent := rfl
@[simp] theorem State.setScan_pending (x : Scan) : (State.setScan x s).pending = s.pending := rfl

/-! ### setOutcomes -/

@[simp] theorem State.setOutcomes_clock (os : List OutcomeRecord) : (State.setOutcomes os s).clock = s.clock := rfl
@[simp] theorem State.setOutcomes_smi (os : List OutcomeRecord) : (State.setOutcomes os s).smi = { s.smi with outcomes := os } := rfl
@[simp] theorem State.setOutcomes_ctl (os : List OutcomeRecord) : (State.setOutcomes os s).ctl = s.ctl := rfl
@[simp] theorem State.setOutcomes_desk (os : List OutcomeRecord) : (State.setOutcomes os s).desk = s.desk := rfl
@[simp] theorem State.setOutcomes_trk (os : List OutcomeRecord) : (State.setOutcomes os s).trk = s.trk := rfl
@[simp] theorem State.setOutcomes_wlk (os : List OutcomeRecord) : (State.setOutcomes os s).wlk = s.wlk := rfl
@[simp] theorem State.setOutcomes_sch (os : List OutcomeRecord) : (State.setOutcomes os s).sch = s.sch := rfl
@[simp] theorem State.setOutcomes_du (os : List OutcomeRecord) : (State.setOutcomes os s).du = s.du := rfl
@[simp] theorem State.setOutcomes_arb (os : List OutcomeRecord) : (State.setOutcomes os s).arb = s.arb := rfl
@[simp] theorem State.setOutcomes_links (os : List OutcomeRecord) : (State.setOutcomes os s).links = s.links := rfl
@[simp] theorem State.setOutcomes_sent (os : List OutcomeRecord) : (State.setOutcomes os s).sent = s.sent := rfl
@[simp] theorem State.setOutcomes_pending (os : List OutcomeRecord) : (State.setOutcomes os s).pending = s.pending := rfl

/-! ### setQueue -/

@[simp] theorem State.setQueue_clock (q : List WaitItem) : (State.setQueue q s).clock = s.clock := rfl
@[simp] theorem State.setQueue_smi (q : List WaitItem) : (State.setQueue q s).smi = s.smi := rfl
@[simp] theorem State.setQueue_ctl (q : List WaitItem) : (State.setQueue q s).ctl = s.ctl := rfl
@[simp] theorem State.setQueue_desk (q : List WaitItem) : (State.setQueue q s).desk = s.desk := rfl
@[simp] theorem State.setQueue_trk (q : List WaitItem) : (State.setQueue q s).trk = s.trk := rfl
@[simp] theorem State.setQueue_wlk (q : List WaitItem) : (State.setQueue q s).wlk = s.wlk := rfl
@[simp] theorem State.setQueue_sch (q : List WaitItem) : (State.setQueue q s).sch = s.sch := rfl
@[simp] theorem State.setQueue_du (q : List WaitItem) : (State.setQueue q s).du = { s.du with queue := q } := rfl
@[simp] theorem State.setQueue_arb (q : List WaitItem) : (State.setQueue q s).arb = s.arb := rfl
@[simp] theorem State.setQueue_links (q : List WaitItem) : (State.setQueue q s).links = s.links := rfl
@[simp] theorem State.setQueue_sent (q : List WaitItem) : (State.setQueue q s).sent = s.sent := rfl
@[simp] theorem State.setQueue_pending (q : List WaitItem) : (State.setQueue q s).pending = s.pending := rfl

/-! ### setArmed -/

@[simp] theorem State.setArmed_clock (es : List Armed) : (State.setArmed es s).clock = s.clock := rfl
@[simp] theorem State.setArmed_smi (es : List Armed) : (State.setArmed es s).smi = s.smi := rfl
@[simp] theorem State.setArmed_ctl (es : List Armed) : (State.setArmed es s).ctl = s.ctl := rfl
@[simp] theorem State.setArmed_desk (es : List Armed) : (State.setArmed es s).desk = s.desk := rfl
@[simp] theorem State.setArmed_trk (es : List Armed) : (State.setArmed es s).trk = s.trk := rfl
@[simp] theorem State.setArmed_wlk (es : List Armed) : (State.setArmed es s).wlk = s.wlk := rfl
@[simp] theorem State.setArmed_sch (es : List Armed) : (State.setArmed es s).sch = { s.sch with armed := es } := rfl
@[simp] theorem State.setArmed_du (es : List Armed) : (State.setArmed es s).du = s.du := rfl
@[simp] theorem State.setArmed_arb (es : List Armed) : (State.setArmed es s).arb = s.arb := rfl
@[simp] theorem State.setArmed_links (es : List Armed) : (State.setArmed es s).links = s.links := rfl
@[simp] theorem State.setArmed_sent (es : List Armed) : (State.setArmed es s).sent = s.sent := rfl
@[simp] theorem State.setArmed_pending (es : List Armed) : (State.setArmed es s).pending = s.pending := rfl

/-! ### setView -/

@[simp] theorem State.setView_clock (v : TrackerView) : (State.setView v s).clock = s.clock := rfl
@[simp] theorem State.setView_smi (v : TrackerView) : (State.setView v s).smi = s.smi := rfl
@[simp] theorem State.setView_ctl (v : TrackerView) : (State.setView v s).ctl = s.ctl := rfl
@[simp] theorem State.setView_desk (v : TrackerView) : (State.setView v s).desk = s.desk := rfl
@[simp] theorem State.setView_trk (v : TrackerView) : (State.setView v s).trk = s.trk := rfl
@[simp] theorem State.setView_wlk (v : TrackerView) : (State.setView v s).wlk = s.wlk := rfl
@[simp] theorem State.setView_sch (v : TrackerView) : (State.setView v s).sch = { s.sch with view := v } := rfl
@[simp] theorem State.setView_du (v : TrackerView) : (State.setView v s).du = s.du := rfl
@[simp] theorem State.setView_arb (v : TrackerView) : (State.setView v s).arb = s.arb := rfl
@[simp] theorem State.setView_links (v : TrackerView) : (State.setView v s).links = s.links := rfl
@[simp] theorem State.setView_sent (v : TrackerView) : (State.setView v s).sent = s.sent := rfl
@[simp] theorem State.setView_pending (v : TrackerView) : (State.setView v s).pending = s.pending := rfl

/-! ### setTracker -/

@[simp] theorem State.setTracker_clock (k : Tracker) : (State.setTracker k s).clock = s.clock := rfl
@[simp] theorem State.setTracker_smi (k : Tracker) : (State.setTracker k s).smi = s.smi := rfl
@[simp] theorem State.setTracker_ctl (k : Tracker) : (State.setTracker k s).ctl = s.ctl := rfl
@[simp] theorem State.setTracker_desk (k : Tracker) : (State.setTracker k s).desk = s.desk := rfl
@[simp] theorem State.setTracker_trk (k : Tracker) : (State.setTracker k s).trk = k := rfl
@[simp] theorem State.setTracker_wlk (k : Tracker) : (State.setTracker k s).wlk = s.wlk := rfl
@[simp] theorem State.setTracker_sch (k : Tracker) : (State.setTracker k s).sch = s.sch := rfl
@[simp] theorem State.setTracker_du (k : Tracker) : (State.setTracker k s).du = s.du := rfl
@[simp] theorem State.setTracker_arb (k : Tracker) : (State.setTracker k s).arb = s.arb := rfl
@[simp] theorem State.setTracker_links (k : Tracker) : (State.setTracker k s).links = s.links := rfl
@[simp] theorem State.setTracker_sent (k : Tracker) : (State.setTracker k s).sent = s.sent := rfl
@[simp] theorem State.setTracker_pending (k : Tracker) : (State.setTracker k s).pending = s.pending := rfl

/-! ### setWalker -/

@[simp] theorem State.setWalker_clock (w : Walker) : (State.setWalker w s).clock = s.clock := rfl
@[simp] theorem State.setWalker_smi (w : Walker) : (State.setWalker w s).smi = s.smi := rfl
@[simp] theorem State.setWalker_ctl (w : Walker) : (State.setWalker w s).ctl = s.ctl := rfl
@[simp] theorem State.setWalker_desk (w : Walker) : (State.setWalker w s).desk = s.desk := rfl
@[simp] theorem State.setWalker_trk (w : Walker) : (State.setWalker w s).trk = s.trk := rfl
@[simp] theorem State.setWalker_wlk (w : Walker) : (State.setWalker w s).wlk = w := rfl
@[simp] theorem State.setWalker_sch (w : Walker) : (State.setWalker w s).sch = s.sch := rfl
@[simp] theorem State.setWalker_du (w : Walker) : (State.setWalker w s).du = s.du := rfl
@[simp] theorem State.setWalker_arb (w : Walker) : (State.setWalker w s).arb = s.arb := rfl
@[simp] theorem State.setWalker_links (w : Walker) : (State.setWalker w s).links = s.links := rfl
@[simp] theorem State.setWalker_sent (w : Walker) : (State.setWalker w s).sent = s.sent := rfl
@[simp] theorem State.setWalker_pending (w : Walker) : (State.setWalker w s).pending = s.pending := rfl

/-! ### setWork -/

@[simp] theorem State.setWork_clock (w : Work) : (State.setWork w s).clock = s.clock := rfl
@[simp] theorem State.setWork_smi (w : Work) : (State.setWork w s).smi = s.smi := rfl
@[simp] theorem State.setWork_desk (w : Work) : (State.setWork w s).desk = s.desk := rfl
@[simp] theorem State.setWork_trk (w : Work) : (State.setWork w s).trk = s.trk := rfl
@[simp] theorem State.setWork_wlk (w : Work) : (State.setWork w s).wlk = s.wlk := rfl
@[simp] theorem State.setWork_sch (w : Work) : (State.setWork w s).sch = s.sch := rfl
@[simp] theorem State.setWork_du (w : Work) : (State.setWork w s).du = s.du := rfl
@[simp] theorem State.setWork_arb (w : Work) : (State.setWork w s).arb = s.arb := rfl
@[simp] theorem State.setWork_links (w : Work) : (State.setWork w s).links = s.links := rfl
@[simp] theorem State.setWork_sent (w : Work) : (State.setWork w s).sent = s.sent := rfl
@[simp] theorem State.setWork_pending (w : Work) : (State.setWork w s).pending = s.pending := rfl

/-! ### transmit -/

@[simp] theorem State.transmit_clock (i : Screen16) (bs : List Byte) : (State.transmit i bs s).clock = s.clock := rfl
@[simp] theorem State.transmit_smi (i : Screen16) (bs : List Byte) : (State.transmit i bs s).smi = s.smi := rfl
@[simp] theorem State.transmit_ctl (i : Screen16) (bs : List Byte) : (State.transmit i bs s).ctl = s.ctl := rfl
@[simp] theorem State.transmit_desk (i : Screen16) (bs : List Byte) : (State.transmit i bs s).desk = s.desk := rfl
@[simp] theorem State.transmit_trk (i : Screen16) (bs : List Byte) : (State.transmit i bs s).trk = s.trk := rfl
@[simp] theorem State.transmit_wlk (i : Screen16) (bs : List Byte) : (State.transmit i bs s).wlk = s.wlk := rfl
@[simp] theorem State.transmit_sch (i : Screen16) (bs : List Byte) : (State.transmit i bs s).sch = s.sch := rfl
@[simp] theorem State.transmit_du (i : Screen16) (bs : List Byte) : (State.transmit i bs s).du = s.du := rfl
@[simp] theorem State.transmit_arb (i : Screen16) (bs : List Byte) : (State.transmit i bs s).arb = s.arb := rfl
@[simp] theorem State.transmit_links (i : Screen16) (bs : List Byte) : (State.transmit i bs s).links = s.links := rfl
@[simp] theorem State.transmit_sent (i : Screen16) (bs : List Byte) : (State.transmit i bs s).sent = s.sent ++ [(i, bs)] := rfl
@[simp] theorem State.transmit_pending (i : Screen16) (bs : List Byte) : (State.transmit i bs s).pending = s.pending := rfl

/-! ### setPending -/

@[simp] theorem State.setPending_clock (q : List Instr) : (State.setPending q s).clock = s.clock := rfl
@[simp] theorem State.setPending_smi (q : List Instr) : (State.setPending q s).smi = s.smi := rfl
@[simp] theorem State.setPending_ctl (q : List Instr) : (State.setPending q s).ctl = s.ctl := rfl
@[simp] theorem State.setPending_desk (q : List Instr) : (State.setPending q s).desk = s.desk := rfl
@[simp] theorem State.setPending_trk (q : List Instr) : (State.setPending q s).trk = s.trk := rfl
@[simp] theorem State.setPending_wlk (q : List Instr) : (State.setPending q s).wlk = s.wlk := rfl
@[simp] theorem State.setPending_sch (q : List Instr) : (State.setPending q s).sch = s.sch := rfl
@[simp] theorem State.setPending_du (q : List Instr) : (State.setPending q s).du = s.du := rfl
@[simp] theorem State.setPending_arb (q : List Instr) : (State.setPending q s).arb = s.arb := rfl
@[simp] theorem State.setPending_links (q : List Instr) : (State.setPending q s).links = s.links := rfl
@[simp] theorem State.setPending_sent (q : List Instr) : (State.setPending q s).sent = s.sent := rfl
@[simp] theorem State.setPending_pending (q : List Instr) : (State.setPending q s).pending = q := rfl

/-! ### Reading after writing -/

theorem State.screen_congr {s u : State} (h : u.arb = s.arb) (i : Screen16) : u.screen i = s.screen i := by
  unfold State.screen
  rw [h]

theorem State.link_congr {s u : State} (h : u.links = s.links) (i : Screen16) : u.link i = s.link i := by
  unfold State.link
  rw [h]


@[simp] theorem State.setScreen_screen_self (i : Screen16) (x : Screen) : (s.setScreen i x).screen i = x := by
  simp [State.setScreen, State.screen]

theorem State.setScreen_screen_ne {i j : Screen16} (x : Screen) (h : i ≠ j) :
    (s.setScreen i x).screen j = s.screen j := by
  have h' : i.val ≠ j.val := fun e => h (Fin.ext e)
  simp [State.setScreen, State.screen, h']

@[simp] theorem State.setScreen_link (i j : Screen16) (x : Screen) : (s.setScreen i x).link j = s.link j := rfl

@[simp] theorem State.setLink_link_self (i : Screen16) (x : Link) : (s.setLink i x).link i = x := by
  simp [State.setLink, State.link]

theorem State.setLink_link_ne {i j : Screen16} (x : Link) (h : i ≠ j) : (s.setLink i x).link j = s.link j := by
  have h' : i.val ≠ j.val := fun e => h (Fin.ext e)
  simp [State.setLink, State.link, h']

@[simp] theorem State.setLink_screen (i j : Screen16) (x : Link) : (s.setLink i x).screen j = s.screen j := rfl

@[simp] theorem State.setLine_line_self (l : Line) (x : LinePort) : (s.setLine l x).line l = x := by
  simp [State.setLine, State.line]

theorem State.setLine_line_ne {l m : Line} (x : LinePort) (h : l ≠ m) : (s.setLine l x).line m = s.line m := by
  have h' : (lineIndex l).val ≠ (lineIndex m).val := by
    cases l <;> cases m <;> first | exact absurd rfl h | decide
  simp [State.setLine, State.line, h']

@[simp] theorem State.setCacheSet_self (j : Fin 32) (x : CacheSet) : (s.setCacheSet j x).cacheSet j = x := by
  simp [State.setCacheSet, State.cacheSet]

theorem State.setCacheSet_ne {j k : Fin 32} (x : CacheSet) (h : j ≠ k) :
    (s.setCacheSet j x).cacheSet k = s.cacheSet k := by
  have h' : j.val ≠ k.val := fun e => h (Fin.ext e)
  simp [State.setCacheSet, State.cacheSet, h']

@[simp] theorem State.setWay_way_self (j : Fin 32) (w : Fin 4) (x : Way) : (s.setWay j w x).way j w = x := by
  simp [State.setWay, State.way]

theorem State.setWay_way_ne {j : Fin 32} {w v : Fin 4} (x : Way) (h : w ≠ v) :
    (s.setWay j w x).way j v = s.way j v := by
  have h' : w.val ≠ v.val := fun e => h (Fin.ext e)
  simp [State.setWay, State.way, h']

end Sys2Proof.Machine
end

