-- ==== Sys2Proof/Laws/KeepsBus.lean ====
section
/-! SUPPORT. What the Shared Memory Interface does, said once: a property of states that is kept by the four
elementary updates of `Bus` is kept by every scan, outcome, refresh and journal operation. -/

namespace Sys2Proof.Machine

/-- Two interfaces with the same registers, port and journal; scans, outcomes, refreshes and timers may differ. -/
def Interface.sameCore (m n : Interface) : Prop :=
  n.base = m.base ∧ n.flags = m.flags ∧ n.enables = m.enables ∧ n.port = m.port ∧
    n.journalCount = m.journalCount ∧ n.journalQueue = m.journalQueue ∧ n.journalPhase = m.journalPhase

/-- Kept by every update that a scan, an outcome, a refresh or a journal record makes. -/
structure Bus (P : State → Prop) : Prop where
  journalAt : ∀ t b s, P s → P (s.journalAt t b)
  smi : ∀ m s, s.smi.sameCore m → P s → P { s with smi := m }
  setCause : ∀ f s, P s → P (s.setCause f)
  enqueue : ∀ a s, P s → P (s.enqueue a)

namespace Bus

variable {P : State → Prop} (h : Bus P)
include h

theorem journal (b s) (hs : P s) : P (s.journal b) := h.journalAt _ _ _ hs

/-! ### Status, scans and outcomes -/

theorem queueStatusWrite (w s) (hs : P s) : P (s.queueStatusWrite w) := h.enqueue _ _ hs

theorem startRefresh (s) (hs : P s) : P s.startRefresh := by
  unfold State.startRefresh
  dsimp only
  split
  · exact hs
  · exact h.queueStatusWrite _ _ (h.smi _ _ ⟨rfl, rfl, rfl, rfl, rfl, rfl, rfl⟩ hs)

theorem requestRefresh (s) (hs : P s) : P s.requestRefresh := by
  unfold State.requestRefresh
  split
  · exact h.startRefresh _ hs
  · exact h.smi _ _ ⟨rfl, rfl, rfl, rfl, rfl, rfl, rfl⟩ hs

theorem endRefresh (s) (hs : P s) : P s.endRefresh := by
  unfold State.endRefresh
  split
  · exact hs
  · have h1 : P { s with smi := { s.smi with refresh := .idle } } :=
      h.smi _ _ ⟨rfl, rfl, rfl, rfl, rfl, rfl, rfl⟩ hs
    dsimp only
    split
    · exact h.startRefresh _ h1
    · exact h1

theorem setScan (x s) (hs : P s) : P (s.setScan x) := h.smi _ _ ⟨rfl, rfl, rfl, rfl, rfl, rfl, rfl⟩ hs

theorem setOutcomes (os s) (hs : P s) : P (s.setOutcomes os) :=
  h.smi _ _ ⟨rfl, rfl, rfl, rfl, rfl, rfl, rfl⟩ hs

theorem queueOutcome (o s) (hs : P s) : P (s.queueOutcome o) := h.enqueue _ _ hs

theorem searchSlot (i n s) (hs : P s) : P (s.searchSlot i n) := h.enqueue _ _ (h.setScan _ _ hs)

theorem sweepSlot (i s) (hs : P s) : P (s.sweepSlot i) := h.enqueue _ _ (h.setScan _ _ hs)

theorem beginSearch (s) (hs : P s) : P s.beginSearch := h.searchSlot _ _ _ hs

theorem afterOutcomes (s) (hs : P s) : P s.afterOutcomes := by
  unfold State.afterOutcomes
  split
  · exact h.sweepSlot _ _ hs
  · exact h.beginSearch _ hs

theorem scanOutcomes (s) (hs : P s) : P s.scanOutcomes := by
  unfold State.scanOutcomes
  split
  · exact h.afterOutcomes _ hs
  · split
    · exact h.setScan _ _ hs
    · exact h.queueOutcome _ _ (h.setScan _ _ (h.setOutcomes _ _ hs))

theorem startOwedScan (s) (hs : P s) : P s.startOwedScan := by
  unfold State.startOwedScan
  split
  · exact h.scanOutcomes _ (h.smi _ _ ⟨rfl, rfl, rfl, rfl, rfl, rfl, rfl⟩ hs)
  · exact hs

theorem requestScan (s) (hs : P s) : P s.requestScan := by
  unfold State.requestScan
  split
  · exact h.scanOutcomes _ hs
  · exact h.smi _ _ ⟨rfl, rfl, rfl, rfl, rfl, rfl, rfl⟩ hs

theorem endScan (s) (hs : P s) : P s.endScan := h.startOwedScan _ (h.setScan _ _ hs)

theorem nextSlot (i n s) (hs : P s) : P (s.nextSlot i n) := by
  unfold State.nextSlot
  split
  · exact h.endScan _ hs
  · exact h.searchSlot _ _ _ hs

theorem nextSweep (i s) (hs : P s) : P (s.nextSweep i) := by
  unfold State.nextSweep
  split
  · exact h.beginSearch _ (h.smi _ _ ⟨rfl, rfl, rfl, rfl, rfl, rfl, rfl⟩ hs)
  · exact h.sweepSlot _ _ hs

theorem readSlot (i n d s) (hs : P s) : P (s.readSlot i n d) := h.enqueue _ _ (h.setScan _ _ hs)

theorem queueTake (i d s) (hs : P s) : P (s.queueTake i d) := by
  unfold State.queueTake
  split
  · exact h.enqueue _ _ (h.setScan _ _ hs)
  · exact h.endScan _ hs

theorem handBack (i c ws s) (hs : P s) : P (s.handBack i c ws) := h.queueOutcome _ _ (h.setOutcomes _ _ hs)

theorem outcomesSettled (s) (hs : P s) : P s.outcomesSettled := by
  unfold State.outcomesSettled
  repeat' split
  all_goals first
    | with_reducible exact hs
    | with_reducible exact h.endScan _ hs
    | with_reducible exact h.scanOutcomes _ hs

theorem resultsWritten (i s) (hs : P s) : P (s.resultsWritten i) := by
  unfold State.resultsWritten
  split
  · exact hs
  · exact h.enqueue _ _ hs

theorem doneWritten (i s) (hs : P s) : P (s.doneWritten i) := by
  unfold State.doneWritten
  split
  · exact hs
  · exact h.outcomesSettled _ (h.setCause _ _ (h.setOutcomes _ _ hs))

theorem outcomeFaulted (i s) (hs : P s) : P (s.outcomeFaulted i) := by
  unfold State.outcomeFaulted
  split
  · exact hs
  · have h1 := h.setOutcomes
    dsimp only
    split
    · exact h.outcomesSettled _ (h.setScan _ _ (h1 _ _ hs))
    · exact h1 _ _ hs

theorem sweepTaken (i s) (hs : P s) : P (s.sweepTaken i) := h.enqueue _ _ (h.setScan _ _ hs)

theorem sweepDoneWrite (i s) (hs : P s) : P (s.sweepDoneWrite i) := h.enqueue _ _ (h.setScan _ _ hs)

end Bus

/-! ### Operations that change the interface alone -/

/-- Only the interface differs. -/
def State.onlyBus (s u : State) : Prop := u = { s with smi := u.smi }

theorem State.onlyBus_refl (s : State) : s.onlyBus s := rfl

theorem State.onlyBus_smi {s u : State} (h : s.onlyBus u) (m : Interface) : s.onlyBus { u with smi := m } := by
  unfold State.onlyBus at *
  rw [h]

theorem State.startJournalWrite_onlyBus {s u : State} (h : s.onlyBus u) : s.onlyBus u.startJournalWrite := by
  unfold State.startJournalWrite
  split
  · exact State.onlyBus_smi (State.onlyBus_smi h _) _
  · exact h

theorem State.journalAt_onlyBus {s u : State} (t b) (h : s.onlyBus u) : s.onlyBus (u.journalAt t b) := by
  unfold State.journalAt
  dsimp only
  split
  · exact State.startJournalWrite_onlyBus (State.onlyBus_smi h _)
  · exact State.onlyBus_smi h _

/-- Whatever is built from the updates of `Bus` changes the interface alone. -/
theorem Bus.only (s : State) : Bus s.onlyBus where
  journalAt t b _ h := State.journalAt_onlyBus t b h
  smi m _ _ h := State.onlyBus_smi h m
  setCause _ _ h := State.onlyBus_smi h _
  enqueue _ _ h := State.onlyBus_smi h _

theorem State.onlyBus_clock {s u : State} (h : s.onlyBus u) : u.clock = s.clock := by rw [h]
theorem State.onlyBus_ctl {s u : State} (h : s.onlyBus u) : u.ctl = s.ctl := by rw [h]
theorem State.onlyBus_desk {s u : State} (h : s.onlyBus u) : u.desk = s.desk := by rw [h]
theorem State.onlyBus_trk {s u : State} (h : s.onlyBus u) : u.trk = s.trk := by rw [h]
theorem State.onlyBus_wlk {s u : State} (h : s.onlyBus u) : u.wlk = s.wlk := by rw [h]
theorem State.onlyBus_sch {s u : State} (h : s.onlyBus u) : u.sch = s.sch := by rw [h]
theorem State.onlyBus_du {s u : State} (h : s.onlyBus u) : u.du = s.du := by rw [h]
theorem State.onlyBus_arb {s u : State} (h : s.onlyBus u) : u.arb = s.arb := by rw [h]
theorem State.onlyBus_links {s u : State} (h : s.onlyBus u) : u.links = s.links := by rw [h]
theorem State.onlyBus_sent {s u : State} (h : s.onlyBus u) : u.sent = s.sent := by rw [h]
theorem State.onlyBus_pending {s u : State} (h : s.onlyBus u) : u.pending = s.pending := by rw [h]

variable (s : State)

@[simp] theorem State.enqueue_clock (a : Access) : (State.enqueue a s).clock = s.clock := rfl
@[simp] theorem State.enqueue_ctl (a : Access) : (State.enqueue a s).ctl = s.ctl := rfl
@[simp] theorem State.enqueue_desk (a : Access) : (State.enqueue a s).desk = s.desk := rfl
@[simp] theorem State.enqueue_trk (a : Access) : (State.enqueue a s).trk = s.trk := rfl
@[simp] theorem State.enqueue_wlk (a : Access) : (State.enqueue a s).wlk = s.wlk := rfl
@[simp] theorem State.enqueue_sch (a : Access) : (State.enqueue a s).sch = s.sch := rfl
@[simp] theorem State.enqueue_du (a : Access) : (State.enqueue a s).du = s.du := rfl
@[simp] theorem State.enqueue_arb (a : Access) : (State.enqueue a s).arb = s.arb := rfl
@[simp] theorem State.enqueue_links (a : Access) : (State.enqueue a s).links = s.links := rfl
@[simp] theorem State.enqueue_sent (a : Access) : (State.enqueue a s).sent = s.sent := rfl
@[simp] theorem State.enqueue_pending (a : Access) : (State.enqueue a s).pending = s.pending := rfl

@[simp] theorem State.freePort_clock : (State.freePort s).clock = s.clock := rfl
@[simp] theorem State.freePort_ctl : (State.freePort s).ctl = s.ctl := rfl
@[simp] theorem State.freePort_desk : (State.freePort s).desk = s.desk := rfl
@[simp] theorem State.freePort_trk : (State.freePort s).trk = s.trk := rfl
@[simp] theorem State.freePort_wlk : (State.freePort s).wlk = s.wlk := rfl
@[simp] theorem State.freePort_sch : (State.freePort s).sch = s.sch := rfl
@[simp] theorem State.freePort_du : (State.freePort s).du = s.du := rfl
@[simp] theorem State.freePort_arb : (State.freePort s).arb = s.arb := rfl
@[simp] theorem State.freePort_links : (State.freePort s).links = s.links := rfl
@[simp] theorem State.freePort_sent : (State.freePort s).sent = s.sent := rfl
@[simp] theorem State.freePort_pending : (State.freePort s).pending = s.pending := rfl

@[simp] theorem State.startJournalWrite_clock : (State.startJournalWrite s).clock = s.clock := State.onlyBus_clock (State.startJournalWrite_onlyBus s.onlyBus_refl)
@[simp] theorem State.startJournalWrite_ctl : (State.startJournalWrite s).ctl = s.ctl := State.onlyBus_ctl (State.startJournalWrite_onlyBus s.onlyBus_refl)
@[simp] theorem State.startJournalWrite_desk : (State.startJournalWrite s).desk = s.desk := State.onlyBus_desk (State.startJournalWrite_onlyBus s.onlyBus_refl)
@[simp] theorem State.startJournalWrite_trk : (State.startJournalWrite s).trk = s.trk := State.onlyBus_trk (State.startJournalWrite_onlyBus s.onlyBus_refl)
@[simp] theorem State.startJournalWrite_wlk : (State.startJournalWrite s).wlk = s.wlk := State.onlyBus_wlk (State.startJournalWrite_onlyBus s.onlyBus_refl)
@[simp] theorem State.startJournalWrite_sch : (State.startJournalWrite s).sch = s.sch := State.onlyBus_sch (State.startJournalWrite_onlyBus s.onlyBus_refl)
@[simp] theorem State.startJournalWrite_du : (State.startJournalWrite s).du = s.du := State.onlyBus_du (State.startJournalWrite_onlyBus s.onlyBus_refl)
@[simp] theorem State.startJournalWrite_arb : (State.startJournalWrite s).arb = s.arb := State.onlyBus_arb (State.startJournalWrite_onlyBus s.onlyBus_refl)
@[simp] theorem State.startJournalWrite_links : (State.startJournalWrite s).links = s.links := State.onlyBus_links (State.startJournalWrite_onlyBus s.onlyBus_refl)
@[simp] theorem State.startJournalWrite_sent : (State.startJournalWrite s).sent = s.sent := State.onlyBus_sent (State.startJournalWrite_onlyBus s.onlyBus_refl)
@[simp] theorem State.startJournalWrite_pending : (State.startJournalWrite s).pending = s.pending := State.onlyBus_pending (State.startJournalWrite_onlyBus s.onlyBus_refl)

@[simp] theorem State.journalAt_clock (t : Time) (b : Journal) : (State.journalAt t b s).clock = s.clock := State.onlyBus_clock (State.journalAt_onlyBus t b s.onlyBus_refl)
@[simp] theorem State.journalAt_ctl (t : Time) (b : Journal) : (State.journalAt t b s).ctl = s.ctl := State.onlyBus_ctl (State.journalAt_onlyBus t b s.onlyBus_refl)
@[simp] theorem State.journalAt_desk (t : Time) (b : Journal) : (State.journalAt t b s).desk = s.desk := State.onlyBus_desk (State.journalAt_onlyBus t b s.onlyBus_refl)
@[simp] theorem State.journalAt_trk (t : Time) (b : Journal) : (State.journalAt t b s).trk = s.trk := State.onlyBus_trk (State.journalAt_onlyBus t b s.onlyBus_refl)
@[simp] theorem State.journalAt_wlk (t : Time) (b : Journal) : (State.journalAt t b s).wlk = s.wlk := State.onlyBus_wlk (State.journalAt_onlyBus t b s.onlyBus_refl)
@[simp] theorem State.journalAt_sch (t : Time) (b : Journal) : (State.journalAt t b s).sch = s.sch := State.onlyBus_sch (State.journalAt_onlyBus t b s.onlyBus_refl)
@[simp] theorem State.journalAt_du (t : Time) (b : Journal) : (State.journalAt t b s).du = s.du := State.onlyBus_du (State.journalAt_onlyBus t b s.onlyBus_refl)
@[simp] theorem State.journalAt_arb (t : Time) (b : Journal) : (State.journalAt t b s).arb = s.arb := State.onlyBus_arb (State.journalAt_onlyBus t b s.onlyBus_refl)
@[simp] theorem State.journalAt_links (t : Time) (b : Journal) : (State.journalAt t b s).links = s.links := State.onlyBus_links (State.journalAt_onlyBus t b s.onlyBus_refl)
@[simp] theorem State.journalAt_sent (t : Time) (b : Journal) : (State.journalAt t b s).sent = s.sent := State.onlyBus_sent (State.journalAt_onlyBus t b s.onlyBus_refl)
@[simp] theorem State.journalAt_pending (t : Time) (b : Journal) : (State.journalAt t b s).pending = s.pending := State.onlyBus_pending (State.journalAt_onlyBus t b s.onlyBus_refl)

@[simp] theorem State.journal_clock (b : Journal) : (State.journal b s).clock = s.clock := State.journalAt_clock s s.clock b
@[simp] theorem State.journal_ctl (b : Journal) : (State.journal b s).ctl = s.ctl := State.journalAt_ctl s s.clock b
@[simp] theorem State.journal_desk (b : Journal) : (State.journal b s).desk = s.desk := State.journalAt_desk s s.clock b
@[simp] theorem State.journal_trk (b : Journal) : (State.journal b s).trk = s.trk := State.journalAt_trk s s.clock b
@[simp] theorem State.journal_wlk (b : Journal) : (State.journal b s).wlk = s.wlk := State.journalAt_wlk s s.clock b
@[simp] theorem State.journal_sch (b : Journal) : (State.journal b s).sch = s.sch := State.journalAt_sch s s.clock b
@[simp] theorem State.journal_du (b : Journal) : (State.journal b s).du = s.du := State.journalAt_du s s.clock b
@[simp] theorem State.journal_arb (b : Journal) : (State.journal b s).arb = s.arb := State.journalAt_arb s s.clock b
@[simp] theorem State.journal_links (b : Journal) : (State.journal b s).links = s.links := State.journalAt_links s s.clock b
@[simp] theorem State.journal_sent (b : Journal) : (State.journal b s).sent = s.sent := State.journalAt_sent s s.clock b
@[simp] theorem State.journal_pending (b : Journal) : (State.journal b s).pending = s.pending := State.journalAt_pending s s.clock b

@[simp] theorem State.requestRefresh_clock : (State.requestRefresh s).clock = s.clock := State.onlyBus_clock ((Bus.only s).requestRefresh s s.onlyBus_refl)
@[simp] theorem State.requestRefresh_ctl : (State.requestRefresh s).ctl = s.ctl := State.onlyBus_ctl ((Bus.only s).requestRefresh s s.onlyBus_refl)
@[simp] theorem State.requestRefresh_desk : (State.requestRefresh s).desk = s.desk := State.onlyBus_desk ((Bus.only s).requestRefresh s s.onlyBus_refl)
@[simp] theorem State.requestRefresh_trk : (State.requestRefresh s).trk = s.trk := State.onlyBus_trk ((Bus.only s).requestRefresh s s.onlyBus_refl)
@[simp] theorem State.requestRefresh_wlk : (State.requestRefresh s).wlk = s.wlk := State.onlyBus_wlk ((Bus.only s).requestRefresh s s.onlyBus_refl)
@[simp] theorem State.requestRefresh_sch : (State.requestRefresh s).sch = s.sch := State.onlyBus_sch ((Bus.only s).requestRefresh s s.onlyBus_refl)
@[simp] theorem State.requestRefresh_du : (State.requestRefresh s).du = s.du := State.onlyBus_du ((Bus.only s).requestRefresh s s.onlyBus_refl)
@[simp] theorem State.requestRefresh_arb : (State.requestRefresh s).arb = s.arb := State.onlyBus_arb ((Bus.only s).requestRefresh s s.onlyBus_refl)
@[simp] theorem State.requestRefresh_links : (State.requestRefresh s).links = s.links := State.onlyBus_links ((Bus.only s).requestRefresh s s.onlyBus_refl)
@[simp] theorem State.requestRefresh_sent : (State.requestRefresh s).sent = s.sent := State.onlyBus_sent ((Bus.only s).requestRefresh s s.onlyBus_refl)
@[simp] theorem State.requestRefresh_pending : (State.requestRefresh s).pending = s.pending := State.onlyBus_pending ((Bus.only s).requestRefresh s s.onlyBus_refl)

@[simp] theorem State.startOwedScan_clock : (State.startOwedScan s).clock = s.clock := State.onlyBus_clock ((Bus.only s).startOwedScan s s.onlyBus_refl)
@[simp] theorem State.startOwedScan_ctl : (State.startOwedScan s).ctl = s.ctl := State.onlyBus_ctl ((Bus.only s).startOwedScan s s.onlyBus_refl)
@[simp] theorem State.startOwedScan_desk : (State.startOwedScan s).desk = s.desk := State.onlyBus_desk ((Bus.only s).startOwedScan s s.onlyBus_refl)
@[simp] theorem State.startOwedScan_trk : (State.startOwedScan s).trk = s.trk := State.onlyBus_trk ((Bus.only s).startOwedScan s s.onlyBus_refl)
@[simp] theorem State.startOwedScan_wlk : (State.startOwedScan s).wlk = s.wlk := State.onlyBus_wlk ((Bus.only s).startOwedScan s s.onlyBus_refl)
@[simp] theorem State.startOwedScan_sch : (State.startOwedScan s).sch = s.sch := State.onlyBus_sch ((Bus.only s).startOwedScan s s.onlyBus_refl)
@[simp] theorem State.startOwedScan_du : (State.startOwedScan s).du = s.du := State.onlyBus_du ((Bus.only s).startOwedScan s s.onlyBus_refl)
@[simp] theorem State.startOwedScan_arb : (State.startOwedScan s).arb = s.arb := State.onlyBus_arb ((Bus.only s).startOwedScan s s.onlyBus_refl)
@[simp] theorem State.startOwedScan_links : (State.startOwedScan s).links = s.links := State.onlyBus_links ((Bus.only s).startOwedScan s s.onlyBus_refl)
@[simp] theorem State.startOwedScan_sent : (State.startOwedScan s).sent = s.sent := State.onlyBus_sent ((Bus.only s).startOwedScan s s.onlyBus_refl)
@[simp] theorem State.startOwedScan_pending : (State.startOwedScan s).pending = s.pending := State.onlyBus_pending ((Bus.only s).startOwedScan s s.onlyBus_refl)

@[simp] theorem State.scanOutcomes_clock : (State.scanOutcomes s).clock = s.clock := State.onlyBus_clock ((Bus.only s).scanOutcomes s s.onlyBus_refl)
@[simp] theorem State.scanOutcomes_ctl : (State.scanOutcomes s).ctl = s.ctl := State.onlyBus_ctl ((Bus.only s).scanOutcomes s s.onlyBus_refl)
@[simp] theorem State.scanOutcomes_desk : (State.scanOutcomes s).desk = s.desk := State.onlyBus_desk ((Bus.only s).scanOutcomes s s.onlyBus_refl)
@[simp] theorem State.scanOutcomes_trk : (State.scanOutcomes s).trk = s.trk := State.onlyBus_trk ((Bus.only s).scanOutcomes s s.onlyBus_refl)
@[simp] theorem State.scanOutcomes_wlk : (State.scanOutcomes s).wlk = s.wlk := State.onlyBus_wlk ((Bus.only s).scanOutcomes s s.onlyBus_refl)
@[simp] theorem State.scanOutcomes_sch : (State.scanOutcomes s).sch = s.sch := State.onlyBus_sch ((Bus.only s).scanOutcomes s s.onlyBus_refl)
@[simp] theorem State.scanOutcomes_du : (State.scanOutcomes s).du = s.du := State.onlyBus_du ((Bus.only s).scanOutcomes s s.onlyBus_refl)
@[simp] theorem State.scanOutcomes_arb : (State.scanOutcomes s).arb = s.arb := State.onlyBus_arb ((Bus.only s).scanOutcomes s s.onlyBus_refl)
@[simp] theorem State.scanOutcomes_links : (State.scanOutcomes s).links = s.links := State.onlyBus_links ((Bus.only s).scanOutcomes s s.onlyBus_refl)
@[simp] theorem State.scanOutcomes_sent : (State.scanOutcomes s).sent = s.sent := State.onlyBus_sent ((Bus.only s).scanOutcomes s s.onlyBus_refl)
@[simp] theorem State.scanOutcomes_pending : (State.scanOutcomes s).pending = s.pending := State.onlyBus_pending ((Bus.only s).scanOutcomes s s.onlyBus_refl)

@[simp] theorem State.handBack_clock (i : Slot) (c : OutcomeCode) (ws : List Nat) : (State.handBack i c ws s).clock = s.clock := rfl
@[simp] theorem State.handBack_ctl (i : Slot) (c : OutcomeCode) (ws : List Nat) : (State.handBack i c ws s).ctl = s.ctl := rfl
@[simp] theorem State.handBack_desk (i : Slot) (c : OutcomeCode) (ws : List Nat) : (State.handBack i c ws s).desk = s.desk := rfl
@[simp] theorem State.handBack_trk (i : Slot) (c : OutcomeCode) (ws : List Nat) : (State.handBack i c ws s).trk = s.trk := rfl
@[simp] theorem State.handBack_wlk (i : Slot) (c : OutcomeCode) (ws : List Nat) : (State.handBack i c ws s).wlk = s.wlk := rfl
@[simp] theorem State.handBack_sch (i : Slot) (c : OutcomeCode) (ws : List Nat) : (State.handBack i c ws s).sch = s.sch := rfl
@[simp] theorem State.handBack_du (i : Slot) (c : OutcomeCode) (ws : List Nat) : (State.handBack i c ws s).du = s.du := rfl
@[simp] theorem State.handBack_arb (i : Slot) (c : OutcomeCode) (ws : List Nat) : (State.handBack i c ws s).arb = s.arb := rfl
@[simp] theorem State.handBack_links (i : Slot) (c : OutcomeCode) (ws : List Nat) : (State.handBack i c ws s).links = s.links := rfl
@[simp] theorem State.handBack_sent (i : Slot) (c : OutcomeCode) (ws : List Nat) : (State.handBack i c ws s).sent = s.sent := rfl
@[simp] theorem State.handBack_pending (i : Slot) (c : OutcomeCode) (ws : List Nat) : (State.handBack i c ws s).pending = s.pending := rfl

end Sys2Proof.Machine
end

