-- ==== Sys2Proof/Laws/Port.lean ====
section
/-! SUPPORT. The memory port: what joining, granting and freeing do to what it holds, and that they keep it sound
(R184). An access that waits while another is in flight goes on waiting until the port is freed, and is then
held still. -/

namespace Sys2Proof.Machine

/-! ### Granting -/

theorem Port.grant_busy {p : Port} {f : InFlight} (now) (h : p.inFlight = some f) : p.grant now = p := by
  unfold Port.grant
  rw [h]

theorem Port.grant_sound (now) (p : Port) : (p.grant now).sound := by
  intro h
  cases hp : p.inFlight with
  | some f => rw [Port.grant_busy now hp, hp] at h; cases h
  | none =>
    revert h
    unfold Port.grant
    rw [hp]
    dsimp only
    cases hu : p.urgent <;> cases hb : p.background <;> dsimp only
    · exact fun _ => ⟨hu, hb⟩
    · intro h; cases h
    · intro h; cases h
    · split
      · intro h; cases h
      · split <;> (intro h; cases h)

theorem Port.grant_holds {p : Port} {a : Access} (now) (h : p.waits a) : (p.grant now).holds a := by
  cases hp : p.inFlight with
  | some f => rw [Port.grant_busy now hp]; exact .inr h
  | none =>
    revert h
    unfold Port.grant Port.waits Port.holds
    rw [hp]
    dsimp only
    cases hu : p.urgent <;> cases hb : p.background <;> dsimp only
    · simp
    · rintro (h | h)
      · cases h
      · rcases List.mem_cons.1 h with rfl | h
        · exact .inl ⟨_, rfl, rfl, rfl⟩
        · exact .inr (.inr h)
    · rintro (h | h)
      · rcases List.mem_cons.1 h with rfl | h
        · exact .inl ⟨_, rfl, rfl, rfl⟩
        · exact .inr (.inl h)
      · cases h
    · have hl : ∀ {u : Access} {us bs : List Access} {p : Port}, p.inFlight = some ⟨u, now, false⟩ → p.urgent = us →
          p.background = bs → (a ∈ u :: us ∨ a ∈ bs) →
          (∃ f, p.inFlight = some f ∧ f.access = a ∧ f.abandoned = false) ∨ a ∈ p.urgent ∨ a ∈ p.background := by
        intro u us bs p h1 h2 h3 h
        rw [h2, h3]
        rcases h with h | h
        · rcases List.mem_cons.1 h with rfl | h
          · exact .inl ⟨_, h1, rfl, rfl⟩
          · exact .inr (.inl h)
        · exact .inr (.inr h)
      have hr : ∀ {b : Access} {us bs : List Access} {p : Port}, p.inFlight = some ⟨b, now, false⟩ → p.urgent = us →
          p.background = bs → (a ∈ us ∨ a ∈ b :: bs) →
          (∃ f, p.inFlight = some f ∧ f.access = a ∧ f.abandoned = false) ∨ a ∈ p.urgent ∨ a ∈ p.background := by
        intro b us bs p h1 h2 h3 h
        rw [h2, h3]
        rcases h with h | h
        · exact .inr (.inl h)
        · rcases List.mem_cons.1 h with rfl | h
          · exact .inl ⟨_, h1, rfl, rfl⟩
          · exact .inr (.inr h)
      intro h
      split
      · exact hl rfl rfl rfl h
      · split
        · exact hl rfl rfl rfl h
        · exact hr rfl rfl rfl h

/-! ### Joining and freeing -/

theorem Port.push_waits (p : Port) (a : Access) : (p.push a).waits a := by
  unfold Port.push Port.waits
  split <;> simp

theorem Port.push_keeps {p : Port} {a : Access} (b) (h : p.waits a) : (p.push b).waits a := by
  unfold Port.push Port.waits at *
  split <;> simp <;> tauto

theorem Port.push_inFlight (p : Port) (a : Access) : (p.push a).inFlight = p.inFlight := by
  unfold Port.push
  split <;> rfl

theorem State.enqueue_holds (a : Access) (s : State) : (s.enqueue a).smi.port.holds a :=
  Port.grant_holds _ (Port.push_waits _ _)

theorem State.freePort_holds {s : State} {a : Access} (h : s.smi.port.waits a) : s.freePort.smi.port.holds a :=
  Port.grant_holds _ h

theorem State.enqueue_busy {s : State} {f : InFlight} (a) (h : s.smi.port.inFlight = some f) :
    (s.enqueue a).smi.port = s.smi.port.push a :=
  Port.grant_busy _ (by rw [Port.push_inFlight, h])

/-! ### Waiting behind the access in flight -/

/-- An access is in flight, and `a` waits behind it. -/
def State.waitsBehind (a : Access) (f : InFlight) (s : State) : Prop :=
  s.smi.port.inFlight = some f ∧ s.smi.port.waits a

theorem State.waitsBehind_enqueue {a : Access} {f : InFlight} {s : State} (b) (h : s.waitsBehind a f) :
    (s.enqueue b).waitsBehind a f := by
  unfold State.waitsBehind
  rw [State.enqueue_busy b h.1]
  exact ⟨by rw [Port.push_inFlight, h.1], Port.push_keeps b h.2⟩

theorem State.enqueue_waitsBehind {f : InFlight} {s : State} (a) (h : s.smi.port.inFlight = some f) :
    (s.enqueue a).waitsBehind a f := by
  unfold State.waitsBehind
  rw [State.enqueue_busy a h]
  exact ⟨by rw [Port.push_inFlight, h], Port.push_waits _ a⟩

theorem State.startJournalWrite_keeps {P : State → Prop} (he : ∀ a s, P s → P (s.enqueue a))
    (hp : ∀ (s : State) x, P s → P { s with smi := { s.smi with journalPhase := x } }) (s : State) (hs : P s) :
    P s.startJournalWrite := by
  unfold State.startJournalWrite
  split
  · exact he _ _ (hp s _ hs)
  · exact hs

theorem State.journalAt_keeps {P : State → Prop} (he : ∀ a s, P s → P (s.enqueue a))
    (hp : ∀ (s : State) x, P s → P { s with smi := { s.smi with journalPhase := x } })
    (hq : ∀ (s : State) n q, P s → P { s with smi := { s.smi with journalCount := n, journalQueue := q } })
    (t b) (s : State) (hs : P s) : P (s.journalAt t b) := by
  unfold State.journalAt
  dsimp only
  split
  · exact State.startJournalWrite_keeps he hp _ (hq s _ _ hs)
  · exact hq s _ s.smi.journalQueue hs

/-- Whatever the interface does, an access that waits behind the one in flight goes on waiting. -/
theorem Bus.waitsBehind (a : Access) (f : InFlight) : Bus (State.waitsBehind a f) where
  journalAt t b s hs := State.journalAt_keeps (fun _ _ h => State.waitsBehind_enqueue _ h) (fun _ _ h => h)
    (fun _ _ _ h => h) t b s hs
  smi m s hm hs := by
    unfold State.waitsBehind at *
    rw [hm.2.2.2.1]
    exact hs
  setCause _ _ h := h
  enqueue _ _ h := State.waitsBehind_enqueue _ h

theorem State.waitsBehind.freePort {a : Access} {f : InFlight} {s : State} (h : s.waitsBehind a f) :
    s.freePort.smi.port.holds a := State.freePort_holds h.2

/-- Whatever the interface does, the access in flight stays in flight until it ends. -/
theorem Bus.inFlight (f : InFlight) : Bus (fun s => s.smi.port.inFlight = some f) where
  journalAt t b s hs := State.journalAt_keeps (P := fun s => s.smi.port.inFlight = some f)
    (fun a _ h => (State.enqueue_waitsBehind a h).1) (fun _ _ h => h) (fun _ _ _ h => h) t b s hs
  smi m s hm hs := by
    rw [hm.2.2.2.1]
    exact hs
  setCause _ _ h := h
  enqueue a _ h := (State.enqueue_waitsBehind a h).1

/-! ### The weight -/

theorem Port.grant_weight (now : Time) (p : Port) : (p.grant now).weight = p.weight := by
  unfold Port.grant
  repeat' split
  all_goals rfl

theorem Port.push_weight (p : Port) (a : Access) : (p.push a).weight = p.weight := by
  unfold Port.push
  split <;> rfl

theorem State.enqueue_weight (a : Access) (s : State) : (s.enqueue a).smi.port.weight = s.smi.port.weight :=
  (Port.grant_weight _ _).trans (Port.push_weight _ _)

/-- The weight of the port is changed by no access, record or refresh. -/
theorem Bus.weight (w : Weight) : Bus (fun s => s.smi.port.weight = w) where
  journalAt t b s h := State.journalAt_keeps (P := fun s => s.smi.port.weight = w)
    (fun a s h => (State.enqueue_weight a s).trans h) (fun _ _ h => h) (fun _ _ _ h => h) t b s h
  smi m s hm h := by
    rw [hm.2.2.2.1]
    exact h
  setCause _ _ h := h
  enqueue a s h := (State.enqueue_weight a s).trans h

/-! ### Soundness -/

theorem State.enqueue_sound (a : Access) (s : State) : (s.enqueue a).smi.port.sound := Port.grant_sound _ _

theorem State.freePort_sound (s : State) : s.freePort.smi.port.sound := Port.grant_sound _ _

end Sys2Proof.Machine
end

