-- ==== Sys2Proof/Laws/Journal.lean ====
section
/-! SUPPORT. What producing a journal record and ending a journal write do to the interface: they keep its
registers, a sound port and a sound journal queue. -/

namespace Sys2Proof.Machine

/-! ### The first write of a record -/

theorem State.startJournalWrite_registers (s : State) :
    s.startJournalWrite.smi.base = s.smi.base ∧ s.startJournalWrite.smi.flags = s.smi.flags ∧
      s.startJournalWrite.smi.enables = s.smi.enables ∧ s.startJournalWrite.smi.outcomes = s.smi.outcomes ∧
      s.startJournalWrite.smi.scan = s.smi.scan ∧ s.startJournalWrite.smi.journalCount = s.smi.journalCount ∧
      s.startJournalWrite.smi.journalQueue = s.smi.journalQueue ∧ s.startJournalWrite.smi.rotation = s.smi.rotation := by
  unfold State.startJournalWrite
  split <;> exact ⟨rfl, rfl, rfl, rfl, rfl, rfl, rfl, rfl⟩

theorem State.startJournalWrite_port_sound {s : State} (h : s.smi.port.sound) :
    s.startJournalWrite.smi.port.sound := by
  unfold State.startJournalWrite
  split
  · exact State.enqueue_sound _ _
  · exact h

/-- With a queue that is being written, or nothing being written, a write is outstanding exactly while the queue
holds a record. -/
theorem State.startJournalWrite_phase {s : State} (h : s.smi.journalPhase = .idle ∨ s.smi.journalQueue ≠ []) :
    s.startJournalWrite.smi.journalPhase = .idle ↔ s.smi.journalQueue = [] := by
  unfold State.startJournalWrite
  split
  · next h1 h2 => simp [State.enqueue, State.setPort, h2]
  · next hx =>
    cases hq : s.smi.journalQueue with
    | nil => simpa [hq] using h
    | cons r rs =>
      cases hp : s.smi.journalPhase
      · exact absurd hq (hx _ _ hp)
      · simp
      · simp

/-! ### Producing a record -/

theorem State.journalAt_registers (t : Time) (b : Journal) (s : State) :
    (s.journalAt t b).smi.base = s.smi.base ∧ (s.journalAt t b).smi.flags = s.smi.flags ∧
      (s.journalAt t b).smi.enables = s.smi.enables ∧ (s.journalAt t b).smi.outcomes = s.smi.outcomes ∧
      (s.journalAt t b).smi.scan = s.smi.scan ∧ (s.journalAt t b).smi.rotation = s.smi.rotation := by
  unfold State.journalAt
  dsimp only
  split
  · have h := State.startJournalWrite_registers { s with
      smi := { s.smi with
        journalCount := (s.smi.journalCount + 1) % Config.wrap32
        journalQueue := s.smi.journalQueue ++ [⟨s.smi.journalCount, t, b⟩] } }
    exact ⟨h.1, h.2.1, h.2.2.1, h.2.2.2.1, h.2.2.2.2.1, h.2.2.2.2.2.2.2⟩
  · exact ⟨rfl, rfl, rfl, rfl, rfl, rfl⟩

/-- Every record takes the next sequence number, and joins the queue while that holds fewer than 16 (R190). -/
theorem State.journalAt_journal (t : Time) (b : Journal) (s : State) :
    (s.journalAt t b).smi.journalCount = (s.smi.journalCount + 1) % 4294967296 ∧
      (s.journalAt t b).smi.journalQueue = if s.smi.journalQueue.length < 16
        then s.smi.journalQueue ++ [⟨s.smi.journalCount, t, b⟩] else s.smi.journalQueue := by
  unfold State.journalAt
  dsimp only
  split
  · next h =>
    have h1 := State.startJournalWrite_registers { s with
      smi := { s.smi with
        journalCount := (s.smi.journalCount + 1) % Config.wrap32
        journalQueue := s.smi.journalQueue ++ [⟨s.smi.journalCount, t, b⟩] } }
    rw [if_pos (by simpa [Config.journalQueueMax] using h)]
    exact ⟨h1.2.2.2.2.2.1, h1.2.2.2.2.2.2.1⟩
  · next h =>
    rw [if_neg (by simpa [Config.journalQueueMax] using h)]
    exact ⟨rfl, rfl⟩

theorem State.journalAt_sound (t : Time) (b : Journal) {s : State} (hp : s.smi.port.sound)
    (hj : s.smi.journalSound) : (s.journalAt t b).smi.port.sound ∧ (s.journalAt t b).smi.journalSound := by
  obtain ⟨h2, h3⟩ := hj
  have hq := (State.journalAt_journal t b s).2
  unfold State.journalAt at *
  dsimp only at *
  split
  · refine ⟨State.startJournalWrite_port_sound hp, ?_, ?_⟩
    · rw [(State.startJournalWrite_registers _).2.2.2.2.2.2.1]
      simp
      omega
    · rw [(State.startJournalWrite_registers _).2.2.2.2.2.2.1]
      exact State.startJournalWrite_phase (by simp)
  · exact ⟨hp, h2, h3⟩

/-- A record produced while a journal write is outstanding and the queue has room joins it, and nothing else moves
(R190, R191). -/
theorem State.journal_behind {s : State} (b) (hp : s.smi.journalPhase ≠ .idle) (hq : s.smi.journalQueue.length < 16) :
    s.journal b = { s with smi := { s.smi with
      journalCount := (s.smi.journalCount + 1) % 4294967296
      journalQueue := s.smi.journalQueue ++ [⟨s.smi.journalCount, s.clock, b⟩] } } := by
  unfold State.journal State.journalAt
  rw [if_pos (by simpa [Config.journalQueueMax] using hq)]
  unfold State.startJournalWrite
  split
  · next h _ => exact absurd h hp
  · rfl

/-- A record produced into an empty journal queue is written at once (R190, R191). -/
theorem State.journal_first {s : State} (b) (hp : s.smi.journalPhase = .idle) (hq : s.smi.journalQueue = []) :
    s.journal b = { s with smi := { s.smi with
      journalCount := (s.smi.journalCount + 1) % 4294967296
      journalQueue := [⟨s.smi.journalCount, s.clock, b⟩]
      journalPhase := .record
      port := (s.smi.port.push (.writing .journalRecord (s.journalAddress s.smi.journalCount)
        (JournalRecord.bytes ⟨s.smi.journalCount, s.clock, b⟩) .urgent)).grant s.clock } } := by
  unfold State.journal State.journalAt
  rw [if_pos (by simp [hq, Config.journalQueueMax])]
  simp [State.startJournalWrite, hp, hq, State.enqueue, State.setPort, State.journalAddress, Config.wrap32]

/-- A record produced into a full queue is lost, and counted (R190). -/
theorem State.journal_full {s : State} (b) (hq : 16 ≤ s.smi.journalQueue.length) :
    s.journal b = { s with smi := { s.smi with journalCount := (s.smi.journalCount + 1) % 4294967296 } } := by
  unfold State.journal State.journalAt
  rw [if_neg (by simpa [Config.journalQueueMax] using hq)]
  rfl

/-! ### Ending a write -/

theorem State.writeJournalCount_sound {s : State} (hp : s.smi.port.sound) (hj : s.smi.journalSound) :
    s.writeJournalCount.smi.port.sound ∧ s.writeJournalCount.smi.journalSound := by
  unfold State.writeJournalCount
  split
  · exact ⟨hp, hj⟩
  · next h => exact ⟨State.enqueue_sound _ _, hj.1, by simp [State.enqueue, State.setPort, h]⟩

theorem State.dropJournalHead_sound {s : State} (hp : s.smi.port.sound) (hj : s.smi.journalSound) :
    s.dropJournalHead.smi.port.sound ∧ s.dropJournalHead.smi.journalSound := by
  unfold State.dropJournalHead
  refine ⟨State.startJournalWrite_port_sound hp, ?_, ?_⟩
  · rw [(State.startJournalWrite_registers _).2.2.2.2.2.2.1]
    have := hj.1
    simp
    omega
  · rw [(State.startJournalWrite_registers _).2.2.2.2.2.2.1]
    exact State.startJournalWrite_phase (.inl rfl)

theorem State.writeJournalCount_frame (s : State) :
    s.writeJournalCount.smi.base = s.smi.base ∧ s.writeJournalCount.smi.flags = s.smi.flags ∧
      s.writeJournalCount.smi.enables = s.smi.enables ∧ s.onlyBus s.writeJournalCount := by
  unfold State.writeJournalCount
  split <;> exact ⟨rfl, rfl, rfl, rfl⟩

theorem State.dropJournalHead_frame (s : State) :
    s.dropJournalHead.smi.base = s.smi.base ∧ s.dropJournalHead.smi.flags = s.smi.flags ∧
      s.dropJournalHead.smi.enables = s.smi.enables ∧ s.onlyBus s.dropJournalHead := by
  unfold State.dropJournalHead
  have h := State.startJournalWrite_registers { s with
    smi := { s.smi with
      journalPhase := .idle
      journalQueue := s.smi.journalQueue.tail } }
  exact ⟨h.1, h.2.1, h.2.2.1, State.startJournalWrite_onlyBus (State.onlyBus_smi s.onlyBus_refl _)⟩

end Sys2Proof.Machine
end

