-- ==== Sys2Proof/Laws/Engine.lean ====
section
/-! SUPPORT. What journal records and status refreshes leave alone: the registers, the scan, the outcomes and the
two timers of the interface; and so a change of the engine state. -/

namespace Sys2Proof.Machine

/-- The same registers, scan, outcomes and timers; the port, the journal and the refresh may differ. -/
def Interface.sameScan (m n : Interface) : Prop :=
  n.base = m.base ∧ n.flags = m.flags ∧ n.enables = m.enables ∧ n.outcomes = m.outcomes ∧ n.scan = m.scan ∧
    n.scanRequest = m.scanRequest ∧ n.scanTimer = m.scanTimer ∧ n.rotation = m.rotation ∧
    n.sweepPending = m.sweepPending ∧ n.statusTimer = m.statusTimer

theorem Interface.sameScan_refl (m : Interface) : m.sameScan m := ⟨rfl, rfl, rfl, rfl, rfl, rfl, rfl, rfl, rfl, rfl⟩

theorem Interface.sameScan_trans {m n o : Interface} (h : m.sameScan n) (g : n.sameScan o) : m.sameScan o := by
  obtain ⟨a1, a2, a3, a4, a5, a6, a7, a8, a9, a10⟩ := h
  obtain ⟨b1, b2, b3, b4, b5, b6, b7, b8, b9, b10⟩ := g
  exact ⟨b1.trans a1, b2.trans a2, b3.trans a3, b4.trans a4, b5.trans a5, b6.trans a6, b7.trans a7, b8.trans a8,
    b9.trans a9, b10.trans a10⟩

theorem State.enqueue_sameScan (a : Access) (s : State) : s.smi.sameScan (s.enqueue a).smi :=
  ⟨rfl, rfl, rfl, rfl, rfl, rfl, rfl, rfl, rfl, rfl⟩

theorem State.startJournalWrite_sameScan (s : State) : s.smi.sameScan s.startJournalWrite.smi := by
  unfold State.startJournalWrite
  split <;> exact ⟨rfl, rfl, rfl, rfl, rfl, rfl, rfl, rfl, rfl, rfl⟩

theorem State.journalAt_sameScan (t : Time) (b : Journal) (s : State) : s.smi.sameScan (s.journalAt t b).smi := by
  unfold State.journalAt
  dsimp only
  split
  · exact Interface.sameScan_trans ⟨rfl, rfl, rfl, rfl, rfl, rfl, rfl, rfl, rfl, rfl⟩
      (State.startJournalWrite_sameScan _)
  · exact ⟨rfl, rfl, rfl, rfl, rfl, rfl, rfl, rfl, rfl, rfl⟩

theorem State.journal_sameScan (b : Journal) (s : State) : s.smi.sameScan (s.journal b).smi :=
  State.journalAt_sameScan _ _ _

theorem State.startRefresh_sameScan (s : State) : s.smi.sameScan s.startRefresh.smi := by
  unfold State.startRefresh
  dsimp only
  split <;> exact ⟨rfl, rfl, rfl, rfl, rfl, rfl, rfl, rfl, rfl, rfl⟩

theorem State.requestRefresh_sameScan (s : State) : s.smi.sameScan s.requestRefresh.smi := by
  unfold State.requestRefresh
  split
  · exact State.startRefresh_sameScan _
  · exact ⟨rfl, rfl, rfl, rfl, rfl, rfl, rfl, rfl, rfl, rfl⟩

theorem State.endRefresh_sameScan (s : State) : s.smi.sameScan s.endRefresh.smi := by
  unfold State.endRefresh
  split
  · exact Interface.sameScan_refl _
  · dsimp only
    split
    · exact Interface.sameScan_trans ⟨rfl, rfl, rfl, rfl, rfl, rfl, rfl, rfl, rfl, rfl⟩
        (State.startRefresh_sameScan _)
    · exact ⟨rfl, rfl, rfl, rfl, rfl, rfl, rfl, rfl, rfl, rfl⟩

theorem State.changeEngine_sameScan (e c sl l o) (s : State) : s.smi.sameScan (s.changeEngine e c sl l o).smi :=
  Interface.sameScan_trans (State.journal_sameScan _ { s with ctl := { s.ctl with engine := e } })
    (State.requestRefresh_sameScan _)

/-- A change of the engine state changes Show Control's state and the interface alone. -/
theorem State.changeEngine_frame (e c sl l o) (s : State) : s.changeEngine e c sl l o = { s with
    ctl := { s.ctl with engine := e }, smi := (s.changeEngine e c sl l o).smi } :=
  (Bus.only { s with ctl := { s.ctl with engine := e } }).requestRefresh _
    ((Bus.only { s with ctl := { s.ctl with engine := e } }).journal _ _ rfl)

variable (s : State)

@[simp] theorem State.changeEngine_clock (e c sl l o) : (s.changeEngine e c sl l o).clock = s.clock := by
  rw [State.changeEngine_frame]
@[simp] theorem State.changeEngine_ctl (e c sl l o) :
    (s.changeEngine e c sl l o).ctl = { s.ctl with engine := e } := by rw [State.changeEngine_frame]
@[simp] theorem State.changeEngine_desk (e c sl l o) : (s.changeEngine e c sl l o).desk = s.desk := by
  rw [State.changeEngine_frame]
@[simp] theorem State.changeEngine_trk (e c sl l o) : (s.changeEngine e c sl l o).trk = s.trk := by
  rw [State.changeEngine_frame]
@[simp] theorem State.changeEngine_wlk (e c sl l o) : (s.changeEngine e c sl l o).wlk = s.wlk := by
  rw [State.changeEngine_frame]
@[simp] theorem State.changeEngine_sch (e c sl l o) : (s.changeEngine e c sl l o).sch = s.sch := by
  rw [State.changeEngine_frame]
@[simp] theorem State.changeEngine_du (e c sl l o) : (s.changeEngine e c sl l o).du = s.du := by
  rw [State.changeEngine_frame]
@[simp] theorem State.changeEngine_arb (e c sl l o) : (s.changeEngine e c sl l o).arb = s.arb := by
  rw [State.changeEngine_frame]
@[simp] theorem State.changeEngine_links (e c sl l o) : (s.changeEngine e c sl l o).links = s.links := by
  rw [State.changeEngine_frame]
@[simp] theorem State.changeEngine_sent (e c sl l o) : (s.changeEngine e c sl l o).sent = s.sent := by
  rw [State.changeEngine_frame]
@[simp] theorem State.changeEngine_pending (e c sl l o) : (s.changeEngine e c sl l o).pending = s.pending := by
  rw [State.changeEngine_frame]

end Sys2Proof.Machine
end

