-- ==== Sys2Proof/Laws/Answer.lean ====
section
/-! SUPPORT. The answer of an access in flight: what is done is the act of its purpose, behind the access, and then
the port grants the next one (R184, R185). -/

namespace Sys2Proof.Machine

theorem State.inFlight_begin (t : Time) (s : State) : (s.begin t).inFlight = s.inFlight := rfl

/-- The port is busy while an access is answered. -/
theorem State.answering_busy {s : State} {p : Purpose} (h : s.answering p) :
    ∃ f, s.smi.port.inFlight = some f ∧ f.abandoned = false ∧ f.access.purpose = p := by
  obtain ⟨a, ha, hp⟩ := h
  unfold State.inFlight at ha
  split at ha
  · next f hf =>
    split at ha
    · cases ha
    · next hn =>
      cases ha
      exact ⟨f, hf, by simpa using hn, hp⟩
  · cases ha

theorem State.answer_eq {s : State} {p : Purpose} {f : Purpose → Option (State → State)} {act : State → State}
    (h : s.answering p) (hf : f p = some act) : s.answer f = (act s).freePort := by
  obtain ⟨a, ha, rfl⟩ := h
  unfold State.answer
  rw [ha]
  dsimp only
  rw [hf]

theorem State.answering_begin {s : State} {p : Purpose} (t : Time) (h : s.answering p) : (s.begin t).answering p := h

/-- An access queued while another is being answered is held by the port when that has ended. -/
theorem State.enqueue_freePort_holds {s : State} {f : InFlight} (a : Access) (h : s.smi.port.inFlight = some f) :
    ((s.enqueue a).freePort).smi.port.holds a :=
  State.freePort_holds (State.enqueue_waitsBehind a h).2

end Sys2Proof.Machine
end

