-- ==== Sys2Proof/Laws/Directive.lean ====
section
/-! SUPPORT. Taking a directive and finishing it (R166, R187, R188): what the state is while the directive is
carried out, and what handing its outcome back adds to it. -/

namespace Sys2Proof.Machine

/-- The state in which a taken directive is carried out: the rotation pointer at its slot, no scan running, and
the directive in progress. -/
def State.taking (slot : Slot) (kind : Nat) (words : List Nat) (s : State) : State := { s with
  smi := { s.smi with rotation := slot, scan := .idle }
  ctl := { s.ctl with progress := some { slot := slot, kind := kind, words := words, work := .none } } }

/-- A taken directive is carried out, and the port then grants the next access. -/
theorem State.takeKind_eq {s : State} {slot : Slot} {kind : Nat} {words : List Nat} (t : Time) {kinds : Nat → Bool}
    (body : Nat → List Nat → State → State) (h : s.taken slot kind words) (hk : kinds kind = true) :
    (s.begin t).takeKind kinds body =
      ((body kind words ((s.begin t).taking slot kind words)).startOwedScan).freePort := by
  obtain ⟨hs, ⟨a, ha, hp⟩, -⟩ := h
  unfold State.takeKind
  have h1 : (s.begin t).smi.scan = .take slot kind words := hs
  have h2 : (s.begin t).inFlight = some a := ha
  rw [h1, h2]
  dsimp only
  rw [if_pos ⟨hp, hk⟩]
  rfl

theorem State.takeDirective_eq {s : State} {slot : Slot} {kind : Nat} {words : List Nat} (t : Time) {α : Type}
    (read : List Nat → State → Option α) (act : α → State → State) (h : s.taken slot kind words) :
    (s.begin t).takeDirective kind read act =
      ((((s.begin t).taking slot kind words).checked kind read act words).startOwedScan).freePort :=
  State.takeKind_eq t (fun _ words s => s.checked kind read act words) h (by simp)

/-- In an engine state that allows the kind, with parameters that read, a directive is carried out. -/
theorem State.checked_act {s : State} {kind : Nat} {words : List Nat} {α : Type} {read : List Nat → State → Option α}
    (act : α → State → State) {a : α} (hk : allowedIn kind s.ctl.engine = true) (hr : read words s = some a) :
    s.checked kind read act words = act a s := by
  unfold State.checked
  rw [if_pos hk, hr]

theorem State.taken_busy {s : State} {slot : Slot} {kind : Nat} {words : List Nat} (h : s.taken slot kind words) :
    ∃ f, s.smi.port.inFlight = some f := by
  obtain ⟨f, hf, -, -⟩ := State.answering_busy h.2.1
  exact ⟨f, hf⟩

/-! ### Handing an outcome back -/

/-- While an outcome is being written, a scan that was owed waits for it. -/
theorem State.startOwedScan_writing {s : State} (h : s.smi.outcomes.any (·.writing) = true) :
    s.startOwedScan = s ∨ s.startOwedScan = { s with smi := { s.smi with scanRequest := false, scan := .outcomes false } } := by
  unfold State.startOwedScan
  split
  · right
    unfold State.scanOutcomes
    cases ho : s.smi.outcomes with
    | nil => rw [ho] at h; cases h
    | cons o os =>
      rw [ho] at h
      simp only [h, if_true]
      rfl
  · exact .inl rfl

theorem State.startOwedScan_progress {s : State} {p : Progress} (h : s.ctl.progress = some p) : s.startOwedScan = s := by
  unfold State.startOwedScan State.scanFree
  simp [h]

/-- `u` is `v` with one outcome handed back last for `slot`: nothing else differs but the port, the scan that may
now wait, and the progress register. -/
def State.outcomeAdded (v u : State) (slot : Slot) (code : OutcomeCode) (ws : List Nat) : Prop :=
  v.handedBack u slot code ws ∧ u = { v with ctl := { v.ctl with progress := none }, smi := u.smi } ∧
    u.smi.base = v.smi.base ∧ u.smi.flags = v.smi.flags ∧ u.smi.enables = v.smi.enables ∧
    u.smi.rotation = v.smi.rotation ∧ u.smi.sweepPending = v.smi.sweepPending ∧
    u.smi.journalCount = v.smi.journalCount ∧ u.smi.journalQueue = v.smi.journalQueue ∧
    u.smi.port.weight = v.smi.port.weight

theorem State.handBack_any (slot code ws) (s : State) : (s.handBack slot code ws).smi.outcomes.any (·.writing) = true := by
  unfold State.handBack State.queueOutcome State.setOutcomes
  simp [State.enqueue, State.setPort]

/-- A finished directive: its outcome is handed back, with whatever the end of the step does to the scan and the
port. -/
theorem State.complete_added {v : State} {p : Progress} {f : InFlight} (code : OutcomeCode) (ws : List Nat)
    (hp : v.ctl.progress = some p) (hf : v.smi.port.inFlight = some f) :
    v.outcomeAdded (((v.complete code ws).startOwedScan).freePort) p.slot code ws := by
  have hb := State.handBack_any p.slot code ws { v with ctl := { v.ctl with progress := none } }
  have hc : v.complete code ws =
      ({ v with ctl := { v.ctl with progress := none } }.handBack p.slot code ws).startOwedScan := by
    unfold State.complete
    rw [hp]
  generalize hq : ({ v with ctl := { v.ctl with progress := none } }.handBack p.slot code ws) = q at hb hc
  have hw : q.waitsBehind (.writing (.resultWords p.slot) (v.resultAddress p.slot) (resultBytes ws) .urgent) f := by
    rw [← hq]
    exact State.enqueue_waitsBehind _ hf
  have hwt : q.smi.port.weight = v.smi.port.weight := by
    rw [← hq]
    exact (Port.grant_weight _ _).trans (Port.push_weight _ _)
  have key : ∀ r : State, (r = q ∨ ∃ x, r = { q with smi := { q.smi with scanRequest := x, scan := .outcomes false } }) →
      v.outcomeAdded r.freePort p.slot code ws := by
    rintro r (rfl | ⟨x, rfl⟩)
    · refine ⟨⟨?_, State.freePort_holds hw.2⟩, ?_, ?_, ?_, ?_, ?_, ?_, ?_, ?_, (Port.grant_weight _ _).trans hwt⟩ <;>
        (rw [← hq]; rfl)
    · refine ⟨⟨?_, State.freePort_holds (s := { q with smi := { q.smi with scanRequest := x, scan := .outcomes false } })
        hw.2⟩, ?_, ?_, ?_, ?_, ?_, ?_, ?_, ?_, (Port.grant_weight _ _).trans hwt⟩ <;> (rw [← hq]; rfl)
  refine key _ ?_
  rw [hc]
  rcases State.startOwedScan_writing hb with h | h
  · rw [h, h]
    exact .inl rfl
  · rw [h]
    have hb' : (State.smi { q with smi := { q.smi with scanRequest := false, scan := .outcomes false } }).outcomes.any
        (·.writing) = true := hb
    rcases State.startOwedScan_writing hb' with h' | h'
    · rw [h']
      exact .inr ⟨false, rfl⟩
    · rw [h']
      exact .inr ⟨false, rfl⟩

/-! ### Directives that complete at once -/

theorem State.taking_progress (slot : Slot) (kind : Nat) (words : List Nat) (s : State) :
    (s.taking slot kind words).ctl.progress = some { slot := slot, kind := kind, words := words, work := .none } := rfl

/-- A directive whose body ends by completing in a state `v`. -/
theorem State.takeDirective_completed {s : State} {slot : Slot} {kind : Nat} {words : List Nat} (t : Time)
    (h : s.taken slot kind words) {α : Type} {read : List Nat → State → Option α} {act : α → State → State} {v : State}
    {code : OutcomeCode} {ws : List Nat} {w : Work} {f : InFlight}
    (hv : ((s.begin t).taking slot kind words).checked kind read act words = v.complete code ws)
    (hp : v.ctl.progress = some ⟨slot, kind, words, w⟩) (hf : v.smi.port.inFlight = some f) :
    v.outcomeAdded ((s.begin t).takeDirective kind read act) slot code ws := by
  rw [State.takeDirective_eq t read act h, hv]
  exact State.complete_added code ws hp hf

/-- A directive whose body ends by completing, read from the state `s` it was taken in. -/
theorem State.takeDirective_ended {s : State} {slot : Slot} {kind : Nat} {words : List Nat} (t : Time)
    (h : s.taken slot kind words) {α : Type} {read : List Nat → State → Option α} {act : α → State → State} {v : State}
    {code : OutcomeCode} {ws : List Nat} {p : Progress}
    (hv : ((s.begin t).taking slot kind words).checked kind read act words = v.complete code ws)
    (hp : v.ctl.progress = some p) (hs : p.slot = slot) (hf : v.smi.port.inFlight.isSome = true)
    (hk : ((s.begin t).taking slot kind words).smi.sameScan v.smi) :
    s.handedBack ((s.begin t).takeDirective kind read act) slot code ws ∧
      ((s.begin t).takeDirective kind read act).finished slot ∧
      (s.begin t).takeDirective kind read act = { v with
        ctl := { v.ctl with progress := none }, smi := ((s.begin t).takeDirective kind read act).smi } ∧
      ((s.begin t).takeDirective kind read act).smi.port.weight = v.smi.port.weight ∧
      ((s.begin t).takeDirective kind read act).smi.flags = s.smi.flags := by
  obtain ⟨f, hf⟩ := Option.isSome_iff_exists.1 hf
  rw [State.takeDirective_eq t read act h, hv]
  obtain ⟨⟨a1, a2⟩, b, c1, c2, c3, c4, c5, c6, c7, c8⟩ := State.complete_added code ws hp hf
  rw [hs] at a1 a2
  refine ⟨⟨a1.trans (by rw [hk.2.2.2.1]; rfl), ?_⟩, ⟨by rw [b], c4.trans hk.2.2.2.2.2.2.2.1⟩, b, c8, c2.trans hk.2.1⟩
  have hr : v.resultAddress slot = s.resultAddress slot := by
    unfold State.resultAddress State.slotAddress
    rw [hk.1]
    rfl
  rw [hr] at a2
  exact a2

/-- A directive refused for the engine state (R166). -/
theorem State.takeDirective_refusedState {s : State} {slot : Slot} {kind : Nat} {words : List Nat} (t : Time)
    (h : s.taken slot kind words) (hk : allowedIn kind s.ctl.engine = false) {α : Type}
    (read : List Nat → State → Option α) (act : α → State → State) :
    ((s.begin t).taking slot kind words).outcomeAdded ((s.begin t).takeDirective kind read act) slot .refusedState
      [] := by
  obtain ⟨f, hf⟩ := State.taken_busy h
  refine State.takeDirective_completed t h ?_ rfl hf
  unfold State.checked
  rw [if_neg]
  show ¬ allowedIn kind s.ctl.engine = true
  simp [hk]

/-- A directive refused for its parameters (R166). -/
theorem State.takeDirective_refusedParameter {s : State} {slot : Slot} {kind : Nat} {words : List Nat} (t : Time)
    (h : s.taken slot kind words) (hk : allowedIn kind s.ctl.engine = true) {α : Type}
    {read : List Nat → State → Option α} (act : α → State → State)
    (hr : read words ((s.begin t).taking slot kind words) = none) :
    ((s.begin t).taking slot kind words).outcomeAdded ((s.begin t).takeDirective kind read act) slot
      .refusedParameter [] := by
  obtain ⟨f, hf⟩ := State.taken_busy h
  refine State.takeDirective_completed t h ?_ rfl hf
  unfold State.checked
  rw [if_pos (by exact hk), hr]

/-- What a directive that does nothing but complete leaves of the state it was taken in. -/
theorem State.outcomeAdded_taking {s u : State} {slot : Slot} {kind : Nat} {words : List Nat} {t : Time}
    {code : OutcomeCode} {ws : List Nat} (h : ((s.begin t).taking slot kind words).outcomeAdded u slot code ws) :
    s.handedBack u slot code ws ∧ u.finished slot ∧ s.sameBlocks u ∧ u.ctl = { s.ctl with progress := none } := by
  obtain ⟨⟨h1, h1'⟩, h2, h3, h4, h5, h6, h7⟩ := h
  refine ⟨⟨h1, h1'⟩, ⟨by rw [h2], h6⟩, ?_, by rw [h2]; rfl⟩
  rw [h2]
  exact ⟨⟨rfl, rfl, rfl, rfl, rfl⟩, rfl, rfl⟩

end Sys2Proof.Machine
end

