-- ==== Sys2Proof/Laws/Keeps.lean ====
section
/-! SUPPORT. What a command can do, said once. A property of states that is kept by every elementary update is
kept by every operation built from them, and so by every command: `Screens` are the updates the Screen Arbiter
makes, `Links` those of a link event, `Show` those of any command that is neither a reset nor a register write
nor a directive that replaces a screen's settings. An invariant or a frame is proved by giving the structure. -/

namespace Sys2Proof.Machine

/-! ### Lists -/

theorem foldl_keeps {α σ : Type} {P : σ → Prop} {f : σ → α → σ} (h : ∀ s x, P s → P (f s x)) :
    ∀ (l : List α) (s : σ), P s → P (l.foldl f s)
  | [], _, hs => hs
  | x :: xs, s, hs => foldl_keeps h xs (f s x) (h s x hs)

theorem foldl_keeps_fst {α β : Type} {P : State → Prop} {f : State × β → α → State × β}
    (h : ∀ p x, P p.1 → P (f p x).1) : ∀ (l : List α) (p : State × β), P p.1 → P (l.foldl f p).1
  | [], _, hp => hp
  | x :: xs, p, hp => foldl_keeps_fst h xs (f p x) (h p x hp)

/-! ### Screen settings -/

theorem Screen.sameSettings_refl (x : Screen) : x.sameSettings x := ⟨rfl, rfl, rfl, rfl, rfl⟩

theorem Screen.sameSettings_trans {x y z : Screen} (h : x.sameSettings y) (k : y.sameSettings z) :
    x.sameSettings z :=
  ⟨k.1.trans h.1, k.2.1.trans h.2.1, k.2.2.1.trans h.2.2.1, k.2.2.2.1.trans h.2.2.2.1, k.2.2.2.2.trans h.2.2.2.2⟩

theorem foldl_sameSettings {f : Screen → Level → Screen} (h : ∀ (x : Screen) l, x.sameSettings (f x l)) :
    ∀ (ls : List Level) (x : Screen), x.sameSettings (ls.foldl f x)
  | [], x => x.sameSettings_refl
  | l :: ls, x => Screen.sameSettings_trans (h x l) (foldl_sameSettings h ls (f x l))

theorem Screen.setEntry_settings (x : Screen) (l : Level) (e) : x.sameSettings (x.setEntry l e) :=
  ⟨rfl, rfl, rfl, rfl, rfl⟩

theorem Screen.setPending_settings (x : Screen) (l : Level) (r) : x.sameSettings (x.setPending l r) :=
  ⟨rfl, rfl, rfl, rfl, rfl⟩

theorem Screen.count_settings (x : Screen) (ev) : x.sameSettings (x.count ev) := ⟨rfl, rfl, rfl, rfl, rfl⟩

theorem Screen.settleVisible_settings (x : Screen) : x.sameSettings x.settleVisible := ⟨rfl, rfl, rfl, rfl, rfl⟩

theorem Screen.retime_settings (x : Screen) (now) : x.sameSettings (x.retime now) := ⟨rfl, rfl, rfl, rfl, rfl⟩

theorem Screen.applyStaged_settings (x : Screen) : x.sameSettings x.applyStaged := by
  unfold Screen.applyStaged; split <;> exact ⟨rfl, rfl, rfl, rfl, rfl⟩

theorem Screen.sentMessage_settings (x : Screen) (m) : x.sameSettings (x.sentMessage m) := by
  have h : x.sameSettings (if m.isShow then x.applyStaged.count .shown else x.applyStaged) := by
    split
    · exact Screen.sameSettings_trans x.applyStaged_settings (Screen.count_settings _ _)
    · exact x.applyStaged_settings
  exact h

theorem Screen.endNoticeAt_settings (now ready) (x : Screen) (l) : x.sameSettings (x.endNoticeAt now ready l) := by
  have h1 : x.sameSettings (if x.pendingAt[l].any (fun r => r.endTime.any fun t => decide (t ≤ now))
      then x.setPending l none else x) := by split <;> exact ⟨rfl, rfl, rfl, rfl, rfl⟩
  unfold Screen.endNoticeAt
  extract_lets y
  split
  · exact Screen.sameSettings_trans h1 (Screen.setEntry_settings _ _ _)
  · exact h1

theorem Screen.endNotices_settings (now ready) (x : Screen) : x.sameSettings (x.endNotices now ready) :=
  foldl_sameSettings (Screen.endNoticeAt_settings now ready) allLevels x

theorem Screen.carryOutBlank_settings (ready) (x : Screen) : x.sameSettings (x.carryOutBlank ready) := by
  unfold Screen.carryOutBlank
  split
  · extract_lets y
    split
    · split <;> exact ⟨rfl, rfl, rfl, rfl, rfl⟩
    · exact ⟨rfl, rfl, rfl, rfl, rfl⟩
  · exact ⟨rfl, rfl, rfl, rfl, rfl⟩

theorem Screen.clearLevels_settings (m) (x : Screen) : x.sameSettings (x.clearLevels m) :=
  foldl_sameSettings (fun x l => by split <;> exact ⟨rfl, rfl, rfl, rfl, rfl⟩) allLevels x

theorem Screen.dropCues_settings (x : Screen) : x.sameSettings x.dropCues :=
  foldl_sameSettings (fun x l => by
    have h1 : x.sameSettings (if (x.cueRequest l).isSome then x.setPending l none else x) := by
      split <;> exact ⟨rfl, rfl, rfl, rfl, rfl⟩
    extract_lets y
    split
    · exact Screen.sameSettings_trans h1 (Screen.setEntry_settings _ _ _)
    · exact h1) allLevels x

/-! ### What the Screen Arbiter does -/

/-- Kept by every update that an evaluation of a screen of the set `on` makes. A message leaves only on a READY
link; the mirror monitor of a screen of the set belongs to it. -/
structure ScreensOn (on : Screen16 → Prop) (P : State → Prop) : Prop where
  journalAt : ∀ t b s, P s → P (s.journalAt t b)
  setScreen : ∀ i x s, on i → (s.screen i).sameSettings x → P s → P (s.setScreen i x)
  send : ∀ i m s, on i → (s.link i).state = .ready → P s → P (s.linkSend i m)
  setArb : ∀ a s, a.screens = s.arb.screens → a.mirror = s.arb.mirror → P s → P { s with arb := a }
  mirrorOn : ∀ i mon s, on i → P s → s.arb.mirror = some (i, mon) → on mon

namespace ScreensOn

variable {on : Screen16 → Prop} {P : State → Prop} (h : ScreensOn on P)
include h

theorem journal (b s) (hs : P s) : P (s.journal b) := h.journalAt _ _ _ hs

theorem deliver (i m s) (hi : on i) (hr : (s.link i).state = .ready) (hs : P s) : P (s.deliver i m) :=
  h.send _ _ _ hi hr (h.setScreen _ _ _ hi (Screen.sentMessage_settings _ _) hs)

theorem sendCopy (i m s) (hi : on i) (hs : P s) : P (s.sendCopy i m) := by
  unfold State.sendCopy
  split
  · next hr => exact h.deliver _ _ _ hi (by simpa [State.linkReady] using hr) hs
  · exact h.setArb _ _ rfl rfl hs

theorem sendOn (i m s) (hi : on i) (hr : (s.link i).state = .ready) (hs : P s) : P (s.sendOn i m) := by
  unfold State.sendOn
  split
  · next hm =>
    split
    · next e =>
      exact h.sendCopy _ _ _ (h.mirrorOn _ _ s hi hs (e ▸ hm)) (h.deliver _ _ _ hi hr hs)
    · exact h.deliver _ _ _ hi hr hs
  · exact h.deliver _ _ _ hi hr hs

theorem countOn (i ev s) (hi : on i) (hs : P s) : P (s.countOn i ev) :=
  h.setScreen _ _ _ hi (Screen.count_settings _ _) hs

theorem showEntry (i l e o s) (hi : on i) (hr : (s.link i).state = .ready) (hs : P s) : P (s.showEntry i l e o) :=
  h.sendOn _ _ _ hi hr (h.setScreen _ _ _ hi
    (Screen.sameSettings_trans (Screen.applyStaged_settings _) (Screen.setEntry_settings _ _ _)) hs)

theorem sendClear (i o s) (hi : on i) (hr : (s.link i).state = .ready) (hs : P s) : P (s.sendClear i o) :=
  h.sendOn _ _ _ hi hr (h.setScreen _ _ _ hi (Screen.applyStaged_settings _) hs)

theorem nextSerial (s) (hs : P s) : P s.nextSerial := h.setArb _ _ rfl rfl hs

theorem insertSilently (i l r s) (hi : on i) (hs : P s) : P (s.insertSilently i l r) :=
  h.nextSerial _ (h.setScreen _ _ _ hi
    (Screen.sameSettings_trans (Screen.setPending_settings _ _ _) (Screen.setEntry_settings _ _ _)) hs)

theorem grantShow (i l r s) (hi : on i) (hr : (s.link i).state = .ready) (hs : P s) : P (s.grantShow i l r) := by
  have h1 : P (s.setScreen i ((s.screen i).setPending l none)).nextSerial :=
    h.nextSerial _ (h.setScreen _ _ _ hi (Screen.setPending_settings _ _ _) hs)
  unfold State.grantShow
  dsimp only
  split
  · exact h.showEntry _ _ _ _ _ hi hr (h.countOn _ _ _ hi h1)
  · exact h.showEntry _ _ _ _ _ hi hr h1

theorem bury (i m e s) (hi : on i) (hs : P s) : P (s.bury i m e) :=
  h.setScreen _ _ _ hi (Screen.sameSettings_trans (Screen.setEntry_settings _ _ _) (Screen.count_settings _ _)) hs

theorem defer (i l r s) (hi : on i) (hs : P s) : P (s.defer i l r) := by
  unfold State.defer
  split
  · exact h.setScreen _ _ _ hi
      (Screen.sameSettings_trans (Screen.setPending_settings _ _ _) (Screen.count_settings _ _)) hs
  · exact hs

theorem judgeShow (i l r s) (hi : on i) (hs : P s) : P (s.judgeShow i l r) := by
  have ready : s.linkReady i = true → (s.link i).state = .ready := by simp [State.linkReady]
  unfold State.judgeShow
  repeat' split
  all_goals first
    | with_reducible exact hs
    | with_reducible exact h.insertSilently _ _ _ _ hi hs
    | with_reducible exact h.defer _ _ _ _ hi hs
    | with_reducible exact h.grantShow _ _ _ _ hi (ready ‹_›) hs
    | exact h.grantShow _ _ _ _ hi (by exact ready ‹_›) (h.bury _ _ _ _ hi hs)

theorem refreshScreen (i o s) (hi : on i) (hs : P s) : P (s.refreshScreen i o) := by
  unfold State.refreshScreen
  dsimp only
  split
  · next hr =>
    have hr : (s.link i).state = .ready := by
      rw [Bool.and_eq_true] at hr
      simpa [State.linkReady] using hr.1
    repeat' split
    all_goals first
      | with_reducible exact hs
      | with_reducible exact h.showEntry _ _ _ _ _ hi hr hs
      | with_reducible exact h.sendClear _ _ _ hi hr hs
  · exact hs

theorem judgeBlank (i l r s) (hi : on i) (hs : P s) : P (s.judgeBlank i l r) := by
  have both : ∀ x : Screen, x.sameSettings ((x.setPending l none).setEntry l none) := fun x =>
    Screen.sameSettings_trans (Screen.setPending_settings _ _ _) (Screen.setEntry_settings _ _ _)
  unfold State.judgeBlank
  dsimp only
  repeat' split
  all_goals first
    | with_reducible exact hs
    | with_reducible exact h.defer _ _ _ _ hi hs
    | with_reducible exact h.refreshScreen _ _ _ hi (h.setScreen _ _ _ hi (both _) hs)
    | with_reducible exact h.setScreen _ _ _ hi (both _) hs

theorem judge (i s l) (hi : on i) (hs : P s) : P (State.judge i s l) := by
  unfold State.judge
  repeat' split
  all_goals first
    | with_reducible exact hs
    | with_reducible exact h.judgeBlank _ _ _ _ hi hs
    | with_reducible exact h.judgeShow _ _ _ _ hi hs

theorem retimeScreen (i s) (hi : on i) (hs : P s) : P (s.retimeScreen i) :=
  h.setScreen _ _ _ hi (Screen.retime_settings _ _) hs

theorem judgeRequests (i s) (hi : on i) (hs : P s) : P (s.judgeRequests i) :=
  foldl_keeps (fun s l hs => h.judge i s l hi hs) _ _ (h.setScreen _ _ _ hi
    (Screen.sameSettings_trans (Screen.endNotices_settings _ _ _) (Screen.carryOutBlank_settings _ _)) hs)

theorem endEvaluation (i s) (hi : on i) (hs : P s) : P (s.endEvaluation i) :=
  h.retimeScreen _ _ hi (h.refreshScreen _ _ _ hi hs)

theorem evaluate (i s) (hi : on i) (hs : P s) : P (s.evaluate i) := by
  unfold State.evaluate
  split
  · exact hs
  · exact h.endEvaluation _ _ hi (h.judgeRequests _ _ hi hs)

/-- A mask set on a screen, once the change of its mask is kept (R126). -/
theorem setLevelMask (i m) (s : State) (hi : on i)
    (hs : P (s.setScreen i { s.screen i with mask := m &&& 0xFE#8 }.hideMasked)) : P (s.setLevelMask i m) := by
  unfold State.setLevelMask
  dsimp only
  split
  · exact hs
  · exact h.endEvaluation _ _ hi (h.setScreen _ _ _ hi (Screen.settleVisible_settings _) (h.judgeRequests _ _ hi hs))

theorem overwrite (i old new s) (hi : on i) (hs : P s) : P (s.overwrite i old new) := by
  unfold State.overwrite
  split
  · exact hs
  · exact h.journal _ _ (h.countOn _ _ _ hi hs)
  · exact h.journal _ _ (h.countOn _ _ _ hi hs)

theorem placeRequest (i r s) (hi : on i) (hs : P s) : P (s.placeRequest i r) := by
  unfold State.placeRequest
  dsimp only
  split
  · exact hs
  · refine h.evaluate _ _ hi (h.setScreen _ _ _ hi (Screen.setPending_settings _ _ _) ?_)
    split
    · exact hs
    · exact h.overwrite _ _ _ _ hi hs

theorem linkReturned (i s) (hi : on i) (hr : (s.link i).state = .ready) (hs : P s) : P (s.linkReturned i) := by
  unfold State.linkReturned
  split
  · split
    · exact h.deliver _ _ _ hi hr (h.setArb _ _ rfl rfl hs)
    · exact hs
  · split
    · exact h.sendClear _ _ _ hi hr (h.setScreen _ _ _ hi ⟨rfl, rfl, rfl, rfl, rfl⟩ hs)
    · exact h.evaluate _ _ hi hs

theorem linkDark (i s) (hi : on i) (hs : P s) : P (s.linkDark i) :=
  h.setScreen _ _ _ hi ⟨rfl, rfl, rfl, rfl, rfl⟩ hs

theorem resync (i s) (hi : on i) (hr : (s.link i).state = .ready) (hs : P s) : P (s.resync i) := by
  unfold State.resync
  split
  · exact h.deliver _ _ _ hi hr (h.setArb _ _ rfl rfl hs)
  · have h1 : P (s.setScreen i ((s.screen i).endNotices s.clock true)) :=
      h.setScreen _ _ _ hi (Screen.endNotices_settings _ _ _) hs
    refine h.evaluate _ _ hi ?_
    split
    · exact h.showEntry _ _ _ _ _ hi hr h1
    · exact h.sendClear _ _ _ hi hr h1

end ScreensOn

/-- Kept by every update that an evaluation of any screen makes, and by the changes of the mirror pair. -/
structure Screens (P : State → Prop) : Prop where
  journalAt : ∀ t b s, P s → P (s.journalAt t b)
  setScreen : ∀ i x s, (s.screen i).sameSettings x → P s → P (s.setScreen i x)
  send : ∀ i m s, (s.link i).state = .ready → P s → P (s.linkSend i m)
  setArb : ∀ a s, a.screens = s.arb.screens → P s → P { s with arb := a }

namespace Screens

variable {P : State → Prop} (h : Screens P)
include h

/-- Every screen is in the set. -/
theorem toOn : ScreensOn (fun _ => True) P where
  journalAt := h.journalAt
  setScreen i x s _ hx hs := h.setScreen i x s hx hs
  send i m s _ hr hs := h.send i m s hr hs
  setArb a s ha _ hs := h.setArb a s ha hs
  mirrorOn _ _ _ _ _ _ := trivial

theorem journal (b s) (hs : P s) : P (s.journal b) := h.journalAt _ _ _ hs

theorem sendCopy (i m s) (hs : P s) : P (s.sendCopy i m) := h.toOn.sendCopy i m s trivial hs

theorem sendClear (i o s) (hr : (s.link i).state = .ready) (hs : P s) : P (s.sendClear i o) :=
  h.toOn.sendClear i o s trivial hr hs

theorem countOn (i ev s) (hs : P s) : P (s.countOn i ev) := h.toOn.countOn i ev s trivial hs

theorem retimeScreen (i s) (hs : P s) : P (s.retimeScreen i) := h.toOn.retimeScreen i s trivial hs

theorem evaluate (i s) (hs : P s) : P (s.evaluate i) := h.toOn.evaluate i s trivial hs

theorem setLevelMask (i m) (s : State) (hs : P (s.setScreen i { s.screen i with mask := m &&& 0xFE#8 }.hideMasked)) :
    P (s.setLevelMask i m) := h.toOn.setLevelMask i m s trivial hs

theorem placeRequest (i r s) (hs : P s) : P (s.placeRequest i r) := h.toOn.placeRequest i r s trivial hs

theorem linkReturned (i s) (hr : (s.link i).state = .ready) (hs : P s) : P (s.linkReturned i) :=
  h.toOn.linkReturned i s trivial hr hs

theorem linkDark (i s) (hs : P s) : P (s.linkDark i) := h.toOn.linkDark i s trivial hs

theorem resync (i s) (hr : (s.link i).state = .ready) (hs : P s) : P (s.resync i) :=
  h.toOn.resync i s trivial hr hs

theorem pressBlank (s) (hs : P s) : P s.pressBlank :=
  foldl_keeps (fun s i hs => by
    split
    · exact h.setScreen _ _ _ ⟨rfl, rfl, rfl, rfl, rfl⟩ hs
    · exact hs) _ _ hs

theorem hostClear (m l s) (hs : P s) : P (s.hostClear m l) :=
  foldl_keeps (fun s i hs => by
    split
    · exact h.evaluate _ _ (h.setScreen _ _ _ (Screen.clearLevels_settings _ _) hs)
    · exact hs) _ _ hs

theorem pauseLevel (i s l) (hs : P s) : P (State.pauseLevel i s l) := by
  unfold State.pauseLevel
  dsimp only
  split
  · exact hs
  · have h1 := h.setScreen i _ _ (Screen.setPending_settings (s.screen i) l none) hs
    split
    · exact h.journal _ _ (h.countOn _ _ _ h1)
    · exact h1

theorem pauseScreens (s) (hs : P s) : P s.pauseScreens :=
  foldl_keeps (fun _ i hs => h.evaluate _ _ (foldl_keeps (h.pauseLevel i) _ _ hs)) _ _ hs

theorem dropScreenCues (s) (hs : P s) : P s.dropScreenCues :=
  foldl_keeps (fun _ _ hs => h.evaluate _ _ (h.setScreen _ _ _ (Screen.dropCues_settings _) hs)) _ _ hs

theorem applyLayout (i l s) (hs : P s) : P (s.applyLayout i l) :=
  h.setScreen _ _ _ (by split <;> exact ⟨rfl, rfl, rfl, rfl, rfl⟩) hs

theorem endMirror (s) (hs : P s) : P s.endMirror := by
  unfold State.endMirror
  split
  · exact hs
  · next mon _ =>
    have h1 : P { s with arb := { s.arb with mirror := none, hold := none } } := h.setArb _ _ rfl hs
    dsimp only
    split
    · next hr => exact h.sendClear _ _ _ hr h1
    · exact h.setScreen _ _ _ ⟨rfl, rfl, rfl, rfl, rfl⟩ h1
    · exact h.setScreen _ _ _ ⟨rfl, rfl, rfl, rfl, rfl⟩ h1

theorem setMirrorPair (a b s) (hs : P s) : P (s.setMirrorPair a b) :=
  h.sendCopy _ _ _ (h.setArb _ _ rfl (h.retimeScreen _ _ (h.setScreen _ _ _ ⟨rfl, rfl, rfl, rfl, rfl⟩
    (h.endMirror _ hs))))

theorem clearCounters (m s) (hs : P s) : P (s.clearCounters m) :=
  foldl_keeps (fun s i hs => by
    split
    · exact h.setScreen _ _ _ ⟨rfl, rfl, rfl, rfl, rfl⟩ hs
    · exact hs) _ _ hs

end Screens

end Sys2Proof.Machine
end

