-- ==== Sys2Proof/Laws/ScreenFrame.lean ====
section
/-! SUPPORT. What the Screen Arbiter leaves alone: the show, Show Control and the scans; without a mirror pair an
evaluation of one screen leaves every other screen and link alone. -/

namespace Sys2Proof.Machine

/-- Only the screens, the links, the frames sent and the journal differ. -/
def State.onlyScreens (s u : State) : Prop :=
  s.sameShow u ∧ u.ctl = s.ctl ∧ u.clock = s.clock ∧ u.pending = s.pending ∧ s.smi.sameScan u.smi

theorem State.onlyScreens_refl (s : State) : s.onlyScreens s :=
  ⟨⟨rfl, rfl, rfl, rfl, rfl⟩, rfl, rfl, rfl, Interface.sameScan_refl _⟩

theorem State.sameShow_trans {s u v : State} (h : s.sameShow u) (g : u.sameShow v) : s.sameShow v := by
  obtain ⟨a1, a2, a3, a4, a5⟩ := h
  obtain ⟨b1, b2, b3, b4, b5⟩ := g
  exact ⟨b1.trans a1, b2.trans a2, b3.trans a3, b4.trans a4, b5.trans a5⟩

theorem State.onlyScreens_trans {s u v : State} (h : s.onlyScreens u) (g : u.onlyScreens v) : s.onlyScreens v := by
  obtain ⟨a1, a2, a3, a4, a5⟩ := h
  obtain ⟨b1, b2, b3, b4, b5⟩ := g
  exact ⟨State.sameShow_trans a1 b1, b2.trans a2, b3.trans a3, b4.trans a4, Interface.sameScan_trans a5 b5⟩

theorem State.journalAt_onlyScreens (t b) (s : State) : s.onlyScreens (s.journalAt t b) := by
  have h := State.journalAt_onlyBus t b s.onlyBus_refl
  refine ⟨⟨?_, ?_, ?_, ?_, ?_⟩, ?_, ?_, ?_, State.journalAt_sameScan _ _ _⟩ <;> rw [h]

/-- Whatever is built from the updates of `Screens` leaves the show, Show Control and the scans alone. -/
theorem Screens.only (s : State) : Screens s.onlyScreens where
  journalAt t b u h := State.onlyScreens_trans h (State.journalAt_onlyScreens t b u)
  setScreen _ _ _ _ h := h
  send _ _ _ _ h := h
  setArb _ _ _ h := h

/-- Whatever is built from the updates of `Screens` keeps the host's settings of every screen. -/
theorem Screens.settings (s : State) : Screens (fun u => ∀ i, (s.screen i).sameSettings (u.screen i)) where
  journalAt t b u h := by
    intro i
    simpa [State.screen] using h i
  setScreen j x u hx h := by
    intro i
    by_cases hj : j = i
    · subst hj
      rw [State.setScreen_screen_self]
      exact Screen.sameSettings_trans (h j) hx
    · rw [State.setScreen_screen_ne _ _ hj]
      exact h i
  send _ _ _ _ h := h
  setArb a u ha h := by
    intro i
    have := h i
    unfold State.screen at *
    simpa [ha] using this

/-- Nothing that is built from the updates of `Screens` sends on a link that is not READY: it stays as it is. -/
theorem Screens.notReady (i : Screen16) (k : Link) (hk : k.state ≠ .ready) : Screens (fun u => u.link i = k) where
  journalAt t b u h := by
    simpa [State.link] using h
  setScreen _ _ _ _ h := h
  send j m u hr h := by
    have hj : j ≠ i := by rintro rfl; exact hk (h ▸ hr)
    rw [← h]
    exact State.setLink_link_ne _ _ hj
  setArb _ _ _ h := h

/-- Every screen and link but those of `i` are unchanged, and no mirror pair is set. -/
def State.othersKept (i : Screen16) (s u : State) : Prop :=
  u.arb.mirror = none ∧ ∀ j, j ≠ i → u.screen j = s.screen j ∧ u.link j = s.link j

/-- Without a mirror pair, whatever is built from updates of one screen leaves every other one alone. -/
theorem ScreensOn.others (i : Screen16) (s : State) : ScreensOn (· = i) (s.othersKept i) where
  journalAt t b u h := by
    refine ⟨by simpa using h.1, fun j hj => ?_⟩
    have := h.2 j hj
    unfold State.screen State.link at *
    simpa using this
  setScreen k x u hk _ h := by
    subst hk
    refine ⟨h.1, fun j hj => ?_⟩
    rw [State.setScreen_screen_ne _ _ (Ne.symm hj), State.setScreen_link]
    exact h.2 j hj
  send k m u hk _ h := by
    subst hk
    refine ⟨h.1, fun j hj => ⟨(h.2 j hj).1, ?_⟩⟩
    exact (State.setLink_link_ne _ _ (Ne.symm hj)).trans (h.2 j hj).2
  setArb a u ha hm h := by
    refine ⟨hm.trans h.1, fun j hj => ?_⟩
    have := h.2 j hj
    unfold State.screen State.link at *
    simpa [ha] using this
  mirrorOn _ _ u _ h hm := by rw [h.1] at hm; cases hm

/-- What is built from the updates of `Screens` keeps the access in flight. -/
theorem Screens.inFlight (f : InFlight) : Screens (fun s => s.smi.port.inFlight = some f) where
  journalAt t b s h := (Bus.inFlight f).journalAt t b s h
  setScreen _ _ _ _ h := h
  send _ _ _ _ h := h
  setArb _ _ _ h := h

theorem State.othersKept_refl {i : Screen16} {s : State} (hm : s.arb.mirror = none) : s.othersKept i s :=
  ⟨hm, fun _ _ => ⟨rfl, rfl⟩⟩

end Sys2Proof.Machine
end

