-- ==== Sys2Proof/Laws/Emptied.lean ====
section
/-! SUPPORT. A level of a screen that holds neither an entry nor a request stays so: no evaluation puts an entry
where nothing was asked for. -/

namespace Sys2Proof.Machine

/-- Level `l` holds neither an entry nor a pending request. -/
def Screen.emptyAt (l : Level) (x : Screen) : Prop := x.stack[l] = none ∧ x.pendingAt[l] = none

variable {l : Level}

theorem Screen.setEntry_stack_self (x : Screen) (m : Level) (e) : (x.setEntry m e).stack[m] = e := by
  simp [Screen.setEntry]

theorem Screen.setEntry_stack_ne (x : Screen) {m n : Level} (e) (h : m ≠ n) :
    (x.setEntry m e).stack[n] = x.stack[n] := by
  have h' : m.val ≠ n.val := fun e => h (Fin.ext e)
  simp [Screen.setEntry, h']

theorem Screen.setPending_pending_self (x : Screen) (m : Level) (r) : (x.setPending m r).pendingAt[m] = r := by
  simp [Screen.setPending]

theorem Screen.setPending_pending_ne (x : Screen) {m n : Level} (r) (h : m ≠ n) :
    (x.setPending m r).pendingAt[n] = x.pendingAt[n] := by
  have h' : m.val ≠ n.val := fun e => h (Fin.ext e)
  simp [Screen.setPending, h']

/-- The visible top stands in the stack at its level, which is not masked. -/
theorem Screen.visibleTop_some {x : Screen} {m : Level} {e : Entry} (h : x.visibleTop = some (m, e)) :
    x.stack[m] = some e ∧ x.masked m = false := by
  unfold Screen.visibleTop at h
  obtain ⟨k, -, hk⟩ := List.exists_of_findSome?_eq_some h
  split at hk
  · cases hk
  · next hn =>
    cases hs : x.stack[k] with
    | none => rw [hs] at hk; cases hk
    | some y =>
      rw [hs] at hk
      cases hk
      exact ⟨hs, by simpa using hn⟩

theorem Screen.emptyAt_remove {x : Screen} (m : Level) (h : x.emptyAt l) : (x.setEntry m none).emptyAt l := by
  by_cases hm : m = l
  · subst hm
    exact ⟨Screen.setEntry_stack_self _ _ _, h.2⟩
  · exact ⟨(Screen.setEntry_stack_ne _ _ hm).trans h.1, h.2⟩

theorem Screen.emptyAt_discard {x : Screen} (m : Level) (h : x.emptyAt l) : (x.setPending m none).emptyAt l := by
  by_cases hm : m = l
  · subst hm
    exact ⟨h.1, Screen.setPending_pending_self _ _ _⟩
  · exact ⟨h.1, (Screen.setPending_pending_ne _ _ hm).trans h.2⟩

theorem Screen.emptyAt_set {x : Screen} {m : Level} (e) (hm : m ≠ l) (h : x.emptyAt l) :
    (x.setEntry m e).emptyAt l := ⟨(Screen.setEntry_stack_ne _ _ hm).trans h.1, h.2⟩

theorem Screen.emptyAt_request {x : Screen} {m : Level} (r) (hm : m ≠ l) (h : x.emptyAt l) :
    (x.setPending m r).emptyAt l := ⟨h.1, (Screen.setPending_pending_ne _ _ hm).trans h.2⟩

theorem Screen.emptyAt_staged {x : Screen} (h : x.emptyAt l) : x.applyStaged.emptyAt l := by
  unfold Screen.applyStaged
  split <;> exact h

theorem Screen.emptyAt_sent {x : Screen} (m) (h : x.emptyAt l) : (x.sentMessage m).emptyAt l := by
  unfold Screen.sentMessage
  dsimp only
  split <;> exact Screen.emptyAt_staged h

theorem Screen.emptyAt_endNotices {x : Screen} (now ready) (h : x.emptyAt l) : (x.endNotices now ready).emptyAt l := by
  unfold Screen.endNotices
  refine foldl_keeps (P := fun x : Screen => x.emptyAt l) (fun x m hx => ?_) allLevels x h
  unfold Screen.endNoticeAt
  extract_lets y
  have hy : y.emptyAt l := by
    unfold y
    split
    · exact Screen.emptyAt_discard _ hx
    · exact hx
  split
  · exact Screen.emptyAt_remove _ hy
  · exact hy

theorem Screen.emptyAt_carryOutBlank {x : Screen} (ready) (h : x.emptyAt l) : (x.carryOutBlank ready).emptyAt l := by
  unfold Screen.carryOutBlank
  split
  · extract_lets y
    split
    · split
      · exact h
      · exact Screen.emptyAt_remove _ h
    · exact h
  · exact h

/-- An entry in the stack is not at an empty level. -/
theorem Screen.ne_of_entry {x : Screen} {m : Level} {e : Entry} (hx : x.emptyAt l) (h : x.stack[m] = some e) : m ≠ l := by
  rintro rfl
  rw [hx.1] at h
  cases h

theorem Screen.ne_of_request {x : Screen} {m : Level} {r : Request} (hx : x.emptyAt l) (h : x.pendingAt[m] = some r) :
    m ≠ l := by
  rintro rfl
  rw [hx.2] at h
  cases h

/-! ### Evaluations -/

variable {i : Screen16}

theorem State.emptyAt_setScreen {s : State} {j : Screen16} {x : Screen} (hx : j = i → x.emptyAt l)
    (h : (s.screen i).emptyAt l) : ((s.setScreen j x).screen i).emptyAt l := by
  by_cases hj : j = i
  · subst hj
    rw [State.setScreen_screen_self]
    exact hx rfl
  · rw [State.setScreen_screen_ne _ _ hj]
    exact h

theorem State.emptyAt_deliver {s : State} (j m) (h : (s.screen i).emptyAt l) : ((s.deliver j m).screen i).emptyAt l :=
  State.emptyAt_setScreen (fun e => by subst e; exact Screen.emptyAt_sent _ h) h

theorem State.emptyAt_sendCopy {s : State} (j m) (h : (s.screen i).emptyAt l) :
    ((s.sendCopy j m).screen i).emptyAt l := by
  unfold State.sendCopy
  split
  · exact State.emptyAt_deliver _ _ h
  · exact h

theorem State.emptyAt_sendOn {s : State} (j m) (h : (s.screen i).emptyAt l) : ((s.sendOn j m).screen i).emptyAt l := by
  unfold State.sendOn
  split
  · split
    · exact State.emptyAt_sendCopy _ _ (State.emptyAt_deliver _ _ h)
    · exact State.emptyAt_deliver _ _ h
  · exact State.emptyAt_deliver _ _ h

theorem State.emptyAt_showEntry {s : State} (j) {m : Level} (e o) (hm : j = i → m ≠ l) (h : (s.screen i).emptyAt l) :
    ((s.showEntry j m e o).screen i).emptyAt l :=
  State.emptyAt_sendOn _ _ (State.emptyAt_setScreen
    (fun e => by subst e; exact Screen.emptyAt_set _ (hm rfl) (Screen.emptyAt_staged h)) h)

theorem State.emptyAt_sendClear {s : State} (j o) (h : (s.screen i).emptyAt l) :
    ((s.sendClear j o).screen i).emptyAt l :=
  State.emptyAt_sendOn _ _ (State.emptyAt_setScreen (fun e => by subst e; exact Screen.emptyAt_staged h) h)

theorem State.emptyAt_insertSilently {s : State} (j) {m : Level} (r) (hm : j = i → m ≠ l) (h : (s.screen i).emptyAt l) :
    ((s.insertSilently j m r).screen i).emptyAt l :=
  State.emptyAt_setScreen
    (fun e => by subst e; exact Screen.emptyAt_set _ (hm rfl) (Screen.emptyAt_discard _ h)) h

theorem State.emptyAt_grantShow {s : State} (j) {m : Level} (r) (hm : j = i → m ≠ l) (h : (s.screen i).emptyAt l) :
    ((s.grantShow j m r).screen i).emptyAt l := by
  have h1 : (((s.setScreen j ((s.screen j).setPending m none)).nextSerial).screen i).emptyAt l :=
    State.emptyAt_setScreen (fun e => by subst e; exact Screen.emptyAt_discard _ h) h
  unfold State.grantShow
  dsimp only
  refine State.emptyAt_showEntry _ _ _ hm ?_
  split
  · exact State.emptyAt_setScreen (fun e => by subst e; exact h1) h1
  · exact h1

theorem State.emptyAt_bury {s : State} (j) {m : Level} (e) (hm : j = i → m ≠ l) (h : (s.screen i).emptyAt l) :
    ((s.bury j m e).screen i).emptyAt l :=
  State.emptyAt_setScreen
    (fun e => by subst e; exact Screen.emptyAt_set (x := s.screen j) _ (hm rfl) h) h

theorem State.emptyAt_defer {s : State} (j) {m : Level} (r) (hm : j = i → m ≠ l) (h : (s.screen i).emptyAt l) :
    ((s.defer j m r).screen i).emptyAt l := by
  unfold State.defer
  split
  · exact State.emptyAt_setScreen (fun e => by subst e; exact Screen.emptyAt_request (x := s.screen j) _ (hm rfl) h) h
  · exact h

theorem State.emptyAt_refreshScreen {s : State} (j o) (h : (s.screen i).emptyAt l) :
    ((s.refreshScreen j o).screen i).emptyAt l := by
  unfold State.refreshScreen
  dsimp only
  split
  · split
    · next hv =>
      split
      · exact h
      · exact State.emptyAt_showEntry _ _ _
          (fun e => by subst e; exact Screen.ne_of_entry h (Screen.visibleTop_some hv).1) h
    · split
      · exact h
      · exact State.emptyAt_sendClear _ _ h
  · exact h

theorem State.emptyAt_judge {s : State} (j : Screen16) (m : Level) (h : (s.screen i).emptyAt l) :
    ((State.judge j s m).screen i).emptyAt l := by
  unfold State.judge
  split
  · exact h
  · next r hr =>
    have hm : j = i → m ≠ l := fun e => by subst e; exact Screen.ne_of_request h hr
    have show' : ((s.judgeShow j m r).screen i).emptyAt l := by
      unfold State.judgeShow
      split
      · split
        · exact State.emptyAt_grantShow _ _ hm h
        · exact h
      · next n e hv =>
        have hn : j = i → n ≠ l := fun e => by subst e; exact Screen.ne_of_entry h (Screen.visibleTop_some hv).1
        repeat' split
        all_goals first
          | with_reducible exact h
          | with_reducible exact State.emptyAt_insertSilently _ _ hm h
          | with_reducible exact State.emptyAt_grantShow _ _ hm h
          | with_reducible exact State.emptyAt_grantShow _ _ hm (State.emptyAt_bury _ _ hn h)
          | with_reducible exact State.emptyAt_defer _ _ hm h
    have both : ((s.setScreen j (((s.screen j).setPending m none).setEntry m none)).screen i).emptyAt l :=
      State.emptyAt_setScreen (fun e => by subst e; exact Screen.emptyAt_remove _ (Screen.emptyAt_discard _ h)) h
    have one : ((s.setScreen j ((s.screen j).setPending m none)).screen i).emptyAt l :=
      State.emptyAt_setScreen (fun e => by subst e; exact Screen.emptyAt_discard _ h) h
    split
    · split
      · unfold State.judgeBlank
        dsimp only
        repeat' split
        all_goals first
          | with_reducible exact h
          | with_reducible exact one
          | with_reducible exact both
          | with_reducible exact State.emptyAt_refreshScreen _ _ both
          | with_reducible exact State.emptyAt_defer _ _ hm h
      · exact show'
      · exact show'
    · exact h

theorem State.emptyAt_retime {s : State} (j : Screen16) (h : (s.screen i).emptyAt l) :
    ((s.retimeScreen j).screen i).emptyAt l :=
  State.emptyAt_setScreen (fun e => by subst e; exact h) h

/-- An evaluation, of any screen, leaves an empty level empty (R119). -/
theorem State.emptyAt_evaluate {s : State} (j : Screen16) (h : (s.screen i).emptyAt l) :
    ((s.evaluate j).screen i).emptyAt l := by
  unfold State.evaluate State.judgeRequests State.endEvaluation
  dsimp only
  split
  · exact h
  · refine State.emptyAt_retime j (State.emptyAt_refreshScreen j .default (foldl_keeps
      (P := fun s : State => (s.screen i).emptyAt l) (fun s m hs => State.emptyAt_judge j m hs) allLevels _ ?_))
    by_cases hj : j = i
    · subst hj
      rw [State.setScreen_screen_self]
      exact Screen.emptyAt_carryOutBlank _ (Screen.emptyAt_endNotices _ _ h)
    · rw [State.setScreen_screen_ne _ _ hj]
      exact h

/-- A level that a host CLEAR names is emptied (R130). -/
theorem Screen.clearLevels_emptyAt (m : BitVec 8) (x : Screen) (h : m.getLsbD l.val = true) :
    (x.clearLevels m).emptyAt l := by
  have key : ∀ (ls : List Level) (x : Screen), l ∈ ls ∨ x.emptyAt l → (ls.foldl (fun x k =>
      if m.getLsbD k.val then (x.setPending k none).setEntry k none else x) x).emptyAt l := by
    intro ls
    induction ls with
    | nil => intro x h; simpa using h
    | cons k ks ih =>
      intro x hk
      simp only [List.foldl_cons]
      refine ih _ ?_
      by_cases hkl : k = l
      · subst hkl
        rw [if_pos h]
        exact .inr ⟨by simp [Screen.setEntry], by simp [Screen.setEntry, Screen.setPending]⟩
      · rcases hk with hk | hk
        · exact .inl (by simpa [Ne.symm hkl] using hk)
        · right
          split
          · exact Screen.emptyAt_remove _ (Screen.emptyAt_discard _ hk)
          · exact hk
  refine key allLevels x (.inl ?_)
  clear key h
  revert l
  decide

/-- A host CLEAR empties every level it names of every screen it names (R130). -/
theorem State.hostClear_emptyAt (screens : BitVec 16) (levels : BitVec 8) (s : State)
    (hi : screens.getLsbD i.val = true) (hl : levels.getLsbD l.val = true) :
    ((s.hostClear screens levels).screen i).emptyAt l := by
  have key : ∀ (ls : List Screen16) (z : State), i ∈ ls ∨ (z.screen i).emptyAt l → ((ls.foldl (fun s j =>
      if screens.getLsbD j.val then (s.setScreen j ((s.screen j).clearLevels levels)).evaluate j else s)
        z).screen i).emptyAt l := by
    intro ls
    induction ls with
    | nil => intro z h; simpa using h
    | cons k ks ih =>
      intro z hk
      simp only [List.foldl_cons]
      refine ih _ ?_
      by_cases hkl : k = i
      · subst hkl
        rw [if_pos hi]
        refine .inr (State.emptyAt_evaluate _ ?_)
        rw [State.setScreen_screen_self]
        exact Screen.clearLevels_emptyAt _ _ hl
      · rcases hk with hk | hk
        · exact .inl (by simpa [Ne.symm hkl] using hk)
        · right
          split
          · refine State.emptyAt_evaluate _ ?_
            rw [State.setScreen_screen_ne _ _ hkl]
            exact hk
          · exact hk
  refine key allScreens s (.inl ?_)
  clear key hi
  revert i
  decide

end Sys2Proof.Machine
end

