-- ==== Sys2Proof/Laws/KeepsLinks.lean ====
section
/-! SUPPORT. What an event of a link or of a screen's timer can do: the updates of the Screen Arbiter, a link
that stays sound, CAUSE flags, and the end of a pause. -/

namespace Sys2Proof.Machine

/-! ### Sound links -/

theorem Link.probe_sound {k : Link} (t) (h : k.carrier = true) : (k.probe t).sound := by
  simp [Link.sound, Link.probe, h]

theorem Link.leaveBusy_ready_sound {k : Link} (hb : k.state = .busy) (h : k.sound) : (k.leaveBusy .ready).sound := by
  obtain ⟨h1, h2, h3, h4, h5⟩ := h
  simp_all [Link.sound, Link.leaveBusy]

theorem Link.leaveBusy_faulted_sound {k : Link} (hb : k.state = .busy) (h : k.sound) :
    (k.leaveBusy .faulted).sound := by
  obtain ⟨h1, h2, h3, h4, h5⟩ := h
  simp_all [Link.sound, Link.leaveBusy]

theorem Link.dropped_sound (k : Link) : k.dropped.sound := by simp [Link.sound, Link.dropped]

theorem Link.busy_sound {k : Link} (t m tr) (hr : k.state = .ready) (h : k.sound) : (k.busy t m tr).sound := by
  obtain ⟨h1, h2, h3, h4, h5⟩ := h
  simp_all [Link.sound, Link.busy]

/-- Kept by every update that a change of the engine state or the end of a directive makes. -/
structure Ends (P : State → Prop) : Prop extends Bus P where
  setCtl : ∀ c s, P s → P { s with ctl := c }

namespace Ends

variable {P : State → Prop} (h : Ends P)
include h

/-! ### The engine state and finished directives -/

theorem changeEngine (e c sl l o s) (hs : P s) : P (s.changeEngine e c sl l o) :=
  h.toBus.requestRefresh _ (h.toBus.journal _ _ (h.setCtl _ _ hs))

theorem complete (c ws s) (hs : P s) : P (s.complete c ws) := by
  unfold State.complete
  split
  · exact hs
  · exact h.toBus.startOwedScan _ (h.toBus.handBack _ _ _ _ (h.setCtl _ _ hs))

theorem testQuiet (s) (hs : P s) : P s.testQuiet := by
  unfold State.testQuiet
  split
  · exact hs
  · split
    · exact h.setCtl _ _ (h.toBus.handBack _ _ _ _ (h.changeEngine _ _ _ _ _ _ hs))
    · exact hs

end Ends

/-- Kept by every update that a link event makes. -/
structure Links (P : State → Prop) : Prop extends Screens P, Ends P where
  setLink : ∀ i k s, ((s.link i).sound → k.sound) → P s → P (s.setLink i k)
  transmit : ∀ i bs s, P s → P (s.transmit i bs)

namespace Links

variable {P : State → Prop} (h : Links P)
include h

/-! ### Link events -/

theorem journalLink (i a b c s) (hs : P s) : P (s.journalLink i a b c) := h.toBus.journal _ _ hs

theorem enterProbing (i c s) (hk : (s.link i).sound → ((s.link i).probe s.clock).sound) (hs : P s) :
    P (s.enterProbing i c) :=
  h.journalLink _ _ _ _ _ (h.transmit _ _ _ (h.setLink _ _ _ hk hs))

theorem ignoreMessage (i s) (hs : P s) : P (s.ignoreMessage i) := h.setLink _ _ _ (fun h => h) hs

theorem riseCarrier (i s) (hs : P s) : P (s.riseCarrier i) := by
  have h1 : P (s.setLink i { s.link i with carrier := true }) :=
    h.setLink _ _ _ (fun ⟨_, h2, h3, h4, h5⟩ => ⟨by simp, h2, h3, h4, h5⟩) hs
  unfold State.riseCarrier
  dsimp only
  split
  · exact h.enterProbing _ _ _ (fun _ => Link.probe_sound _ (by simp)) h1
  · exact h1

theorem fallCarrier (i s) (hs : P s) : P (s.fallCarrier i) := by
  unfold State.fallCarrier
  dsimp only
  split
  · next hd => exact h.setLink _ _ _ (fun ⟨_, h2, h3, h4, h5⟩ => ⟨fun _ => hd, h2, h3, h4, h5⟩) hs
  · have h1 := h.linkDark i _ (h.setCause .screen _ (h.journalLink i (s.link i).state .down .carrierLoss _
      (h.setLink i _ s (fun _ => (s.link i).dropped_sound) hs)))
    split
    · exact h.toEnds.testQuiet _ h1
    · exact h1

theorem retryHello (i s) (hs : P s) : P (s.retryHello i) := by
  unfold State.retryHello
  dsimp only
  split
  · next hk =>
    exact h.transmit _ _ _ (h.setLink _ _ _ (fun ⟨h1, _, h3, h4, h5⟩ => ⟨h1, by simp [hk.1], h3, h4, h5⟩) hs)
  · exact hs

theorem helloReplied (i tag caps f c s) (hs : P s) : P (s.helloReplied i tag caps f c) := by
  unfold State.helloReplied
  dsimp only
  split
  · next hk =>
    refine h.resync _ _ ?_ (h.toBus.journal _ _ (h.setLink _ _ _ ?_ hs))
    · simp [State.link]
    · rintro ⟨h1, h2, h3, h4, h5⟩
      have hp : (s.link i).state = .probing := by
        simp only [Link.takesHello, Bool.and_eq_true, beq_iff_eq] at hk
        exact hk.1.1.1.1
      simp_all [Link.sound]
  · exact h.ignoreMessage _ _ hs

theorem replyDone (i tag s) (hs : P s) : P (s.replyDone i tag) := by
  unfold State.replyDone
  dsimp only
  split
  · next hk =>
    have hb : (s.link i).state = .busy := by
      simp only [Link.takesReply, Bool.and_eq_true, beq_iff_eq] at hk
      exact hk.1
    exact h.toEnds.testQuiet _ (h.linkReturned _ _ (by simp [Link.leaveBusy])
      (h.setLink _ _ _ (Link.leaveBusy_ready_sound hb) hs))
  · exact h.ignoreMessage _ _ hs

theorem replyRefused (i tag r s) (hs : P s) : P (s.replyRefused i tag r) := by
  unfold State.replyRefused
  dsimp only
  split
  · next hk =>
    have hb : (s.link i).state = .busy := by
      simp only [Link.takesReply, Bool.and_eq_true, beq_iff_eq] at hk
      exact hk.1
    refine h.toEnds.testQuiet _ (h.linkReturned _ _ ?_ (h.toBus.journal _ _ (h.countOn _ _ _
      (h.setLink _ _ _ (Link.leaveBusy_ready_sound hb) hs))))
    simp [State.link, State.countOn, Link.leaveBusy, State.setLink]
  · exact h.ignoreMessage _ _ hs

theorem expireReply (i s) (hs : P s) : P (s.expireReply i) := by
  unfold State.expireReply
  dsimp only
  split
  · next hk =>
    exact h.toEnds.testQuiet _ (h.linkDark _ _ (h.setCause _ _ (h.toBus.journal _ _ (h.countOn _ _ _
      (h.setLink _ _ _ (Link.leaveBusy_faulted_sound hk.1) hs)))))
  · exact hs

end Links

end Sys2Proof.Machine
end

