-- ==== Sys2Proof/Laws/TitlesSound.lean ====
section
/-! SUPPORT. What keeps the wait queue and the cache of the Descriptor Unit sound (R100, R103). -/

namespace Sys2Proof.Machine

/-- The key of the entry on way `w` of set `j`. -/
def Descriptors.keyAt (d : Descriptors) (j : Fin 32) (w : Fin 4) : Option Key := d.sets[j].ways[w].entry.map (·.key)

/-- The keys that wait. -/
def Descriptors.waiting (d : Descriptors) : List Key := d.queue.map (·.key)

/-- Way `w` of set `j` replaced. -/
def Descriptors.put (j : Fin 32) (w : Fin 4) (x : Way) (d : Descriptors) : Descriptors :=
  { d with sets := d.sets.set j { d.sets[j] with ways := d.sets[j].ways.set w x } }

/-- Way `w` of set `j` used. -/
def Descriptors.use (j : Fin 32) (w : Fin 4) (d : Descriptors) : Descriptors :=
  { d with sets := d.sets.set j (d.sets[j].touch w) }

@[simp] theorem CacheSet.touch_ways (x : CacheSet) (w : Fin 4) : (x.touch w).ways = x.ways := by
  unfold CacheSet.touch
  repeat' split
  all_goals rfl

/-- Soundness in terms of keys alone. -/
theorem Descriptors.sound_iff (d : Descriptors) : d.sound ↔
    d.waiting.length ≤ 256 ∧ d.waiting.Nodup ∧
    ∀ j w k, d.keyAt j w = some k → setOf k = j ∧ k ∉ d.waiting ∧ ∀ v, d.keyAt j v = some k → v = w := by
  unfold Descriptors.sound
  refine and_congr (by simp [waiting]) (and_congr Iff.rfl ⟨fun h j w k hk => ?_, fun h j w e he => ?_⟩)
  · obtain ⟨e, he, rfl⟩ := Option.map_eq_some_iff.1 hk
    obtain ⟨h1, h2, h3⟩ := h j w e he
    refine ⟨h1, ?_, fun v hv => ?_⟩
    · intro hm
      obtain ⟨i, hi, hik⟩ := List.mem_map.1 hm
      exact h2 i hi hik
    · obtain ⟨f, hf, hfk⟩ := Option.map_eq_some_iff.1 hv
      exact h3 v f hf hfk
  · obtain ⟨h1, h2, h3⟩ := h j w e.key (by unfold keyAt; rw [he]; rfl)
    refine ⟨h1, fun i hi hik => h2 (List.mem_map.2 ⟨i, hi, hik⟩), fun v f hf hfk => ?_⟩
    exact h3 v (by unfold keyAt; rw [hf, ← hfk]; rfl)

/-- A unit whose cached and waiting keys are some of those of a sound one, each in its place, is sound. -/
theorem Descriptors.sound_of_less {d e : Descriptors} (hq : e.waiting.Sublist d.waiting)
    (hk : ∀ j w k, e.keyAt j w = some k → d.keyAt j w = some k) (h : d.sound) : e.sound := by
  rw [sound_iff] at *
  refine ⟨hq.length_le.trans h.1, hq.nodup h.2.1, fun j w k hw => ?_⟩
  obtain ⟨h1, h2, h3⟩ := h.2.2 j w k (hk _ _ _ hw)
  exact ⟨h1, fun hm => h2 (hq.subset hm), fun v hv => h3 v (hk _ _ _ hv)⟩

theorem Descriptors.put_keyAt (j : Fin 32) (w : Fin 4) (x : Way) (d : Descriptors) (i : Fin 32) (v : Fin 4) :
    (d.put j w x).keyAt i v = if i = j ∧ v = w then x.entry.map (·.key) else d.keyAt i v := by
  unfold keyAt put
  by_cases hi : i = j
  · subst hi
    by_cases hv : v = w
    · subst hv
      simp
    · have : w.val ≠ v.val := fun e => hv (Fin.ext e.symm)
      simp [this, hv]
  · have : j.val ≠ i.val := fun e => hi (Fin.ext e.symm)
    simp [this, hi]

@[simp] theorem Descriptors.use_keyAt (j : Fin 32) (w : Fin 4) (d : Descriptors) (i : Fin 32) (v : Fin 4) :
    (d.use j w).keyAt i v = d.keyAt i v := by
  unfold keyAt use
  by_cases hi : i = j
  · subst hi
    simp
  · have : j.val ≠ i.val := fun e => hi (Fin.ext e.symm)
    simp [this]

@[simp] theorem Descriptors.put_waiting (j w x) (d : Descriptors) : (d.put j w x).waiting = d.waiting := rfl

@[simp] theorem Descriptors.use_waiting (j w) (d : Descriptors) : (d.use j w).waiting = d.waiting := rfl

theorem Descriptors.use_sound {j w} {d : Descriptors} (h : d.sound) : (d.use j w).sound :=
  sound_of_less (d := d) (List.Sublist.refl _) (fun i v k hk => by simpa using hk) h

/-- A way that keeps its key, or is freed, keeps the unit sound. -/
theorem Descriptors.put_sound {j w x} {d : Descriptors}
    (hx : ∀ k, x.entry.map (·.key) = some k → d.keyAt j w = some k) (h : d.sound) : (d.put j w x).sound := by
  refine sound_of_less (d := d) (List.Sublist.refl _) (fun i v k hk => ?_) h
  rw [put_keyAt] at hk
  split at hk
  · next e => rw [e.1, e.2]; exact hx k hk
  · exact hk

/-- A new key takes a way of its set. -/
theorem Descriptors.allocate_sound {j w x} {d : Descriptors} {k : Key} (hx : x.entry.map (·.key) = some k)
    (hj : setOf k = j) (hw : k ∉ d.waiting) (hn : ∀ v, d.keyAt j v ≠ some k) (h : d.sound) :
    ((d.put j w x).use j w).sound := by
  refine use_sound ?_
  rw [sound_iff] at *
  refine ⟨h.1, h.2.1, fun i v m hm => ?_⟩
  rw [put_keyAt] at hm
  split at hm
  · next e =>
    obtain ⟨rfl, rfl⟩ := e
    obtain rfl : k = m := by simpa [hx] using hm
    refine ⟨hj, hw, fun v' hv' => ?_⟩
    rw [put_keyAt] at hv'
    by_contra hne
    simp only [true_and, hne, if_false] at hv'
    exact hn _ hv'
  · next e =>
    obtain ⟨h1, h2, h3⟩ := h.2.2 i v m hm
    refine ⟨h1, h2, fun v' hv' => ?_⟩
    rw [put_keyAt] at hv'
    split at hv'
    · next e' =>
      obtain ⟨rfl, rfl⟩ := e'
      obtain rfl : k = m := by simpa [hx] using hv'
      exact absurd hm (hn v)
    · exact h3 v' hv'

/-- The queue's items changed without their keys, or some removed. -/
theorem Descriptors.queue_sound {q : List WaitItem} {d : Descriptors}
    (hq : (q.map (·.key)).Sublist d.waiting) (h : d.sound) : { d with queue := q }.sound :=
  sound_of_less (d := d) hq (fun _ _ _ hk => hk) h

/-- A key that is neither cached nor waiting joins a queue that is not full. -/
theorem Descriptors.join_sound {i : WaitItem} {d : Descriptors} (hl : d.queue.length < 256) (hw : i.key ∉ d.waiting)
    (hn : ∀ v, d.keyAt (setOf i.key) v ≠ some i.key) (h : d.sound) : { d with queue := d.queue ++ [i] }.sound := by
  have hq : Descriptors.waiting { d with queue := d.queue ++ [i] } = d.waiting ++ [i.key] := by simp [waiting]
  rw [sound_iff] at *
  rw [hq]
  refine ⟨by simp [waiting]; omega, ?_, fun j w k hk => ?_⟩
  · rw [List.nodup_append]
    refine ⟨h.2.1, List.nodup_singleton _, ?_⟩
    intro a ha b hb e
    rw [List.mem_singleton] at hb
    exact hw (hb ▸ e ▸ ha)
  · obtain ⟨h1, h2, h3⟩ := h.2.2 j w k hk
    refine ⟨h1, ?_, h3⟩
    rw [List.mem_append, List.mem_singleton]
    rintro (hm | rfl)
    · exact h2 hm
    · rw [h1] at hn
      exact hn w hk

/-- A key that `find` does not find is in no way of its set. -/
theorem CacheSet.find_none {x : CacheSet} {k : Key} (h : x.find k = none) (v : Fin 4) :
    x.ways[v].entry.map (·.key) ≠ some k := by
  intro e
  obtain ⟨f, hf, hk⟩ := Option.map_eq_some_iff.1 e
  unfold CacheSet.find at h
  rw [List.find?_eq_none] at h
  refine h v (by fin_cases v <;> decide) ?_
  rw [hf]
  simp [hk]

/-- The key that an item takes leaves the queue. -/
theorem Descriptors.erase_waiting {d : Descriptors} {i : WaitItem} (h : d.sound) (hi : i ∈ d.queue) :
    ((d.queue.erase i).map (·.key)).Sublist d.waiting ∧ i.key ∉ (d.queue.erase i).map (·.key) := by
  refine ⟨(List.erase_sublist).map _, ?_⟩
  have hn := h.2.1
  have hp := (List.perm_cons_erase hi).map (·.key)
  have := hp.nodup_iff.1 hn
  rw [List.map_cons, List.nodup_cons] at this
  exact this.1

theorem Descriptors.reset_sound : Descriptors.reset.sound := by
  refine ⟨by decide, by decide, fun j w e h => ?_⟩
  have hr : Descriptors.reset.sets[j].ways[w].entry = none := by simp [Descriptors.reset, CacheSet.reset]
  rw [hr] at h
  cases h

theorem Descriptors.dropped_sound (d : Descriptors) : d.dropped.sound := by
  refine ⟨Nat.zero_le _, List.nodup_nil, fun j w e h => ?_⟩
  have hr : d.dropped.sets[j].ways[w].entry = none := by simp [Descriptors.dropped, Way.drop]
  rw [hr] at h
  cases h

end Sys2Proof.Machine
end

