-- ==== Sys2Proof/Laws/KeepsShow.lean ====
section
/-! SUPPORT. What a command of the show can do: cues, beats, titles, directives, desk arrivals and the answers of
the memory port. -/

namespace Sys2Proof.Machine

/-- Two ports that are free, or have something waiting, together. -/
def Port.sameShape (p q : Port) : Prop :=
  (q.inFlight = none ↔ p.inFlight = none) ∧ (q.urgent = [] ↔ p.urgent = []) ∧
    (q.background = [] ↔ p.background = [])

/-- Kept by every update of the Descriptor Unit, each of which leaves it sound. -/
structure Titles (P : State → Prop) : Prop where
  enqueue : ∀ a s, P s → P (s.enqueue a)
  setDu : ∀ d s, (s.du.sound → d.sound) → P s → P { s with du := d }

namespace Titles

variable {P : State → Prop} (h : Titles P)
include h

/-! ### Titles -/

theorem setQueue (q s) (hq : (q.map (·.key)).Sublist s.du.waiting) (hs : P s) : P (s.setQueue q) :=
  h.setDu _ _ (Descriptors.queue_sound hq) hs

theorem useWay (j w s) (hs : P s) : P (s.setCacheSet j ((s.cacheSet j).touch w)) :=
  h.setDu _ _ Descriptors.use_sound hs

/-- A way replaced that is freed, or keeps its key. -/
theorem setWay (j w x s) (hx : ∀ k, x.entry.map (·.key) = some k → (s.way j w).entry.map (·.key) = some k)
    (hs : P s) : P (s.setWay j w x) := h.setDu _ _ (Descriptors.put_sound hx) hs

theorem queueFetch (j w s) (hs : P s) : P (s.queueFetch j w) := by
  unfold State.queueFetch
  dsimp only
  repeat' split
  all_goals first
    | with_reducible exact hs
    | exact h.enqueue _ _ (h.setWay _ _ _ _ (fun k hk => by rw [‹(s.way j w).entry = some _›]; exact hk) hs)

/-- A key that is neither cached nor waiting takes a way of its set. -/
theorem allocate (j w k n s) (hk : s.du.sound → setOf k = j ∧ k ∉ s.du.waiting ∧ ∀ v, s.du.keyAt j v ≠ some k)
    (hs : P s) : P (s.allocate j w k n) :=
  h.queueFetch j w _ (h.setDu
    ((s.du.put j w { s.way j w with entry := some { key := k, state := .fetching 0 false, pins := n } }).use j w) s
    (fun hd => Descriptors.allocate_sound (k := k) rfl (hk hd).1 (hk hd).2.1 (hk hd).2.2 hd) hs)

theorem serve (j w s) (hs : P s) : P (s.serve j w) := by
  unfold State.serve
  split
  · split
    · exact hs
    · next i hi =>
      refine h.queueFetch j w _ (h.setDu
        ((Descriptors.put j w { s.way j w with entry := some { key := i.key, state := .fetching 0 false, pins := i.pins } }
          { s.du with queue := s.du.queue.erase i }).use j w) s (fun hd => ?_) hs)
      have hm := List.mem_of_find?_eq_some hi
      have hq := Descriptors.erase_waiting hd hm
      refine Descriptors.allocate_sound (k := i.key) rfl (by simpa using List.find?_some hi) hq.2 (fun v hv => ?_)
        (Descriptors.queue_sound hq.1 hd)
      exact (((Descriptors.sound_iff _).1 hd).2.2 j v i.key hv).2.1 (List.mem_map.2 ⟨i, hm, rfl⟩)
  · exact hs

theorem setPins (j w f s) (hs : P s) : P (s.setPins j w f) := h.setWay _ _ _ _
  (fun k hk => by
    simp only [Option.map_map] at hk
    exact hk) hs

theorem countRequest (b s) (hs : P s) : P (s.countRequest b) := by
  refine h.setDu _ _ (fun hd => ?_) hs
  split <;> exact hd

theorem requestKey (k s) (hs : P s) : P (s.requestKey k).1 := by
  unfold State.requestKey
  dsimp only
  split
  · exact h.useWay _ _ _ (h.countRequest _ _ (h.setPins _ _ _ _ hs))
  · next hf =>
    have h1 := h.countRequest false _ hs
    split
    · refine h.setQueue _ _ ?_ h1
      rw [List.map_map]
      refine (List.map_congr_left fun i _ => ?_) ▸ List.Sublist.refl _
      dsimp only [Function.comp]
      split <;> rfl
    · next hw =>
      have hw' : k ∉ (s.countRequest false).du.waiting := by
        intro hm
        obtain ⟨i, hi, hik⟩ := List.mem_map.1 hm
        exact hw (List.any_eq_true.2 ⟨i, hi, beq_iff_eq.2 hik⟩)
      split
      · exact h.allocate _ _ _ _ _ (fun _ => ⟨rfl, hw', CacheSet.find_none hf⟩) h1
      · split
        · next hl => exact h.setDu _ _ (Descriptors.join_sound hl hw' (CacheSet.find_none hf)) h1
        · exact h1

theorem releaseKey (k s) (hs : P s) : P (s.releaseKey k) := by
  unfold State.releaseKey
  dsimp only
  split
  · exact h.serve _ _ _ (h.setPins _ _ _ _ hs)
  · refine h.setQueue _ _ ?_ hs
    refine (List.filter_sublist.map _).trans ?_
    rw [List.map_map]
    refine (List.map_congr_left fun i _ => ?_) ▸ List.Sublist.refl _
    dsimp only [Function.comp]
    split <;> rfl

theorem releaseKeys (ks s) (hs : P s) : P (s.releaseKeys ks) :=
  foldl_keeps (fun s p hs => by
    split
    · exact hs
    · exact h.releaseKey _ _ hs) _ _ hs

theorem endFetch (j w e r s) (he : (s.way j w).entry = some e) (hs : P s) : P (s.endFetch j w e r) :=
  h.setWay _ _ _ _ (fun k hk => by rw [he]; exact hk) hs

theorem fetchAnswered (j w d s) (hs : P s) : P (s.fetchAnswered j w d).1 := by
  unfold State.fetchAnswered
  split
  · exact hs
  · next e he =>
    split
    · dsimp only
      split
      · exact h.endFetch _ _ _ _ _ he hs
      · exact h.queueFetch _ _ _ (h.setWay _ _ _ _ (fun k hk => by rw [he]; exact hk) hs)
    · exact hs

theorem endCancelled (j w s) (hs : P s) : P (s.endCancelled j w) :=
  h.queueFetch _ _ _ (h.setWay _ _ _ _ (fun _ hk => hk) hs)

theorem fetchFaulted (j w s) (hs : P s) : P (s.fetchFaulted j w).1 := by
  unfold State.fetchFaulted
  split
  · exact hs
  · exact h.setWay _ _ _ _ (fun _ hk => by cases hk) hs

theorem warmKey (k s) (hs : P s) : P (s.warmKey k) := by
  unfold State.warmKey
  dsimp only
  split
  · exact h.useWay _ _ _ hs
  · next hf =>
    split
    · exact hs
    · next hw =>
      split
      · refine h.allocate _ _ _ _ _ (fun _ => ⟨rfl, fun hm => ?_, CacheSet.find_none hf⟩) hs
        obtain ⟨i, hi, hik⟩ := List.mem_map.1 hm
        exact hw (List.any_eq_true.2 ⟨i, hi, beq_iff_eq.2 hik⟩)
      · exact hs

theorem invalidateWay (j w s) (hs : P s) : P (s.invalidateWay j w).1 := by
  unfold State.invalidateWay
  dsimp only
  split
  · exact hs
  · next e he =>
    split
    · exact h.serve _ _ _ (h.setWay _ _ _ _ (fun _ hk => by cases hk) hs)
    · exact h.queueFetch _ _ _ (h.setWay _ _ _ _ (fun k hk => by rw [he]; exact hk) hs)

theorem invalidateKey (k s) (hs : P s) : P (s.invalidateKey k).1 := by
  unfold State.invalidateKey
  split
  · exact h.invalidateWay _ _ _ hs
  · exact hs

theorem invalidateAll (s) (hs : P s) : P s.invalidateAll.1 := by
  unfold State.invalidateAll
  generalize allSets = js
  refine foldl_keeps_fst (P := P) (fun p j hp => ?_) js (s, []) hs
  refine foldl_keeps_fst (P := P) (fun q w hq => ?_) allWays p hp
  exact h.invalidateWay j w q.1 hq

theorem requestKeys (ks s) (hs : P s) : P (s.requestKeys ks).1 :=
  foldl_keeps_fst (P := P) (f := fun p k => ((p.1.requestKey k).1, p.2 ++ [(k, (p.1.requestKey k).2)]))
    (fun p k hp => h.requestKey k p.1 hp) ks (s, []) hs

end Titles

/-- Two walkers that differ in the offer being made alone. -/
def Walker.sameWalk (w v : Walker) : Prop :=
  v = { w with cursor := v.cursor, waiting := v.waiting, reading := v.reading, heldBack := v.heldBack }

/-- Kept by every update that a review of the offers makes. -/
structure Offers (P : State → Prop) : Prop where
  enqueue : ∀ a s, P s → P (s.enqueue a)
  setOffer : ∀ w s, s.wlk.sameWalk w → P s → P (s.setWalker w)

namespace Offers

variable {P : State → Prop} (h : Offers P)
include h

theorem advanceCursor (n s) (hs : P s) : P (State.advanceCursor n s) := by
  induction n generalizing s with
  | zero => exact hs
  | succ n ih =>
    unfold State.advanceCursor
    repeat' split
    all_goals first
      | with_reducible exact hs
      | exact ih _ (h.setOffer _ _ rfl hs)

theorem startOffer (c sc s) (hs : P s) : P (s.startOffer c sc) := 
  h.enqueue _ _ (h.setOffer _ _ rfl hs)

theorem offerAtCursor (s) (hs : P s) : P s.offerAtCursor := by
  unfold State.offerAtCursor
  repeat' split
  all_goals first
    | with_reducible exact hs
    | with_reducible exact h.startOffer _ _ _ hs

theorem reviewOffers (s) (hs : P s) : P s.reviewOffers := by
  unfold State.reviewOffers
  split
  · exact h.offerAtCursor _ (h.advanceCursor _ _ hs)
  · exact hs

end Offers

/-- Kept by every update that timing, tracking and walking make: no screen, no link, no title and no desk line is
touched, FREEZE stays, an empty armed list stays empty, and the history stays within its bound. -/
structure Walks (P : State → Prop) : Prop extends Ends P where
  setTracker : ∀ k s, P s → P (s.setTracker k)
  setWalker : ∀ w s, (s.wlk.sound → w.sound) → P s → P (s.setWalker w)
  setSch : ∀ c s, c.freeze = s.sch.freeze → (s.sch.armed = [] → c.armed = []) → P s → P { s with sch := c }
  setPort : ∀ p s, s.smi.port.sameShape p → P s → P (s.setPort p)

namespace Walks

variable {P : State → Prop} (h : Walks P)
include h

/-- A review of the offers is one of these updates. -/
theorem toOffers : Offers P where
  enqueue := h.enqueue
  setOffer w s hw hs := h.setWalker w s (fun hh => by rw [hw]; exact hh) hs

theorem reviewOffers (s) (hs : P s) : P s.reviewOffers := h.toOffers.reviewOffers s hs

theorem journal (b s) (hs : P s) : P (s.journal b) := h.journalAt _ _ _ hs

/-! ### Timing and tracking -/

theorem setArmed (es s) (he : s.sch.armed = [] → es = []) (hs : P s) : P (s.setArmed es) := h.setSch _ _ rfl he hs

theorem updateArmed (c p f s) (hs : P s) : P (s.updateArmed c p f) :=
  h.setArmed _ _ (by intro e; rw [e]; rfl) hs

theorem setView (v s) (hs : P s) : P (s.setView v) := h.setSch _ _ rfl (fun e => e) hs

theorem handBeat (m s) (hs : P s) : P (s.handBeat m) :=
  h.setArmed _ _ (by intro e; rw [e]; rfl) (h.setView _ _ hs)

theorem handState (s) (hs : P s) : P s.handState :=
  h.setArmed _ _ (by intro e; rw [e]; rfl) (h.setView _ _ hs)

theorem journalTracker (o c s) (hs : P s) : P (s.journalTracker o c) := h.journal _ _ hs

theorem trackerChanged (o c s) (hs : P s) : P (s.trackerChanged o c) := by
  unfold State.trackerChanged
  split
  · exact hs
  · exact h.handState _ (h.journalTracker _ _ _ hs)

theorem suspendTracker (c s) (hs : P s) : P (s.suspendTracker c) := h.trackerChanged _ _ _ (h.setTracker _ _ hs)

theorem lockFromCalled (x s) (hs : P s) : P (s.lockFromCalled x) := h.trackerChanged _ _ _ (h.setTracker _ _ hs)

theorem lockForResume (s) (hs : P s) : P s.lockForResume := h.trackerChanged _ _ _ (h.setTracker _ _ hs)

theorem positionTracker (x n s) (hs : P s) : P (s.positionTracker x n) :=
  h.trackerChanged _ _ _ (h.setTracker _ _ hs)

/-! ### Walking -/

theorem journalEntered (c s) (hs : P s) : P (s.journalEntered c) := h.journal _ _ hs

theorem discardRead (s) (hs : P s) : P s.discardRead :=
  h.setPort _ _ ⟨by simp, by simp, by simp⟩ hs

theorem overrun (n o s) (hs : P s) : P (s.overrun n o) := by
  unfold State.overrun
  split
  · split
    · exact h.journal _ _ (h.discardRead _ (h.setWalker _ _ id hs))
    · exact hs
  · exact hs

theorem testEnd (s) (hs : P s) : P s.testEnd := by
  unfold State.testEnd
  split
  · exact h.changeEngine _ _ _ _ _ _ (h.discardRead _ (h.setWalker _ _ (fun _ => Nat.zero_le _)
      (h.suspendTracker _ _ hs)))
  · exact hs

theorem passShow (c s) (hs : P s) : P (s.passShow c) := h.journalEntered _ _ (h.setWalker _ _ id hs)

theorem enterCalled (m y c s) (hs : P s) : P (s.enterCalled m y c) := h.journalEntered _ _ (h.setWalker _ _ id hs)

theorem enterBeatByGo (m y s) (hs : P s) : P (s.enterBeatByGo m y) :=
  h.lockFromCalled _ _ (h.journalEntered _ _ (h.setWalker _ _ id hs))

theorem goCalled (n g s) (hs : P s) : P (State.goCalled n g s) := by
  induction n generalizing s with
  | zero => exact hs
  | succ n ih =>
    unfold State.goCalled
    repeat' split
    all_goals first
      | with_reducible exact hs
      | with_reducible exact h.setWalker _ _ id hs
      | with_reducible exact h.updateArmed _ _ _ _ hs
      | with_reducible exact h.testEnd _ (h.overrun _ _ _ (h.passShow _ _ hs))
      | exact ih _ (h.overrun _ _ _ (h.enterCalled _ _ _ _ hs))
      | with_reducible exact h.overrun _ _ _ (h.enterBeatByGo _ _ _ hs)

theorem actOwedGo (s) (hs : P s) : P s.actOwedGo := by
  unfold State.actOwedGo
  split
  · exact hs
  · exact h.goCalled _ _ _ (h.setWalker _ _ id hs)

theorem moveFireCursor (c s) (hs : P s) : P (s.moveFireCursor c) := by
  unfold State.moveFireCursor
  repeat' split
  all_goals first
    | with_reducible exact hs
    | with_reducible exact h.actOwedGo _ (h.setWalker _ _ id hs)

theorem cueFired (e s) (hs : P s) : P (s.cueFired e) := by
  unfold State.cueFired
  extract_lets called src s1 s2
  have h1 : P s1 := by
    unfold s1
    split
    · exact h.setWalker _ _ id hs
    · exact hs
  refine h.reviewOffers _ ?_
  unfold s2
  split
  · exact h.moveFireCursor _ _ h1
  · exact h1

theorem endPass (n x b s) (hs : P s) : P (s.endPass n x b).1 := by
  unfold State.endPass
  dsimp only
  split
  · exact h.overrun _ _ _ (h.journalEntered _ _ (h.setWalker _ _ id hs))
  · split
    · exact h.overrun _ _ _ (h.passShow _ _ hs)
    · split
      · exact h.overrun _ _ _ (h.enterCalled _ _ _ _ hs)
      · exact h.overrun _ _ _ (h.journalEntered _ _ (h.setWalker _ _ id hs))

theorem mapBeat (b s) (hs : P s) : P (s.mapBeat b).1 := by
  unfold State.mapBeat
  dsimp only
  repeat' split
  all_goals first
    | with_reducible exact hs
    | exact h.setTracker _ _ (h.setWalker _ _ id hs)
    | exact h.reviewOffers _ (h.endPass _ _ _ _ (h.setTracker _ _ (h.setWalker _ _ id hs)))
    | exact h.reviewOffers _ (h.setTracker _ _ (h.setWalker _ _ id hs))

theorem positionWalker (k n x c s) (hs : P s) : P (s.positionWalker k n x c) :=
  h.journalEntered _ _ (h.discardRead _ (h.setWalker _ _ (fun _ => Nat.zero_le _) hs))

/-! ### Beats -/

theorem runBeats (n b r s) (hs : P s) : P (State.runBeats n b r s).1 := by
  induction n generalizing b r s with
  | zero => exact hs
  | succ n ih =>
    unfold State.runBeats
    dsimp only
    have h1 := h.mapBeat b _ (h.setTracker { s.trk with beat := b } s hs)
    split
    · exact h1
    · exact ih _ _ _ h1

theorem handRun (b n s) (hs : P s) : P (State.handRun b n s).1 := by
  unfold State.handRun
  split
  · exact h.runBeats _ _ _ _ hs
  · exact h.runBeats _ _ _ _ hs

theorem journalCorrection (m n a s) (hs : P s) : P (s.journalCorrection m n a) := h.journal _ _ hs

theorem correctBar (r s) (hs : P s) : P (s.correctBar r).1 := by
  unfold State.correctBar
  dsimp only
  split
  · exact h.setTracker _ _ hs
  · split
    · exact h.journalCorrection _ _ _ _ (h.setTracker _ _ (h.runBeats _ _ _ _ (h.setTracker _ _ hs)))
    · exact h.journalCorrection _ _ _ _ (h.setTracker _ _ hs)

theorem applyMark (m s) (hs : P s) : P (s.applyMark m) := by
  unfold State.applyMark
  split
  · exact hs
  · exact h.setTracker _ _ hs

end Walks

/-- Kept besides by the counts of the desk lines. -/
structure Desks (P : State → Prop) : Prop extends Walks P where
  setDesk : ∀ d s, P s → P { s with desk := d }

namespace Desks

variable {P : State → Prop} (h : Desks P)
include h

theorem countIgnored (l s) (hs : P s) : P (s.countIgnored l) := h.setDesk _ _ hs

theorem ignoreDesk (l r s) (hs : P s) : P (s.ignoreDesk l r) := h.countIgnored _ _ (h.journal _ _ hs)

theorem withdrawGo (s) (hs : P s) : P s.withdrawGo := by
  unfold State.withdrawGo
  split
  · exact hs
  · exact h.ignoreDesk _ _ _ (h.setWalker _ _ id hs)

theorem takeGo (g s) (hs : P s) : P (s.takeGo g) := by
  unfold State.takeGo
  repeat' split
  all_goals first
    | with_reducible exact hs
    | with_reducible exact h.setWalker _ _ id hs
    | with_reducible exact h.ignoreDesk _ _ _ hs
    | with_reducible exact h.goCalled _ _ _ hs

end Desks

/-- Kept by every update of a command that is neither a reset, nor a write of BASE or CAUSE, nor a directive that
replaces a screen's settings, nor the end of a journal write. -/
structure Show (P : State → Prop) : Prop extends Links P, Desks P, Titles P where
  setScheduler : ∀ c s, P s → P { s with sch := c }
  freePort : ∀ s, P s → P s.freePort

/-- Kept besides by the journal's own writes. -/
structure Whole (P : State → Prop) : Prop extends Show P where
  writeJournalCount : ∀ s, P s → P s.writeJournalCount
  dropJournalHead : ∀ s, P s → P s.dropJournalHead

namespace Show

variable {P : State → Prop} (h : Show P)
include h

theorem journal (b s) (hs : P s) : P (s.journal b) := h.journalAt _ _ _ hs

/-! ### Firing -/

theorem emptyArmed (s) (hs : P s) : P s.emptyArmed :=
  foldl_keeps (fun _ _ hs => h.releaseKeys _ _ hs) _ _ (h.setScheduler _ _ hs)

theorem fireAt (e p i) (hp : P p.1) : P (fireAt e p i).1 := by
  unfold Machine.fireAt
  split
  · split
    · exact h.placeRequest _ _ _ hp
    · dsimp only
      split
      · exact hp
      · exact h.placeRequest _ _ _ hp
  · exact hp

theorem journalFire (e m s) (hs : P s) : P (s.journalFire e m) := by
  unfold State.journalFire
  dsimp only
  split
  · exact h.journal _ _ (h.journal _ _ hs)
  · exact h.journal _ _ hs

theorem journalMissing (e ms s) (hs : P s) : P (s.journalMissing e ms) :=
  foldl_keeps (fun _ _ hs => h.journal _ _ hs) _ _ hs

theorem remember (e m s) (hs : P s) : P (s.remember e m) := by
  unfold State.remember
  split
  · exact hs
  · exact h.setWalker _ _ (fun _ => List.length_take_le _ _) hs

theorem leaveList (e s) (hs : P s) : P (s.leaveList e) := 
  h.testEnd _ (h.setSch _ _ rfl (by intro e; rw [e]; rfl) hs)

theorem timeFollower (c p a s) (hs : P s) : P (s.timeFollower c p a) := h.updateArmed _ _ _ _ hs

theorem fireEntry (e s) (hs : P s) : P (s.fireEntry e) :=
  h.timeFollower _ _ _ _ (h.cueFired _ _ (h.leaveList _ _ (h.releaseKeys _ _ (h.remember _ _ _
    (h.journalMissing _ _ _ (h.journalFire _ _ _ (foldl_keeps_fst (h.fireAt e) _ _ hs)))))))

theorem fireLoop (n s) (hs : P s) : P (State.fireLoop n s) := by
  induction n generalizing s with
  | zero => exact hs
  | succ n ih =>
    unfold State.fireLoop
    repeat' split
    all_goals first
      | with_reducible exact hs
      | exact ih _ (h.fireEntry _ _ hs)

theorem fireAll (s) (hs : P s) : P s.fireAll := h.fireLoop _ _ hs

theorem pressGo (g s) (hs : P s) : P (s.pressGo g) := h.reviewOffers _ (h.fireAll _ (h.takeGo _ _ hs))

/-! ### Counted beats -/

theorem settle (how n m s) (hs : P s) : P (s.settle how n m) := by
  unfold State.settle
  extract_lets ended q s1 src s2 q2 s3 moved s4 s5 src2 s6 s7
  have h1 : P s1 := h.handRun _ _ _ hs
  have h2 : P s2 := by
    unfold s2
    split
    · exact h.setTracker _ _ h1
    · exact h1
  have h3 : P s3 := by
    unfold s3 q2
    split
    · exact h.correctBar _ _ h2
    · exact h2
  have h4 : P s4 := by
    unfold s4
    split
    · exact h.journalTracker _ _ _ (h.setTracker _ _ h3)
    · exact h3
  have h7 : P s7 := h.fireAll _ (h.handBeat _ _ (h.setTracker _ _ (h.applyMark _ _ h4)))
  split
  · exact h7
  · exact h.testEnd _ h7

theorem becomeState (n c b s) (hs : P s) : P (s.becomeState n c b) := h.journal _ _ (h.setTracker _ _ hs)

theorem lockBeat (s) (hs : P s) : P s.lockBeat := h.settle _ _ _ _ (h.becomeState _ _ _ _ (h.setTracker _ _ hs))

theorem bounce (s) (hs : P s) : P s.bounce := by
  have h1 := h.setTracker { s.trk with bounces := s.trk.bounces + 1 } s hs
  unfold State.bounce
  dsimp only
  split
  · exact h.setCause _ _ (h.journalTracker _ _ _ (h.setTracker _ _ h1))
  · exact h1

theorem afterFermata (d s) (hs : P s) : P (s.afterFermata d) := h.settle _ _ _ _ (h.setTracker _ _ hs)

theorem normalBeat (d s) (hs : P s) : P (s.normalBeat d) := h.settle _ _ _ _ (h.setTracker _ _ hs)

theorem matchedArrival (d s) (hs : P s) : P (s.matchedArrival d) :=
  h.settle _ _ _ _ (h.becomeState _ _ _ _ (h.setTracker _ _ hs))

theorem recoverLost (d s) (hs : P s) : P (s.recoverLost d) :=
  h.settle _ _ _ _ (h.becomeState _ _ _ _ (h.setTracker _ _ hs))

theorem beatArrival (d s) (hs : P s) : P (s.beatArrival d) := by
  unfold State.beatArrival
  repeat' split
  all_goals first
    | with_reducible exact hs
    | with_reducible exact h.lockBeat _ hs
    | with_reducible exact h.bounce _ hs
    | with_reducible exact h.afterFermata _ _ hs
    | with_reducible exact h.normalBeat _ _ hs
    | with_reducible exact h.matchedArrival _ _ hs
    | with_reducible exact h.recoverLost _ _ hs

theorem becomeLost (s) (hs : P s) : P s.becomeLost := by
  unfold State.becomeLost
  split
  · exact h.handState _ (h.setCause _ _ (h.journalTracker _ _ _ (h.setTracker _ _ hs)))
  · exact hs

theorem syntheticBeat (s) (hs : P s) : P s.syntheticBeat := by
  unfold State.syntheticBeat
  extract_lets k last s1 s2 s3
  have h1 : P s1 := h.setTracker _ _ hs
  have h3 : P s3 := by
    refine h.settle _ _ _ _ ?_
    unfold s2
    split
    · exact h.setCause _ _ (h.becomeState _ _ _ _ h1)
    · exact h1
  split
  · exact h.becomeLost _ h3
  · exact h3

end Show

end Sys2Proof.Machine
end

