-- ==== Sys2Proof/Laws/KeepsCommands.lean ====
section
/-! SUPPORT. What every command can do: `Whole.exec` for all but the resets, the writes of BASE and CAUSE and the
three directives that replace a screen's settings. -/

namespace Sys2Proof.Machine

namespace Walks

variable {P : State → Prop} (h : Walks P)
include h

theorem passCue (c u s) (hs : P s) : P (s.passCue c u) := by
  unfold State.passCue
  dsimp only
  split
  · exact h.moveFireCursor _ _ (h.setWalker _ _ id hs)
  · exact h.setWalker _ _ id hs

theorem dropCue (c r n s) (hs : P s) : P (s.dropCue c r n) := h.passCue _ _ _ (h.journal _ _ hs)

end Walks

namespace Show

variable {P : State → Prop} (h : Show P)
include h

/-! ### Offers -/

theorem armCue (c x cp tg o s) (hs : P s) : P (s.armCue c x cp tg o) :=
  h.setScheduler _ _ (h.requestKeys _ _ hs)

theorem handCue (c x cp tg s) (hs : P s) : P (s.handCue c x cp tg) := h.armCue _ _ _ _ _ _ (h.setWalker _ _ id hs)

theorem disposeCue (c x cp s) (hs : P s) : P (s.disposeCue c x cp) := by
  unfold State.disposeCue
  dsimp only
  repeat' split
  all_goals first
    | with_reducible exact h.passCue _ _ _ hs
    | with_reducible exact h.setWalker _ _ id hs
    | with_reducible exact h.handCue _ _ _ _ _ hs

theorem takeOffer (d s) (hs : P s) : P (s.takeOffer d) := by
  unfold State.takeOffer
  repeat' split
  all_goals first
    | with_reducible exact hs
    | with_reducible exact h.dropCue _ _ _ _ hs
    | with_reducible exact h.disposeCue _ _ _ _ hs

theorem endOffer (b d s) (hs : P s) : P (s.endOffer b d) := by
  have h1 := h.setWalker { s.wlk with reading := false } s id hs
  unfold State.endOffer
  refine h.reviewOffers _ (h.fireAll _ ?_)
  repeat' split
  all_goals first
    | with_reducible exact h1
    | with_reducible exact h.takeOffer _ _ h1
    | with_reducible exact h.dropCue _ _ _ _ h1

/-! ### NOTICE and AMEND CUE -/

theorem setWork (w s) (hs : P s) : P (s.setWork w) := h.setCtl _ _ hs

theorem placeNoticeAt (w p i) (hp : P p.1) : P (placeNoticeAt w p i).1 := by
  unfold Machine.placeNoticeAt
  dsimp only
  split
  · split
    · exact hp
    · exact h.placeRequest _ _ _ hp
  · exact hp

theorem complete (c ws s) (hs : P s) : P (s.complete c ws) := h.toEnds.complete _ _ _ hs

theorem placeNotice (s) (hs : P s) : P s.placeNotice := by
  unfold State.placeNotice
  split
  · exact hs
  · split
    · exact h.complete _ _ _ (h.releaseKeys _ _ (foldl_keeps_fst (h.placeNoticeAt _) _ _ hs))
    · exact hs

theorem answerNotice (k r s) (hs : P s) : P (s.answerNotice k r) := by
  unfold State.answerNotice
  split
  · exact hs
  · exact h.setWork _ _ hs

theorem deliverAnswer (k r s) (hs : P s) : P (s.deliverAnswer k r) :=
  h.placeNotice _ (h.fireAll _ (h.answerNotice _ _ _ (h.setScheduler _ _ hs)))

theorem reportRefetches (ks s) (hs : P s) : P (s.reportRefetches ks) :=
  foldl_keeps (fun _ _ hs => h.setScheduler _ _ hs) _ _ hs

theorem noticeRequestKey (p k) (hp : P p.1) : P (noticeRequestKey p k).1 := by
  unfold Machine.noticeRequestKey
  dsimp only
  split
  · exact h.releaseKey _ _ (h.requestKey _ _ hp)
  · exact h.requestKey _ _ hp

theorem beginNotice (n s) (hs : P s) : P (s.beginNotice n) := by
  unfold State.beginNotice
  dsimp only
  split
  · exact h.complete _ _ _ hs
  · exact h.placeNotice _ (h.setWork _ _ (foldl_keeps_fst h.noticeRequestKey _ _ hs))

theorem beginAmend (c s) (hs : P s) : P (s.beginAmend c) := by
  unfold State.beginAmend
  split
  · exact hs
  · exact h.enqueue _ _ (h.setWork _ _ hs)

theorem amendEntry (n s e) (hs : P s) : P (State.amendEntry n s e) := by
  unfold State.amendEntry
  dsimp only
  split
  · exact h.updateArmed _ _ _ _ hs
  · exact h.releaseKeys _ _ (h.updateArmed _ _ _ _ (h.requestKeys _ _ hs))

theorem amendRead (c d s) (hs : P s) : P (s.amendRead c d) := by
  unfold State.amendRead
  dsimp only
  split
  · exact hs
  · split
    · exact h.complete _ _ _ hs
    · exact h.complete _ _ _ (h.fireAll _ (foldl_keeps (h.amendEntry _) _ _ hs))

/-! ### LOAD -/

theorem queueLoad (w s) (hs : P s) : P (s.queueLoad w) := h.enqueue _ _ (h.setWork _ _ hs)

theorem failLoad (c t i f s) (hs : P s) : P (s.failLoad c t i f) := h.complete _ _ _ (h.changeEngine _ _ _ _ _ _ hs)

theorem setScript (w d b c s) (hw : s.wlk.sound → w.sound) (hd : s.du.sound → d.sound) (hs : P s) :
    P { s with wlk := w, du := d, arb := { s.arb with dwellBase := b, dwellPerChar := c } } :=
  h.setArb { s.arb with dwellBase := b, dwellPerChar := c } { s with wlk := w, du := d } rfl
    (h.setDu d { s with wlk := w } hd (h.setWalker w s hw hs))

theorem beginLoad (a s) (hs : P s) : P (s.beginLoad a) := by
  unfold State.beginLoad
  extract_lets s1 s2 src src2 s3
  have h3 : P s3 := h.setScript _ _ _ _ _ (fun _ => Nat.zero_le _) (fun _ => Descriptors.dropped_sound _)
    (h.discardRead _ (h.changeEngine _ _ _ _ _ _ hs))
  split
  · exact h.queueLoad _ _ h3
  · exact h.failLoad _ _ _ _ _ h3

theorem finishLoad (w s) (hs : P s) : P (s.finishLoad w) :=
  h.complete _ _ _ (h.changeEngine _ _ _ _ _ _ (h.setScript _ _ _ _ _ id id hs))

theorem continueLoad (w s) (hs : P s) : P (s.continueLoad w) := by
  unfold State.continueLoad
  repeat' split
  all_goals first
    | with_reducible exact h.queueLoad _ _ hs
    | with_reducible exact h.finishLoad _ _ hs

theorem loadRead (w d s) (hs : P s) : P (s.loadRead w d) := by
  unfold State.loadRead
  dsimp only
  repeat' split
  all_goals first
    | with_reducible exact h.continueLoad _ _ hs
    | with_reducible exact h.failLoad _ _ _ _ _ hs

/-! ### Directives -/

theorem takeKind (ks b s) (hb : ∀ k ws s, P s → P (b k ws s)) (hs : P s) : P (s.takeKind ks b) := by
  unfold State.takeKind
  split
  · split
    · have hb2 : ∀ m c, s.smi.sameCore m → P { s with smi := m, ctl := c } := fun m c hm =>
        h.setCtl c { s with smi := m } (h.smi m s hm hs)
      exact h.freePort _ (h.toBus.startOwedScan _ (hb _ _ _ (hb2 _ _ ⟨rfl, rfl, rfl, rfl, rfl, rfl, rfl⟩)))
    · exact hs
  · exact hs

theorem checked {α : Type} (k) (r : List Nat → State → Option α) (act : α → State → State) (ws s)
    (ha : ∀ a s, P s → P (act a s)) (hs : P s) : P (s.checked k r act ws) := by
  unfold State.checked
  repeat' split
  all_goals first
    | with_reducible exact ha _ _ hs
    | with_reducible exact h.complete _ _ _ hs

theorem takeDirective {α : Type} (k) (r : List Nat → State → Option α) (act : α → State → State) (s)
    (ha : ∀ a s, P s → P (act a s)) (hs : P s) : P (s.takeDirective k r act) :=
  h.takeKind _ _ _ (fun _ _ _ hs => h.checked _ _ _ _ _ ha hs) hs

theorem completeOk (s) (hs : P s) : P s.completeOk := h.complete _ _ _ hs

theorem armShow (a s) (hs : P s) : P (s.armShow a) := by
  unfold State.armShow
  extract_lets slot k src s1 src2 s2 order src3 s3 s4 src4 s5 src5 s6
  have h1 : P s1 := h.emptyArmed _ (h.setCtl _ _ hs)
  have h3 : P s3 := h.setWalker _ _ id (h.setScheduler _ _ h1)
  have h4 : P s4 := by
    unfold s4
    split
    · exact h.positionTracker _ _ _ (h.positionWalker _ _ _ _ _ h3)
    · exact h3
  exact h.completeOk _ (h.reviewOffers _ (h.changeEngine _ _ _ _ _ _
    (h.setPort _ _ ⟨Iff.rfl, Iff.rfl, Iff.rfl⟩ (h.setTracker _ _ h4))))

theorem locateShow (p s) (hs : P s) : P (s.locateShow p) :=
  h.completeOk _ (h.reviewOffers _ (h.dropScreenCues _ (h.positionTracker _ _ _ (h.positionWalker _ _ _ _ _
    (h.withdrawGo _ (h.emptyArmed _ hs))))))

theorem pauseTimers (s) (hs : P s) : P s.pauseTimers := h.setScheduler _ _ hs

theorem pauseShow (s) (hs : P s) : P s.pauseShow :=
  h.testQuiet _ (h.setCtl _ _ (h.pauseScreens _ (h.withdrawGo _ (h.suspendTracker _ _ (h.pauseTimers _
    (h.changeEngine _ _ _ _ _ _ hs))))))

theorem resumeShow (s) (hs : P s) : P s.resumeShow := by
  unfold State.resumeShow
  extract_lets slot s1 s2
  have h1 : P s1 := by
    unfold s1
    split
    · exact h.lockForResume _ hs
    · exact hs
  exact h.completeOk _ (h.fireAll _ (h.setScheduler _ _ (h.fireAll _ (h.changeEngine _ _ _ _ _ _ h1))))

theorem stopShow (s) (hs : P s) : P s.stopShow := by
  unfold State.stopShow
  extract_lets slot s1 src s2 s3 src2 s4
  have h3 : P s3 := h.dropScreenCues _ (h.suspendTracker _ _ (h.discardRead _ (h.setWalker _ _ (fun _ => Nat.zero_le _)
    (h.withdrawGo _ (h.emptyArmed _ hs)))))
  refine h.completeOk _ (h.changeEngine _ _ _ _ _ _ ?_)
  unfold s4
  split
  · exact h.toBus.handBack _ _ _ _ (h.setCtl _ _ h3)
  · exact h3

theorem startShow (l s) (hs : P s) : P (s.startShow l) := h.fireAll _ (h.changeEngine _ _ _ _ _ _ hs)

theorem setMirrorTo (p s) (hs : P s) : P (s.setMirrorTo p) := by
  unfold State.setMirrorTo
  split
  · exact h.completeOk _ (h.endMirror _ hs)
  · exact h.completeOk _ (h.setMirrorPair _ _ _ hs)

theorem probeLink (i s) (hs : P s) : P (s.probeLink i) := by
  have up : (s.link i).state ≠ .down → (s.link i).sound → ((s.link i).probe s.clock).sound := by
    intro hd hk
    refine Link.probe_sound _ ?_
    cases hc : (s.link i).carrier
    · exact absurd (hk.1 hc) hd
    · rfl
  unfold State.probeLink
  split
  · next hk => exact h.complete _ _ _ (h.enterProbing _ _ _ (up (by simp [hk])) hs)
  · next hk => exact h.complete _ _ _ (h.enterProbing _ _ _ (up (by simp [hk])) hs)
  all_goals exact h.complete _ _ _ hs

theorem invalidateKeys (k s) (hs : P s) : P (s.invalidateKeys k) := by
  unfold State.invalidateKeys
  refine h.completeOk _ (h.reportRefetches _ _ ?_)
  split
  · exact h.invalidateKey _ _ hs
  · exact h.invalidateAll _ hs

theorem warmKeys (ks s) (hs : P s) : P (s.warmKeys ks) :=
  h.completeOk _ (foldl_keeps (fun s k hs => h.warmKey k s hs) _ _ hs)

/-! ### The desk -/

theorem setLine (l x s) (hs : P s) : P (s.setLine l x) := h.setDesk _ _ hs

theorem risingEdge (l f s) (hf : ∀ s, P s → P (f s)) (hs : P s) : P (s.risingEdge l f) := by
  unfold State.risingEdge
  dsimp only
  split
  · exact hf _ (h.setLine _ _ _ hs)
  · exact h.setLine _ _ _ hs

theorem routeBeat (l s) (hs : P s) : P (State.routeBeat l s) := by
  unfold State.routeBeat
  dsimp only
  repeat' split
  all_goals first
    | with_reducible exact h.beatArrival _ _ hs
    | with_reducible exact h.beatArrival _ _ (h.startShow _ _ hs)
    | with_reducible exact h.countIgnored _ _ hs

theorem routeGo (s) (hs : P s) : P s.routeGo := by
  unfold State.routeGo
  repeat' split
  all_goals first
    | with_reducible exact h.pressGo _ _ hs
    | with_reducible exact h.pressGo _ _ (h.startShow _ _ hs)
    | with_reducible exact h.ignoreDesk _ _ _ hs

theorem backAt (e s i) (hs : P s) : P (State.backAt e s i) := by
  unfold State.backAt
  dsimp only
  split
  · split
    · exact hs
    · exact h.placeRequest _ _ _ hs
  · exact hs

theorem backCursors (e s) (hs : P s) : P (s.backCursors e) := by
  unfold State.backCursors
  dsimp only
  split
  · exact h.discardRead _ (h.setWalker _ _ id hs)
  · exact hs

theorem takeBack (s) (hs : P s) : P s.takeBack := by
  unfold State.takeBack
  split
  · next hw =>
    refine h.reviewOffers _ (h.backCursors _ _ (foldl_keeps (h.backAt _) _ _ (h.setWalker _ _ (fun hl => ?_) hs)))
    unfold Walker.sound at hl
    rw [hw] at hl
    exact Nat.le_of_succ_le hl
  · exact h.ignoreDesk _ _ _ hs

theorem routeBack (s) (hs : P s) : P s.routeBack := by
  unfold State.routeBack
  split
  · exact h.takeBack _ hs
  · exact h.ignoreDesk _ _ _ hs

theorem takeBlank (s) (hs : P s) : P s.takeBlank := by
  unfold State.takeBlank
  dsimp only
  split
  · refine foldl_keeps (fun s i hs => ?_) _ _ (h.pressBlank _ hs)
    split
    · exact h.evaluate _ _ hs
    · exact hs
  · exact h.ignoreDesk _ _ _ (h.pressBlank _ hs)

theorem routeBlank (s) (hs : P s) : P s.routeBlank := by
  unfold State.routeBlank
  split
  all_goals first
    | with_reducible exact h.takeBlank _ hs
    | with_reducible exact h.ignoreDesk _ _ _ hs

theorem handFreeze (a s) (hs : P s) : P (s.handFreeze a) := by
  have h1 := h.setScheduler { s.sch with freeze := a } s hs
  unfold State.handFreeze
  dsimp only
  split
  · exact h1
  · exact h.fireAll _ h1

theorem acceptFreeze (a s) (hs : P s) : P (s.acceptFreeze a) := h.handFreeze _ _ (h.setDesk _ _ (h.setLine _ _ _ hs))

theorem freezeEdge (a s) (hs : P s) : P (s.freezeEdge a) := by
  have h1 := h.setLine .freeze { s.line .freeze with level := a } s hs
  unfold State.freezeEdge
  dsimp only
  repeat' split
  all_goals first
    | with_reducible exact h1
    | with_reducible exact h.acceptFreeze _ _ h1
    | with_reducible exact h.setLine _ _ _ h1

theorem endFreezeWindow (s) (hs : P s) : P s.endFreezeWindow := by
  unfold State.endFreezeWindow
  repeat' split
  all_goals first
    | with_reducible exact hs
    | with_reducible exact h.acceptFreeze _ _ hs
    | exact h.setDesk _ _ hs

theorem endLockout (s) (hs : P s) : P s.endLockout := by
  unfold State.endLockout
  repeat' split
  all_goals first
    | with_reducible exact hs
    | with_reducible exact h.journalTracker _ _ _ (h.setTracker _ _ hs)

theorem expireBeat (s) (hs : P s) : P s.expireBeat := by
  unfold State.expireBeat
  repeat' split
  all_goals first
    | with_reducible exact hs
    | with_reducible exact h.syntheticBeat _ hs

theorem expireFire (c p s) (hs : P s) : P (s.expireFire c p) := by
  unfold State.expireFire
  repeat' split
  all_goals first
    | with_reducible exact hs
    | exact h.fireAll _ (h.setArmed _ _ (by intro e; rw [e]; rfl) hs)

/-! ### Answers of the memory port -/

theorem answer (f s) (hf : ∀ p act, f p = some act → ∀ s, P s → P (act s)) (hs : P s) : P (s.answer f) := by
  unfold State.answer
  split
  · split
    · next ha => exact h.freePort _ (hf _ _ ha _ hs)
    · exact hs
  · exact hs

theorem slotStateRead (i d s) (hs : P s) : P (State.slotStateRead i d s) := by
  unfold State.slotStateRead
  repeat' split
  all_goals first
    | with_reducible exact hs
    | with_reducible exact h.toBus.readSlot _ _ _ _ hs
    | with_reducible exact h.toBus.nextSlot _ _ _ hs

theorem slotHalfRead (i d s) (hs : P s) : P (State.slotHalfRead i d s) := by
  unfold State.slotHalfRead
  repeat' split
  all_goals first
    | with_reducible exact hs
    | with_reducible exact h.toBus.readSlot _ _ _ _ hs
    | with_reducible exact h.toBus.queueTake _ _ _ hs
    | with_reducible exact h.toBus.nextSlot _ _ _ hs

theorem sweepStateRead (i d s) (hs : P s) : P (State.sweepStateRead i d s) := by
  unfold State.sweepStateRead
  repeat' split
  all_goals first
    | with_reducible exact hs
    | with_reducible exact h.toBus.sweepTaken _ _ hs
    | with_reducible exact h.toBus.nextSweep _ _ hs

theorem answerFrom (j w q) (hq : P q.1) : P (State.answerFrom j w q) := by
  unfold State.answerFrom
  split
  · exact h.serve _ _ _ (h.deliverAnswer _ _ _ hq)
  · exact hq

theorem statusWritten (s) (hs : P s) : P s.statusWritten := by
  unfold State.statusWritten
  split
  · exact h.toBus.queueStatusWrite _ _ (h.smi _ _ ⟨rfl, rfl, rfl, rfl, rfl, rfl, rfl⟩ hs)
  · exact h.toBus.endRefresh _ hs

theorem tellFault (p s) (hp : p.isJournal = false) (hs : P s) : P (s.tellFault p) := by
  cases p with
  | journalRecord => cases hp
  | journalCount => cases hp
  | scanState => exact h.toBus.endScan _ hs
  | scanSlot => exact h.toBus.endScan _ hs
  | take => exact h.toBus.endScan _ hs
  | sweepState => exact h.toBus.endScan _ hs
  | sweepResults => exact h.toBus.endScan _ hs
  | sweepDone => exact h.toBus.endScan _ hs
  | resultWords => exact h.toBus.outcomeFaulted _ _ hs
  | doneWord => exact h.toBus.outcomeFaulted _ _ hs
  | load =>
    unfold State.tellFault
    dsimp only
    split
    · exact h.failLoad _ _ _ _ _ hs
    · exact hs
  | offer b => exact h.endOffer b none s hs
  | amend => exact h.complete .memoryFault [] s hs
  | fetch j w =>
    unfold State.tellFault
    dsimp only
    split
    · exact h.endCancelled _ _ _ hs
    · exact h.answerFrom _ _ _ (h.fetchFaulted _ _ _ hs)
  | status => exact h.toBus.endRefresh _ hs

theorem journalFault (f s) (hs : P s) : P (s.journalFault f) := h.setCause _ _ (h.journalAt _ _ _ hs)

theorem lateAnswer (b s) (hs : P s) : P (s.lateAnswer b) := by
  unfold State.lateAnswer
  repeat' split
  all_goals first
    | with_reducible exact hs
    | with_reducible exact h.freePort _ hs

end Show

namespace Whole

variable {P : State → Prop} (h : Whole P)
include h

theorem journalFaulted (s) (hs : P s) : P s.journalFaulted :=
  h.dropJournalHead _ (h.setCause _ _ (h.smi _ _ ⟨rfl, rfl, rfl, rfl, rfl, rfl, rfl⟩ hs))

theorem tellFault (p s) (hs : P s) : P (s.tellFault p) := by
  cases hp : p.isJournal
  · exact h.toShow.tellFault _ _ hp hs
  · cases p
    case journalRecord => exact h.journalFaulted _ hs
    case journalCount => exact h.journalFaulted _ hs
    all_goals cases hp

theorem timeOut (s) (hs : P s) : P s.timeOut := by
  unfold State.timeOut
  repeat' split
  all_goals first
    | with_reducible exact hs
    | with_reducible exact h.freePort _ hs
    | with_reducible exact h.freePort _ (h.tellFault _ _ hs)
    | with_reducible exact h.freePort _ (h.toShow.journalFault _ _ (h.tellFault _ _ hs))
    | with_reducible exact h.freePort _ (h.tellFault _ _ (h.toShow.journalFault _ _ hs))

end Whole

/-! ### All commands -/

/-- A command that `Whole.exec` covers: no reset, no write of BASE or CAUSE, no SET MASK, SET SCREEN or SELECT
COUNTERS. -/
def Instr.ordinary : Instr → Bool
  | .powerOnReset _ _ => false
  | .reset _ _ => false
  | .base _ _ => false
  | .cause _ _ => false
  | .setMask _ => false
  | .setScreen _ => false
  | .selectCounters _ => false
  | _ => true

theorem next_keeps {P : State → Prop} {x u : State} (hx : P x)
    (he : (Host.Outcome.next x : Host.Outcome State Fault Refusal) = .next u) : P u := by
  cases he
  exact hx

theorem Whole.exec {P : State → Prop} (h : Whole P) {c : Instr} {s u : State} (hc : Instr.ordinary c = true)
    (he : Machine.exec c s = .next u) (hs : P (s.begin c.time)) : P u := by
  have dir : ∀ {α : Type} (k) (r : List Nat → State → Option α) (act : α → State → State),
      (∀ a s, P s → P (act a s)) → P ((s.begin c.time).takeDirective k r act) :=
    fun k r act ha => h.toShow.takeDirective k r act _ ha hs
  cases c with
  | powerOnReset => cases hc
  | reset => cases hc
  | base => cases hc
  | cause => cases hc
  | setMask => cases hc
  | setScreen => cases hc
  | selectCounters => cases hc
  | scan t v => exact next_keeps (h.toBus.requestScan _ hs) he
  | registerWriteIgnored t a v => exact next_keeps hs he
  | scanTimer t =>
    refine next_keeps ?_ he
    split
    · exact h.toBus.requestScan _ (h.smi _ _ ⟨rfl, rfl, rfl, rfl, rfl, rfl, rfl⟩ hs)
    · exact hs
  | scanStateRead t d =>
    refine next_keeps (h.toShow.answer _ _ ?_ hs) he
    intro p act hp s hs
    split at hp <;> cases hp
    exact h.toShow.slotStateRead _ _ _ hs
  | scanSlotRead t d =>
    refine next_keeps (h.toShow.answer _ _ ?_ hs) he
    intro p act hp s hs
    split at hp <;> cases hp
    exact h.toShow.slotHalfRead _ _ _ hs
  | unknownKind t => exact next_keeps (h.toShow.takeKind _ _ _ (fun _ _ _ hs => h.toShow.complete _ _ _ hs) hs) he
  | load t => exact next_keeps (dir _ _ _ (fun _ _ hs => h.toShow.beginLoad _ _ hs)) he
  | arm t => exact next_keeps (dir _ _ _ (fun _ _ hs => h.toShow.armShow _ _ hs)) he
  | pause t => exact next_keeps (dir _ _ _ (fun _ _ hs => h.toShow.pauseShow _ hs)) he
  | resume t => exact next_keeps (dir _ _ _ (fun _ _ hs => h.toShow.resumeShow _ hs)) he
  | stop t => exact next_keeps (dir _ _ _ (fun _ _ hs => h.toShow.stopShow _ hs)) he
  | locate t => exact next_keeps (dir _ _ _ (fun _ _ hs => h.toShow.locateShow _ _ hs)) he
  | notice t => exact next_keeps (dir _ _ _ (fun _ _ hs => h.toShow.beginNotice _ _ hs)) he
  | clear t => exact next_keeps (dir _ _ _ (fun _ _ hs => h.toShow.completeOk _ (h.toShow.hostClear _ _ _ hs))) he
  | setLayout t => exact next_keeps (dir _ _ _ (fun _ _ hs => h.toShow.completeOk _ (h.toShow.applyLayout _ _ _ hs))) he
  | setMirror t => exact next_keeps (dir _ _ _ (fun _ _ hs => h.toShow.setMirrorTo _ _ hs)) he
  | probeScreen t => exact next_keeps (dir _ _ _ (fun _ _ hs => h.toShow.probeLink _ _ hs)) he
  | amendCue t => exact next_keeps (dir _ _ _ (fun _ _ hs => h.toShow.beginAmend _ _ hs)) he
  | invalidate t => exact next_keeps (dir _ _ _ (fun _ _ hs => h.toShow.invalidateKeys _ _ hs)) he
  | warm t => exact next_keeps (dir _ _ _ (fun _ _ hs => h.toShow.warmKeys _ _ hs)) he
  | clearCounters t =>
    exact next_keeps (dir _ _ _ (fun _ _ hs => h.toShow.completeOk _ (h.toScreens.clearCounters _ _ hs))) he
  | resultWordsWrite t =>
    refine next_keeps (h.toShow.answer _ _ ?_ hs) he
    intro p act hp s hs
    split at hp <;> cases hp
    · exact h.toBus.resultsWritten _ _ hs
    · exact h.toBus.sweepDoneWrite _ _ hs
  | doneWrite t =>
    refine next_keeps (h.toShow.answer _ _ ?_ hs) he
    intro p act hp s hs
    split at hp <;> cases hp
    · exact h.toBus.doneWritten _ _ hs
    · exact h.toBus.nextSweep _ _ (h.setCause _ _ hs)
  | sweepStateRead t d =>
    refine next_keeps (h.toShow.answer _ _ ?_ hs) he
    intro p act hp s hs
    split at hp <;> cases hp
    exact h.toShow.sweepStateRead _ _ _ hs
  | loadReadComplete t d =>
    refine next_keeps (h.toShow.answer _ _ ?_ hs) he
    intro p act hp s hs
    split at hp <;> cases hp
    dsimp only
    split
    · exact h.toShow.loadRead _ _ _ hs
    · exact hs
  | offerReadComplete t d =>
    refine next_keeps (h.toShow.answer _ _ ?_ hs) he
    intro p act hp s hs
    split at hp <;> cases hp
    exact h.toShow.endOffer _ _ _ hs
  | amendReadComplete t d =>
    refine next_keeps (h.toShow.answer _ _ ?_ hs) he
    intro p act hp s hs
    split at hp <;> cases hp
    dsimp only
    split
    · exact h.toShow.amendRead _ _ _ hs
    · exact hs
  | fetchAccessComplete t d =>
    refine next_keeps (h.toShow.answer _ _ ?_ hs) he
    intro p act hp s hs
    split at hp
    · split at hp <;> cases hp
      exact h.toShow.answerFrom _ _ _ (h.toShow.fetchAnswered _ _ _ _ hs)
    · cases hp
  | cancelledReadComplete t =>
    refine next_keeps (h.toShow.answer _ _ ?_ hs) he
    intro p act hp s hs
    split at hp
    · split at hp <;> cases hp
      exact h.toShow.endCancelled _ _ _ hs
    · cases hp
  | journalRecordWrite t =>
    refine next_keeps (h.toShow.answer _ _ ?_ hs) he
    intro p act hp s hs
    split at hp <;> cases hp
    exact h.writeJournalCount _ hs
  | journalCountWrite t =>
    refine next_keeps (h.toShow.answer _ _ ?_ hs) he
    intro p act hp s hs
    split at hp <;> cases hp
    exact h.dropJournalHead _ (h.setCause _ _ hs)
  | statusTimer t =>
    refine next_keeps ?_ he
    split
    · exact h.toBus.requestRefresh _ (h.smi _ _ ⟨rfl, rfl, rfl, rfl, rfl, rfl, rfl⟩ hs)
    · exact hs
  | statusWrite t =>
    refine next_keeps (h.toShow.answer _ _ ?_ hs) he
    intro p act hp s hs
    split at hp <;> cases hp
    exact h.toShow.statusWritten _ hs
  | accessTimeout t => exact next_keeps (h.timeOut _ hs) he
  | lateAnswer t b => exact next_keeps (h.toShow.lateAnswer _ _ hs) he
  | beat t => exact next_keeps (h.toShow.risingEdge _ _ _ (h.toShow.routeBeat _) hs) he
  | downbeat t => exact next_keeps (h.toShow.risingEdge _ _ _ (h.toShow.routeBeat _) hs) he
  | go t => exact next_keeps (h.toShow.risingEdge _ _ _ h.toShow.routeGo hs) he
  | back t => exact next_keeps (h.toShow.risingEdge _ _ _ h.toShow.routeBack hs) he
  | blank t => exact next_keeps (h.toShow.risingEdge _ _ _ h.toShow.routeBlank hs) he
  | lineFallingEdge t l => exact next_keeps (h.toShow.setLine _ _ _ hs) he
  | freeze t a => exact next_keeps (h.toShow.freezeEdge _ _ hs) he
  | freezeWindowEnd t => exact next_keeps (h.toShow.endFreezeWindow _ hs) he
  | lockoutEnd t => exact next_keeps (h.toShow.endLockout _ hs) he
  | beatTimeout t => exact next_keeps (h.toShow.expireBeat _ hs) he
  | fireTimer t c p => exact next_keeps (h.toShow.expireFire _ _ _ hs) he
  | releaseTimer t i =>
    refine next_keeps ?_ he
    split
    · exact h.evaluate _ _ hs
    · exact hs
  | dwellTimer t i =>
    refine next_keeps ?_ he
    split
    · exact h.evaluate _ _ hs
    · exact hs
  | noticeTimer t i =>
    refine next_keeps ?_ he
    split
    · exact h.evaluate _ _ hs
    · exact hs
  | carrierUp t i => exact next_keeps (h.riseCarrier _ _ hs) he
  | carrierLoss t i => exact next_keeps (h.fallCarrier _ _ hs) he
  | helloRetryTimer t i => exact next_keeps (h.retryHello _ _ hs) he
  | helloReply t i a b f n => exact next_keeps (h.helloReplied _ _ _ _ _ _ hs) he
  | done t i a => exact next_keeps (h.replyDone _ _ _ hs) he
  | refused t i a r => exact next_keeps (h.replyRefused _ _ _ _ hs) he
  | frameDiscarded t i => exact next_keeps (h.ignoreMessage _ _ hs) he
  | frameGapTimeout t i => exact next_keeps (h.ignoreMessage _ _ hs) he
  | replyTimer t i => exact next_keeps (h.expireReply _ _ hs) he

/-! ### The resets and the commands left out above -/

theorem Links.probeAll {P : State → Prop} (h : Links P) (c) (s : State) (hs : P s) : P (s.probeAll c) :=
  foldl_keeps (fun s i hs => by
    split
    · next hc => exact h.enterProbing _ _ _ (fun _ => Link.probe_sound _ hc) hs
    · exact hs) _ _ hs

theorem Show.sampleFreeze {P : State → Prop} (h : Show P) (s : State) (hs : P s) : P s.sampleFreeze := by
  unfold State.sampleFreeze
  split
  · exact h.acceptFreeze _ _ hs
  · exact hs

theorem Show.softReset {P : State → Prop} (h : Show P) (s : State) (hs : P s.softValues) : P s.softReset :=
  h.changeEngine _ _ _ _ _ _ (h.sampleFreeze _ (h.toLinks.probeAll _ _ hs))

/-- A property that every command keeps: besides the elementary updates, it holds of the values the resets set, and
is kept by the writes of BASE and CAUSE and by the three directives that replace a screen's settings. -/
theorem Whole.execAll {P : State → Prop} (h : Whole P) {c : Instr} {s u : State}
    (he : Machine.exec c s = .next u) (hs : P (s.begin c.time))
    (powerOn : ∀ l k, c = .powerOnReset l k → P (s.powerOnValues l k))
    (soft : ∀ t v, c = .reset t v → P (s.begin t).softValues)
    (base : ∀ t v, c = .base t v → P { s.begin t with smi := { s.smi with base := baseOf v } })
    (cause : ∀ t v, c = .cause t v →
      P { s.begin t with smi := { s.smi with flags := s.smi.flags.clearBits v, enables := Cause.ofHigh v } })
    (mask : ∀ t, c = .setMask t → ∀ i (m : BitVec 8) s, P s →
      P (s.setScreen i { s.screen i with mask := m &&& 0xFE#8 }.hideMasked))
    (settings : ∀ t, c = .setScreen t → ∀ i n tr pm s, P s →
      P (s.setScreen i { s.screen i with latency := n, preferred := tr, prefixMode := pm }))
    (selectors : ∀ t, c = .selectCounters t → ∀ i sel s, P s →
      P (s.setScreen i ((s.screen i).select sel))) : P u := by
  by_cases hc : Instr.ordinary c = true
  · exact h.exec hc he hs
  · cases c <;> simp [Instr.ordinary] at hc
    case powerOnReset l k =>
      exact next_keeps (h.toShow.sampleFreeze _ (h.toLinks.probeAll _ _ (powerOn l k rfl))) he
    case reset t v =>
      refine next_keeps ?_ he
      split
      · exact h.toBus.requestScan _ (h.toShow.softReset _ (soft t v rfl))
      · exact h.toShow.softReset _ (soft t v rfl)
    case base t v =>
      refine next_keeps ?_ he
      split
      · exact base t v rfl
      · exact hs
    case cause t v => exact next_keeps (cause t v rfl) he
    case setMask t =>
      refine next_keeps (h.toShow.takeDirective _ _ _ _ ?_ hs) he
      exact fun a s hs => h.toShow.completeOk _ (h.setLevelMask _ _ _ (mask t rfl _ _ _ hs))
    case setScreen t =>
      refine next_keeps (h.toShow.takeDirective _ _ _ _ ?_ hs) he
      exact fun a s hs => h.toShow.completeOk _ (settings t rfl _ _ _ _ _ hs)
    case selectCounters t =>
      refine next_keeps (h.toShow.takeDirective _ _ _ _ ?_ hs) he
      exact fun a s hs => h.toShow.completeOk _ (selectors t rfl _ _ _ hs)

end Sys2Proof.Machine
end

