-- ==== Sys2Proof/Laws/ShowFrame.lean ====
section
/-! SUPPORT. What titles, walking and tracking leave alone. Firing with FREEZE asserted, or with nothing armed, does
nothing. -/

namespace Sys2Proof.Machine

/-- Only the Descriptor Unit and the interface's port differ. -/
def State.onlyTitles (s u : State) : Prop := u = { s with du := u.du, smi := u.smi } ∧ s.smi.sameScan u.smi

theorem State.onlyTitles_refl (s : State) : s.onlyTitles s := ⟨rfl, Interface.sameScan_refl _⟩

theorem Titles.only (s : State) : Titles s.onlyTitles where
  enqueue a u h := by
    refine ⟨?_, Interface.sameScan_trans h.2 (State.enqueue_sameScan a u)⟩
    have h1 := h.1
    rw [h1]
    rfl
  setDu d u _ h := by
    refine ⟨?_, h.2⟩
    have h1 := h.1
    rw [h1]

theorem Titles.inFlight (f : InFlight) : Titles (fun s => s.smi.port.inFlight = some f) where
  enqueue a _ h := (State.enqueue_waitsBehind a h).1
  setDu _ _ _ h := h

/-- Only the offer being made and the interface's port differ. -/
def State.onlyOffers (s u : State) : Prop :=
  u = { s with wlk := u.wlk, smi := u.smi } ∧ s.wlk.sameWalk u.wlk ∧ s.smi.sameScan u.smi ∧
    u.smi.port.weight = s.smi.port.weight

theorem Walker.sameWalk_refl (w : Walker) : w.sameWalk w := rfl

theorem Walker.sameWalk_trans {w v u : Walker} (h : w.sameWalk v) (g : v.sameWalk u) : w.sameWalk u := by
  unfold Walker.sameWalk at *
  rw [g, h]

theorem Offers.only (s : State) : Offers s.onlyOffers where
  enqueue a u h := by
    refine ⟨?_, h.2.1, Interface.sameScan_trans h.2.2.1 (State.enqueue_sameScan a u),
      (State.enqueue_weight a u).trans h.2.2.2⟩
    have h1 := h.1
    rw [h1]
    rfl
  setOffer w u hw h := by
    refine ⟨?_, Walker.sameWalk_trans h.2.1 hw, h.2.2.1, h.2.2.2⟩
    have h1 := h.1
    rw [h1]
    rfl

theorem State.reviewOffers_only (s : State) : s.onlyOffers s.reviewOffers :=
  (Offers.only s).reviewOffers s ⟨rfl, rfl, Interface.sameScan_refl _, rfl⟩

theorem Offers.inFlight (f : InFlight) : Offers (fun s => s.smi.port.inFlight = some f) where
  enqueue a _ h := (State.enqueue_waitsBehind a h).1
  setOffer _ _ _ h := h

/-- The Descriptor Unit, the desk, the screens and the links are unchanged, FREEZE stays, and so does an empty
armed list. -/
def State.onlyWalk (s u : State) : Prop :=
  u.du = s.du ∧ u.desk = s.desk ∧ u.arb = s.arb ∧ u.links = s.links ∧ u.clock = s.clock ∧ u.sent = s.sent ∧
    u.pending = s.pending ∧ u.sch.freeze = s.sch.freeze ∧ (s.sch.armed = [] → u.sch.armed = [])

theorem State.onlyWalk_refl (s : State) : s.onlyWalk s := ⟨rfl, rfl, rfl, rfl, rfl, rfl, rfl, rfl, id⟩

theorem State.onlyWalk_trans {s u v : State} (h : s.onlyWalk u) (g : u.onlyWalk v) : s.onlyWalk v := by
  obtain ⟨a1, a2, a3, a4, a5, a6, a7, a8, a9⟩ := h
  obtain ⟨b1, b2, b3, b4, b5, b6, b7, b8, b9⟩ := g
  exact ⟨b1.trans a1, b2.trans a2, b3.trans a3, b4.trans a4, b5.trans a5, b6.trans a6, b7.trans a7, b8.trans a8,
    fun e => b9 (a9 e)⟩

theorem State.onlyWalk_bus {s u v : State} (h : s.onlyWalk u) (g : u.onlyBus v) : s.onlyWalk v := by
  rw [g]
  exact h

/-- Whatever is built from the updates of `Walks` leaves titles, the desk, the screens and the links alone. -/
theorem Walks.only (s : State) : Walks s.onlyWalk where
  journalAt t b u h := State.onlyWalk_bus h (State.journalAt_onlyBus t b u.onlyBus_refl)
  smi _ _ _ h := h
  setCause _ _ h := h
  enqueue _ _ h := h
  setCtl _ _ h := h
  setTracker _ _ h := h
  setWalker _ _ _ h := h
  setSch _ _ hf ha h := ⟨h.1, h.2.1, h.2.2.1, h.2.2.2.1, h.2.2.2.2.1, h.2.2.2.2.2.1, h.2.2.2.2.2.2.1,
    hf.trans h.2.2.2.2.2.2.2.1, fun e => ha (h.2.2.2.2.2.2.2.2 e)⟩
  setPort _ _ _ h := h

/-- Nothing may fire after an update of `Walks` when nothing might before it. -/
theorem State.onlyWalk_nothingFires {s u : State} (h : s.onlyWalk u) (hn : s.nothingFires) : u.nothingFires := by
  rcases hn with hf | ha
  · exact .inl (h.2.2.2.2.2.2.2.1.trans hf)
  · exact .inr (h.2.2.2.2.2.2.2.2 ha)

/-- With nothing that may fire, firing does nothing (R87). -/
theorem State.fireAll_none {s : State} (h : s.mayFire = true → s.firstFirable s.sch.armed = none) : s.fireAll = s := by
  unfold State.fireAll State.fireLoop
  split
  · next hm => rw [h hm]
  · rfl

/-- Firing does nothing with FREEZE asserted or nothing armed (R87). -/
theorem State.fireAll_nothing {s : State} (h : s.nothingFires) : s.fireAll = s := by
  refine State.fireAll_none fun hm => ?_
  rcases h with h | h
  · simp [State.mayFire, h] at hm
  · rw [h]
    rfl

/-- Firing does nothing outside RUNNING (R87). -/
theorem State.fireAll_idle {s : State} (h : s.ctl.engine ≠ .running) : s.fireAll = s := by
  refine State.fireAll_none fun hm => ?_
  simp [State.mayFire, h] at hm

end Sys2Proof.Machine
end

