-- ==== Sys2Proof/Laws/Position.lean ====
section
/-! SUPPORT. What emptying the armed list, placing the walker and placing the tracker change, each said once. -/

namespace Sys2Proof.Machine

/-- While an access is in flight, whatever walks or tracks leaves one in flight. -/
theorem Walks.busy : Walks (fun s => s.smi.port.inFlight.isSome = true) where
  journalAt t b s h := by
    obtain ⟨f, hf⟩ := Option.isSome_iff_exists.1 h
    rw [(Bus.inFlight f).journalAt t b s hf]
    rfl
  smi m s hm h := by
    rw [hm.2.2.2.1]
    exact h
  setCause _ _ h := h
  enqueue a s h := by
    obtain ⟨f, hf⟩ := Option.isSome_iff_exists.1 h
    rw [(State.enqueue_waitsBehind a hf).1]
    rfl
  setCtl _ _ h := h
  setTracker _ _ h := h
  setWalker _ _ _ h := h
  setSch _ _ _ _ h := h
  setPort p s hp h := by
    rw [Option.isSome_iff_ne_none] at *
    exact fun e => h (hp.1.1 e)

/-- The armed list is emptied: only the scheduler's list and fire record, the Descriptor Unit and the port differ
(R95). -/
theorem State.emptyArmed_frame (s : State) :
    s.emptyArmed = { s with
      sch := { s.sch with armed := [], fireRecord := none }
      du := s.emptyArmed.du, smi := s.emptyArmed.smi } ∧ s.smi.sameScan s.emptyArmed.smi := by
  have h : State.onlyTitles { s with sch := { s.sch with armed := [], fireRecord := none } } s.emptyArmed := by
    unfold State.emptyArmed
    exact foldl_keeps (P := State.onlyTitles { s with sch := { s.sch with armed := [], fireRecord := none } })
      (fun _ _ hs => (Titles.only _).releaseKeys _ _ hs) _ _ (State.onlyTitles_refl _)
  exact h

theorem State.emptyArmed_busy {s : State} {f : InFlight} (h : s.smi.port.inFlight = some f) :
    s.emptyArmed.smi.port.inFlight = some f := by
  unfold State.emptyArmed
  exact foldl_keeps (P := fun s : State => s.smi.port.inFlight = some f)
    (fun _ _ hs => (Titles.inFlight f).releaseKeys _ _ hs) _ _ h

/-- The walker as ARM and LOCATE place it (R71). -/
def Walker.placed (w : Walker) (k n : Nat) (x : Section) : Walker :=
  { w with
    inForce := .sec k, pass := 1, walked := none, exitFlag := false, waiting := none, lastHanded := none
    origin := match x.mode with | .beat => -(beatsIn ((w.barsOf x).take (n - 1)) : Int) | .called => 0
    position := some { sec := k, pass := 1, bar := match x.mode with | .beat => n | .called => 1, beat := 1 }
    cursor := some (cursorAt k x 1
      (some (match x.mode with | .beat => -(beatsIn ((w.barsOf x).take (n - 1)) : Int) | .called => 0)))
    owedGo := none, fireCursor := match x.mode with | .beat => none | .called => some x.firstCue
    calledOffers := 0, history := [], unhanded := [], heldBack := false }

theorem State.positionWalker_frame (k n : Nat) (x : Section) (c : EnterCause) (s : State) :
    s.positionWalker k n x c = { s with wlk := s.wlk.placed k n x, smi := (s.positionWalker k n x c).smi } ∧
      s.smi.sameScan (s.positionWalker k n x c).smi := by
  have h : State.onlyBus { s with wlk := s.wlk.placed k n x } (s.positionWalker k n x c) := by
    unfold State.positionWalker State.journalEntered
    exact State.journalAt_onlyBus _ _ (State.onlyBus_smi (State.onlyBus_refl { s with wlk := s.wlk.placed k n x }) _)
  refine ⟨h, ?_⟩
  unfold State.positionWalker State.journalEntered
  exact Interface.sameScan_trans (m := s.smi) ⟨rfl, rfl, rfl, rfl, rfl, rfl, rfl, rfl, rfl, rfl⟩
    (State.journal_sameScan _ _)

/-- A change of tracker state reaches the journal and the scheduler's view and timing states alone (R51, R52,
R82). -/
theorem State.trackerChanged_frame (o : TrackerState) (c : TrackCause) (s : State) :
    (s.trackerChanged o c = s ∨ s.trackerChanged o c = { s with
      sch := { s.sch with
        view := { s.sch.view with state := s.trk.state }, armed := s.sch.armed.map gatePosition }
      smi := (s.trackerChanged o c).smi }) ∧ s.smi.sameScan (s.trackerChanged o c).smi := by
  unfold State.trackerChanged
  split
  · exact ⟨.inl rfl, Interface.sameScan_refl _⟩
  · refine ⟨.inr ?_, ?_⟩
    · have h : State.onlyBus s (s.journalTracker o c) := State.journalAt_onlyBus _ _ s.onlyBus_refl
      unfold State.handState State.setArmed State.setView
      rw [h]
    · exact State.journal_sameScan _ _

theorem State.trackerChanged_trk (o : TrackerState) (c : TrackCause) (s : State) :
    (s.trackerChanged o c).trk = s.trk ∧ (s.trackerChanged o c).wlk = s.wlk ∧ (s.trackerChanged o c).ctl = s.ctl := by
  rcases (State.trackerChanged_frame o c s).1 with h | h <;> rw [h] <;> exact ⟨rfl, rfl, rfl⟩

/-- The scheduler after a change of tracker state: the list may be gated, the rest but the view stands. -/
theorem State.trackerChanged_sch (o : TrackerState) (c : TrackCause) (s : State) :
    (s.trackerChanged o c).sch.fireRecord = s.sch.fireRecord ∧
      (s.trackerChanged o c).sch.lateTolerance = s.sch.lateTolerance ∧
      (s.trackerChanged o c).sch.freeze = s.sch.freeze ∧
      ((s.trackerChanged o c).sch.armed = s.sch.armed ∨
        (s.trackerChanged o c).sch.armed = s.sch.armed.map gatePosition) := by
  rcases (State.trackerChanged_frame o c s).1 with h | h <;> rw [h]
  · exact ⟨rfl, rfl, rfl, .inl rfl⟩
  · exact ⟨rfl, rfl, rfl, .inr rfl⟩

end Sys2Proof.Machine
end

