-- ==== Sys2Proof/Laws/Reset.lean ====
section
/-! SUPPORT. What the resets do to the links and to FREEZE: every link with carrier starts probing and is
journalled, and the level of FREEZE is sampled. -/

namespace Sys2Proof.Machine

theorem mem_allScreens (i : Screen16) : i ∈ allScreens := by
  revert i
  decide

theorem State.enterProbing_link_self (c) (s : State) (i : Screen16) :
    (s.enterProbing i c).link i = (s.link i).probe s.clock := by
  unfold State.enterProbing State.journalLink
  simp [State.link]

theorem State.enterProbing_link_ne (c) (s : State) {i j : Screen16} (h : i ≠ j) :
    (s.enterProbing i c).link j = s.link j := by
  have h' : i.val ≠ j.val := fun e => h (Fin.ext e)
  unfold State.enterProbing State.journalLink
  simp [State.link, h']

theorem State.enterProbing_clock (c) (s : State) (i : Screen16) : (s.enterProbing i c).clock = s.clock := by
  simp [State.enterProbing, State.journalLink]

/-- The links after probing a list of screens without repeats, one after the other. -/
theorem State.probeEach_link (c) (l : List Screen16) (hl : l.Nodup) (s : State) (i) :
    ((l.foldl (fun s i => if (s.link i).carrier then s.enterProbing i c else s) s).link i =
      if i ∈ l ∧ (s.link i).carrier then (s.link i).probe s.clock else s.link i) ∧
    (l.foldl (fun s i => if (s.link i).carrier then s.enterProbing i c else s) s).clock = s.clock := by
  induction l generalizing s with
  | nil => simp
  | cons x xs ih =>
    simp only [List.foldl_cons]
    have hx : x ∉ xs := (List.nodup_cons.1 hl).1
    have h := ih (List.nodup_cons.1 hl).2 (if (s.link x).carrier then s.enterProbing x c else s)
    have hclk : (if (s.link x).carrier then s.enterProbing x c else s).clock = s.clock := by
      split
      · exact State.enterProbing_clock _ _ _
      · rfl
    rw [h.1, h.2, hclk]
    refine ⟨?_, rfl⟩
    by_cases hix : x = i
    · subst hix
      simp only [hx, false_and, if_false, List.mem_cons, true_or, true_and]
      split
      · rw [State.enterProbing_link_self]
      · rfl
    · have hne : (if (s.link x).carrier then s.enterProbing x c else s).link i = s.link i := by
        split
        · exact State.enterProbing_link_ne _ _ hix
        · rfl
      rw [hne]
      have hix' : ¬ (i = x) := fun h => hix h.symm
      simp [hix']

/-- At a reset each link with carrier enters PROBING, and every other link stays as it is (R142, R153). -/
theorem State.probeAll_link (c) (s : State) (i) :
    (s.probeAll c).link i = if (s.link i).carrier then (s.link i).probe s.clock else s.link i := by
  have h := (State.probeEach_link c allScreens (by decide) s i).1
  simpa [State.probeAll, mem_allScreens i] using h

/-- Probing changes the links, the frames sent and the interface alone. -/
theorem State.enterProbing_frame (c) (s : State) (i : Screen16) :
    (s.enterProbing i c) = { s with
      links := (s.enterProbing i c).links, sent := s.sent ++ [(i, helloFrame ((s.link i).tag + 1))]
      smi := (s.enterProbing i c).smi } := by
  have h : ∀ (u : State) b, u.journal b = { u with smi := (u.journal b).smi } := fun u b =>
    State.journalAt_onlyBus _ _ u.onlyBus_refl
  unfold State.enterProbing State.journalLink
  dsimp only
  rw [h]
  rfl

theorem State.probeEach_frame (c) (l : List Screen16) (hl : l.Nodup) (s : State) :
    (l.foldl (fun s i => if (s.link i).carrier then s.enterProbing i c else s) s) = { s with
      links := (l.foldl (fun s i => if (s.link i).carrier then s.enterProbing i c else s) s).links
      sent := s.sent ++ (l.filter fun i => (s.link i).carrier).map fun i => (i, helloFrame ((s.link i).tag + 1))
      smi := (l.foldl (fun s i => if (s.link i).carrier then s.enterProbing i c else s) s).smi } := by
  induction l generalizing s with
  | nil => simp
  | cons x xs ih =>
    simp only [List.foldl_cons]
    have hx : x ∉ xs := (List.nodup_cons.1 hl).1
    have h := ih (List.nodup_cons.1 hl).2 (if (s.link x).carrier then s.enterProbing x c else s)
    have hk : ∀ i ∈ xs, (if (s.link x).carrier then s.enterProbing x c else s).link i = s.link i := by
      intro i hi
      have hne : x ≠ i := fun e => hx (e ▸ hi)
      split
      · exact State.enterProbing_link_ne _ _ hne
      · rfl
    have hf : (xs.filter fun i => ((if (s.link x).carrier then s.enterProbing x c else s).link i).carrier) =
        xs.filter fun i => (s.link i).carrier := List.filter_congr fun i hi => by rw [hk i hi]
    have hm : ((xs.filter fun i => (s.link i).carrier).map fun i =>
          (i, helloFrame (((if (s.link x).carrier then s.enterProbing x c else s).link i).tag + 1))) =
        (xs.filter fun i => (s.link i).carrier).map fun i => (i, helloFrame ((s.link i).tag + 1)) :=
      List.map_congr_left fun i hi => by rw [hk i (List.mem_filter.1 hi).1]
    rw [hf, hm] at h
    rw [h]
    by_cases hc : (s.link x).carrier = true
    · simp only [hc, if_true, List.filter_cons, List.map_cons]
      rw [State.enterProbing_frame c s x]
      simp
    · simp [hc]

/-- At a reset HELLO leaves on each link with carrier, and nothing but the links and the interface changes (R142,
R153). -/
theorem State.probeAll_frame (c) (s : State) : s.probeAll c = { s with
    links := (s.probeAll c).links
    sent := s.sent ++ (allScreens.filter fun i => (s.link i).carrier).map fun i =>
      (i, helloFrame ((s.link i).tag + 1))
    smi := (s.probeAll c).smi } :=
  State.probeEach_frame c allScreens (by decide) s

theorem State.probeAll_sameScan (c) (s : State) : s.smi.sameScan (s.probeAll c).smi := by
  unfold State.probeAll
  generalize allScreens = l
  induction l generalizing s with
  | nil => exact Interface.sameScan_refl _
  | cons x xs ih =>
    refine Interface.sameScan_trans ?_ (ih _)
    dsimp only
    split
    · exact State.journal_sameScan _ _
    · exact Interface.sameScan_refl _

/-- A level of FREEZE that is active is accepted at the reset: nothing fires by it (R157, log entry 6). -/
theorem State.sampleFreeze_eq (s : State) : s.sampleFreeze = if (s.line .freeze).level then { s with
    desk := { lines := s.desk.lines.set (lineIndex .freeze) ((s.line .freeze).accept s.clock), freezeLevel := true
              freezeWindow := some (s.clock + 8000) }
    sch := { s.sch with freeze := true } } else s := by
  unfold State.sampleFreeze
  split
  · next h =>
    unfold State.acceptFreeze State.handFreeze
    simp [h]
    rfl
  · rfl

/-- Handing an active FREEZE changes the scheduler alone. -/
theorem State.sampleFreeze_links (s : State) : s.sampleFreeze.links = s.links := by
  unfold State.sampleFreeze
  split
  · next h =>
    unfold State.acceptFreeze State.handFreeze
    simp [h]
  · rfl

theorem State.sampleFreeze_link (s : State) (i) : s.sampleFreeze.link i = s.link i := by
  unfold State.link
  rw [State.sampleFreeze_links]

/-- Sampling FREEZE on a Desk Port at its reset values leaves the port as a reset that samples these levels does (R155,
R157). -/
theorem State.sampleFreeze_deskSampled (s : State) (level : Line → Bool) (hl : ∀ l, s.line l = LinePort.reset (level l))
    (h1 : s.desk.freezeLevel = false) (h2 : s.desk.freezeWindow = none) :
    s.sampleFreeze.deskSampled s.clock level := by
  have hf := hl .freeze
  rw [State.sampleFreeze_eq]
  unfold State.deskSampled
  by_cases hc : level .freeze = true
  · rw [hf]
    simp only [LinePort.reset, hc, if_true, and_true]
    intro l
    by_cases hlf : l = .freeze
    · subst hlf
      simp [State.line, LinePort.accept, bump, Config.counterMax]
    · have : lineIndex .freeze ≠ lineIndex l := by revert hlf; cases l <;> decide
      have h3 := hl l
      simp only [State.line, LinePort.reset] at h3
      simp [State.line, hlf, Fin.val_ne_of_ne this]
      exact h3
  · rw [hf]
    simp [hl, LinePort.reset, hc, h1, h2]

/-! ### The journal of a reset -/

/-- The LINK STATE record of link `i` put into PROBING. -/
def State.probeRecord (s : State) (c : LinkCause) (i : Screen16) : Journal :=
  .linkState i (s.link i).state.code 2 c.code 0 0 0 0 0

/-- Links probed one after the other while a journal write is outstanding add their records to the queue, and the port
stands (R153, R190). -/
theorem State.probeEach_smi_behind (c) (l : List Screen16) (hl : l.Nodup) (s : State)
    (hp : s.smi.journalPhase ≠ .idle) (hq : s.smi.journalQueue.length + l.length ≤ 16)
    (hc : s.smi.journalCount + l.length < 4294967296) :
    (l.foldl (fun s i => if (s.link i).carrier then s.enterProbing i c else s) s).smi = { s.smi with
      journalCount := s.smi.journalCount + (l.filter fun i => (s.link i).carrier).length
      journalQueue := s.smi.journalQueue ++ ((l.filter fun i => (s.link i).carrier).zipIdx s.smi.journalCount).map
        fun p => ⟨p.2, s.clock, s.probeRecord c p.1⟩ } := by
  induction l generalizing s with
  | nil => simp
  | cons x xs ih =>
    simp only [List.foldl_cons, List.length_cons] at *
    obtain ⟨hx, hxs⟩ := List.nodup_cons.1 hl
    by_cases hcar : (s.link x).carrier = true
    · have he : (s.enterProbing x c).smi = { s.smi with
          journalCount := s.smi.journalCount + 1
          journalQueue := s.smi.journalQueue ++ [⟨s.smi.journalCount, s.clock, s.probeRecord c x⟩] } := by
        unfold State.enterProbing State.journalLink
        dsimp only
        rw [State.journal_behind _ (by simpa using hp) (by simp; omega)]
        have : (s.smi.journalCount + 1) % 4294967296 = s.smi.journalCount + 1 := by omega
        simp [this, State.probeRecord, LinkState.code]
      have hk : ∀ i ∈ xs, (s.enterProbing x c).link i = s.link i := fun i hi =>
        State.enterProbing_link_ne _ _ fun e => hx (e ▸ hi)
      have hf : (xs.filter fun i => ((s.enterProbing x c).link i).carrier) = xs.filter fun i => (s.link i).carrier :=
        List.filter_congr fun i hi => by rw [hk i hi]
      have hm : ∀ n, ((xs.filter fun i => (s.link i).carrier).zipIdx n).map
            (fun p => (⟨p.2, s.clock, (s.enterProbing x c).probeRecord c p.1⟩ : JournalRecord)) =
          ((xs.filter fun i => (s.link i).carrier).zipIdx n).map fun p => ⟨p.2, s.clock, s.probeRecord c p.1⟩ :=
        fun n => List.map_congr_left fun p hi => by
          unfold State.probeRecord
          rw [hk _ (List.mem_filter.1 (List.fst_mem_of_mem_zipIdx hi)).1]
      have h := ih hxs (s.enterProbing x c) (by rw [he]; exact hp) (by rw [he]; simp; omega) (by rw [he]; simp; omega)
      rw [if_pos hcar, h, hf, State.enterProbing_clock, hm, he]
      simp [hcar, Nat.add_assoc, Nat.add_comm 1]
    · rw [if_neg hcar, ih hxs s hp (by omega) (by omega)]
      simp [hcar]

/-- Links probed one after the other from an empty journal: their records stand in it in order, and the first is
written at once (R153, R190, R191). -/
theorem State.probeEach_smi (c) (l : List Screen16) (hl : l.Nodup) (s : State) (hp : s.smi.journalPhase = .idle)
    (hq : s.smi.journalQueue = []) (hc : s.smi.journalCount = 0) (h16 : l.length ≤ 16) :
    let records := (l.filter fun i => (s.link i).carrier).zipIdx.map fun p =>
      (⟨p.2, s.clock, s.probeRecord c p.1⟩ : JournalRecord)
    (l.foldl (fun s i => if (s.link i).carrier then s.enterProbing i c else s) s).smi =
      match records with
      | [] => s.smi
      | r :: _ => { s.smi with
          journalCount := records.length, journalQueue := records, journalPhase := .record
          port := (s.smi.port.push (.writing .journalRecord (s.journalAddress 0) r.bytes .urgent)).grant s.clock } := by
  induction l generalizing s with
  | nil => simp
  | cons x xs ih =>
    simp only [List.foldl_cons, List.length_cons] at *
    obtain ⟨hx, hxs⟩ := List.nodup_cons.1 hl
    by_cases hcar : (s.link x).carrier = true
    · have he : (s.enterProbing x c).smi = { s.smi with
          journalCount := 1
          journalQueue := [⟨0, s.clock, s.probeRecord c x⟩]
          journalPhase := .record
          port := (s.smi.port.push (.writing .journalRecord (s.journalAddress 0)
            (JournalRecord.bytes ⟨0, s.clock, s.probeRecord c x⟩) .urgent)).grant s.clock } := by
        unfold State.enterProbing State.journalLink
        dsimp only
        rw [State.journal_first _ (by simpa using hp) (by simpa using hq)]
        simp [hc, State.probeRecord, LinkState.code, State.journalAddress]
      have hk : ∀ i ∈ xs, (s.enterProbing x c).link i = s.link i := fun i hi =>
        State.enterProbing_link_ne _ _ fun e => hx (e ▸ hi)
      have hf : (xs.filter fun i => ((s.enterProbing x c).link i).carrier) = xs.filter fun i => (s.link i).carrier :=
        List.filter_congr fun i hi => by rw [hk i hi]
      have hm : ∀ n, ((xs.filter fun i => (s.link i).carrier).zipIdx n).map
            (fun p => (⟨p.2, s.clock, (s.enterProbing x c).probeRecord c p.1⟩ : JournalRecord)) =
          ((xs.filter fun i => (s.link i).carrier).zipIdx n).map fun p => ⟨p.2, s.clock, s.probeRecord c p.1⟩ :=
        fun n => List.map_congr_left fun p hi => by
          unfold State.probeRecord
          rw [hk _ (List.mem_filter.1 (List.fst_mem_of_mem_zipIdx hi)).1]
      have h := State.probeEach_smi_behind c xs hxs (s.enterProbing x c) (by rw [he]; simp)
        (by rw [he]; simp; omega) (by rw [he]; simp; omega)
      rw [if_pos hcar, h, hf, State.enterProbing_clock, hm, he]
      simp [hcar, Nat.add_comm 1]
    · rw [if_neg hcar, ih hxs s hp hq hc (by omega)]
      simp [hcar]

/-- What probing at a reset does to the interface (R153, R190, R191). -/
theorem State.probeAll_smi (c : LinkCause) (s : State) (hp : s.smi.journalPhase = .idle) (hq : s.smi.journalQueue = [])
    (hc : s.smi.journalCount = 0) :
    let records := probeRecords s.clock (fun i => (s.link i).state) (fun i => (s.link i).carrier) c.code
    (s.probeAll c).smi = match records with
      | [] => s.smi
      | r :: _ => { s.smi with
          journalCount := records.length, journalQueue := records, journalPhase := .record
          port := (s.smi.port.push (.writing .journalRecord (s.journalAddress 0) r.bytes .urgent)).grant s.clock } :=
  State.probeEach_smi c allScreens (by decide) s hp hq hc (by decide)

end Sys2Proof.Machine
end

