-- ==== Sys2Proof/Laws/ScreenDirective.lean ====
section
/-! SUPPORT. Directives that act on screens and links alone and complete at once: what their step leaves. -/

namespace Sys2Proof.Machine

/-- A directive that has changed screens and links alone, in a state `v`, and has handed its outcome back. -/
theorem State.outcomeAdded_screens {s v u : State} {slot : Slot} {kind : Nat} {words : List Nat} {t : Time}
    {code : OutcomeCode} {ws : List Nat} (hv : ((s.begin t).taking slot kind words).onlyScreens v)
    (h : v.outcomeAdded u slot code ws) :
    s.handedBack u slot code ws ∧ u.finished slot ∧ s.sameShow u ∧ u.ctl = { s.ctl with progress := none } ∧
      u.arb = v.arb ∧ u.links = v.links ∧ u.sent = v.sent := by
  obtain ⟨⟨a1, a2, a3, a4, a5⟩, b, c, d, e⟩ := hv
  obtain ⟨⟨h1, h1'⟩, h2, h3, h4, h5, h6, h7⟩ := h
  refine ⟨⟨?_, ?_⟩, ⟨by rw [h2], ?_⟩, ⟨?_, ?_, ?_, ?_, ?_⟩, ?_, by rw [h2], by rw [h2], by rw [h2]⟩
  · rw [h1, e.2.2.2.1]
    rfl
  · have hr : v.resultAddress slot = s.resultAddress slot := by
      unfold State.resultAddress State.slotAddress
      rw [e.1]
      rfl
    rw [hr] at h1'
    exact h1'
  · rw [h6, e.2.2.2.2.2.2.2.1]
    rfl
  · rw [h2]; exact a1
  · rw [h2]; exact a2
  · rw [h2]; exact a3
  · rw [h2]; exact a4
  · rw [h2]; exact a5
  · rw [h2]
    dsimp only
    rw [b]
    rfl

/-- A directive carried out whole by `act`, which changes screens and links alone, and completed with OK. -/
theorem State.screenDirective {s : State} {slot : Slot} {kind : Nat} {words : List Nat} (t : Time)
    (h : s.taken slot kind words) (hk : allowedIn kind s.ctl.engine = true) {α : Type}
    {read : List Nat → State → Option α} (act : α → State → State) {a : α} {v : State}
    (hr : read words ((s.begin t).taking slot kind words) = some a)
    (ha : act a ((s.begin t).taking slot kind words) = v.completeOk)
    (hv : ((s.begin t).taking slot kind words).onlyScreens v)
    (hf : ∀ f, s.smi.port.inFlight = some f → v.smi.port.inFlight = some f) :
    let u := (s.begin t).takeDirective kind read act
    s.handedBack u slot .ok [] ∧ u.finished slot ∧ s.sameShow u ∧ u.ctl = { s.ctl with progress := none } ∧
      u.arb = v.arb ∧ u.links = v.links ∧ u.sent = v.sent := by
  obtain ⟨f, hf'⟩ := State.taken_busy h
  have hp : v.ctl.progress = some ⟨slot, kind, words, .none⟩ := by rw [hv.2.1]; rfl
  have hc : ((s.begin t).taking slot kind words).checked kind read act words = v.complete .ok [] := by
    rw [State.checked_act act (by exact hk) hr]
    exact ha
  exact State.outcomeAdded_screens hv (State.takeDirective_completed t h hc hp (hf f hf'))

end Sys2Proof.Machine
end

