-- ==== Sys2Proof/Laws/Small.lean ====
section
/-! SUPPORT. The counters, the registers and the CAUSE flags, each said once in another form. -/

namespace Sys2Proof.Machine

/-- A counter rises by 1 and stops at 4,294,967,295. -/
theorem bump_eq (n : Nat) : bump n = min 4294967295 (n + 1) := by
  unfold bump Config.counterMax
  split <;> omega

/-- The bits of BASE's mask. -/
theorem baseMask_bits : ∀ j : Fin 32, (0x00FFC000#32)[j] = decide (14 ≤ j.val ∧ j.val < 24) := by decide

/-- BASE takes address bits 14 to 23 of a write (R181). -/
theorem baseOf_eq (v : BitVec 32) : baseOf v = (v &&& 0x00FFC000#32).toNat := by
  have h1 : (v &&& 0x00FFC000#32) = ((v.extractLsb' 14 10).zeroExtend 32) <<< 14 := by
    ext i hi
    simp only [BitVec.getElem_and, BitVec.getElem_shiftLeft]
    have h1 := baseMask_bits ⟨i, hi⟩
    simp only [Fin.getElem_fin] at h1
    rw [h1]
    by_cases h : i < 14
    · simp [h]
    · by_cases h' : i < 24
      · have e : 14 + (i - 14) = i := by omega
        have e' : i - 14 < 10 := by omega
        simp [h, h', e, e', BitVec.getLsbD_eq_getElem hi, Nat.not_lt.1 h]
      · have e' : ¬ i - 14 < 10 := by omega
        simp [h, h', e']
  rw [h1]
  unfold baseOf
  simp [BitVec.toNat_shiftLeft, BitVec.extractLsb'_toNat, Nat.shiftRight_eq_div_pow, Nat.shiftLeft_eq]
  omega

/-- The five flag bits of a CAUSE word. -/
theorem Cause.bits_lt (c : Cause) : c.bits < 32 := by
  cases c
  unfold Cause.bits bit
  simp only
  repeat' split
  all_goals decide

/-- Bit by bit, CAUSE reads the flags in its low half and the enables in its high half (R181, R182). -/
theorem causeWord_bits (f e : Cause) (k : Fin 5) :
    (BitVec.ofNat 32 (f.bits + 65536 * e.bits)).getLsbD k.val =
      [f.directive, f.journal, f.screen, f.tracker, f.memory][k] ∧
    (BitVec.ofNat 32 (f.bits + 65536 * e.bits)).getLsbD (16 + k.val) =
      [e.directive, e.journal, e.screen, e.tracker, e.memory][k] := by
  have : ∀ (a b c d g a' b' c' d' g' : Bool) (k : Fin 5),
      (BitVec.ofNat 32 ((Cause.mk a b c d g).bits + 65536 * (Cause.mk a' b' c' d' g').bits)).getLsbD k.val =
        [a, b, c, d, g][k] ∧
      (BitVec.ofNat 32 ((Cause.mk a b c d g).bits + 65536 * (Cause.mk a' b' c' d' g').bits)).getLsbD (16 + k.val) =
        [a', b', c', d', g'][k] := by decide +kernel
  exact this _ _ _ _ _ _ _ _ _ _ k

end Sys2Proof.Machine
end

