-- ==== Sys2Proof/WellFormed.lean ====
section
/-! DEFINITION. Which commands can be given to the part: times are 64-bit readings, register values carry
the bits that make the row, and an answer has the length of the access it answers. An ill-formed command
is no command of the part; nothing is claimed of it (log entry 38). -/

namespace Sys2Proof

/-- A reading of the 64-bit Show Clock (00_scope "Time"). -/
def Instr.timeOk (i : Instr) : Bool := decide (i.time < 18446744073709551616)

/-- The operands of a command lie in what its row and the record formats admit. -/
def Instr.operandsOk : Instr → Bool
  | .reset _ v => v.getLsbD 1
  | .scan _ v => v.getLsbD 0 && !v.getLsbD 1
  | .registerWriteIgnored _ a v =>
      a == 0 || decide (3 < a.toNat) || (a == 2 && !v.getLsbD 0 && !v.getLsbD 1)
  | .scanStateRead _ d => d.length == 4
  | .scanSlotRead _ d => d.length == 32
  | .sweepStateRead _ d => d.length == 4
  | .loadReadComplete _ d => decide (1 ≤ d.length) && decide (d.length ≤ 32)
  | .offerReadComplete _ d => d.length == 32
  | .amendReadComplete _ d => d.length == 32
  | .fetchAccessComplete _ d => d.length == 32
  | .lineFallingEdge _ l => l != .freeze
  | .fireTimer _ c p => decide (c < 4096) && decide (1 ≤ p) && decide (p ≤ Config.passMax)
  | .helloReply _ _ _ _ f c => decide (f < 65536) && decide (c < 256)
  | _ => true

/-- A well-formed command. -/
def Instr.wellFormed (i : Instr) : Bool := i.timeOk && i.operandsOk

end Sys2Proof
end

