-- ==== Sys2Proof/Tests/Slice0.lean ====
section
/-! SUPPORT. Small tests: ill-formed commands refused; figures the spec works out or its rules give; and for each
statement of Certificates/Slice0/Obligations.lean that has hypotheses, a concrete state and operands that meet them
(`witness_<its name>`), at the edge of each range. -/

open Sys2Proof Sys2Proof.Machine

namespace Sys2Proof.Tests

/-! ### Ill-formed commands -/

theorem test_time_beyond_64_bits_refused : (Instr.beat 18446744073709551616).wellFormed = false := by decide

theorem test_last_time_accepted : (Instr.beat 18446744073709551615).wellFormed = true := by decide

theorem test_reset_without_its_bit_refused : (Instr.reset 5 1).wellFormed = false := by decide

theorem test_scan_with_reset_bit_refused : (Instr.scan 5 3).wellFormed = false := by decide

theorem test_ignored_write_to_base_refused : (Instr.registerWriteIgnored 5 1 0).wellFormed = false := by decide

theorem test_state_read_of_three_bytes_refused : (Instr.scanStateRead 5 [1, 0, 0]).wellFormed = false := by decide

theorem test_slot_read_of_four_bytes_refused : (Instr.scanSlotRead 5 [1, 0, 0, 0]).wellFormed = false := by decide

theorem test_sweep_read_of_five_bytes_refused : (Instr.sweepStateRead 5 [1, 0, 0, 0, 0]).wellFormed = false := by
  decide

theorem test_empty_script_read_refused : (Instr.loadReadComplete 5 []).wellFormed = false := by decide

theorem test_long_script_read_refused : (Instr.loadReadComplete 5 (List.replicate 33 0)).wellFormed = false := by decide

theorem test_short_cue_read_refused : (Instr.offerReadComplete 5 (List.replicate 31 0)).wellFormed = false := by decide

theorem test_short_amend_read_refused : (Instr.amendReadComplete 5 (List.replicate 31 0)).wellFormed = false := by decide

theorem test_short_fetch_refused : (Instr.fetchAccessComplete 5 (List.replicate 16 0)).wellFormed = false := by decide

theorem test_falling_edge_of_freeze_refused : (Instr.lineFallingEdge 5 .freeze).wellFormed = false := by decide

theorem test_fire_timer_of_pass_zero_refused : (Instr.fireTimer 5 1 0).wellFormed = false := by decide

theorem test_reply_of_wide_capacity_refused : (Instr.helloReply 5 0 1 0 0 256).wellFormed = false := by decide

/-! ### Figures of the spec -/

/-- Chapter 12: at dwell percent 80, 40 characters dwell 1,920,000 µs. -/
theorem test_dwell_of_the_aria : minimumDwell 600000 45000 80 none [40] = 1920000 := by decide

/-- Chapter 12: at 100 percent they dwell 2,400,000 µs. -/
theorem test_dwell_of_the_recitative : minimumDwell 600000 45000 100 none [40] = 2400000 := by decide

/-- R125: the dwell is capped at 8,000,000 µs. -/
theorem test_dwell_capped : minimumDwell 3000000 200000 100 none [255] = 8000000 := by decide

/-- Chapter 12: four intervals equal to the estimate are STEADY, three are LOOSE. -/
theorem test_four_equal_intervals_are_steady :
    confidenceOf [600000, 600000, 600000, 600000] 600000 = .steady ∧
      confidenceOf [600000, 600000, 600000] 600000 = .loose := by decide

/-- R34: with J at the bounds E/16 and E/8 the confidence is the better one, and above E/8 it is ERRATIC. -/
theorem test_confidence_at_its_bounds :
    confidenceOf [750000, 850000, 750000, 850000] 800000 = .steady ∧
      confidenceOf [700000, 900000, 700000, 900000] 800000 = .loose ∧
      confidenceOf [699992, 900008, 699992, 900008] 800000 = .erratic := by decide

/-- R1: halves round up for a non-negative quotient, and away from zero for a signed one. -/
theorem test_halves_round : roundHalfUp 3 2 = 2 ∧ roundHalfAway (-3) 2 = -2 ∧ roundHalfAway (-1) 4 = 0 := by decide

/-- R194: fields are little-endian, and signed ones in two's complement. -/
theorem test_little_endian : le 4 0x0A0B0C0D = [0x0D, 0x0C, 0x0B, 0x0A] ∧ leInt 4 (-2) = [0xFE, 0xFF, 0xFF, 0xFF] ∧
    u32 [0x0D, 0x0C, 0x0B, 0x0A] 0 = 0x0A0B0C0D := by decide

/-- The HELLO of tag 1: start 126, length 2, kind 1, tag 1, and the check that makes the sum 256. -/
theorem test_hello_frame : helloFrame 1 = [126, 2, 1, 1, 252] := by decide

/-- R144, R145: CROSS without OVERLAP resolves to FADE, a CLEAR never crosses, CUT overrides. -/
theorem test_transitions_resolve :
    resolveShow .default .cross (some ⟨true, false, 120, 2⟩) = .fade ∧
      resolveShow .default .cross (some ⟨true, true, 120, 2⟩) = .cross ∧
      resolveClear .default .cross (some ⟨true, true, 120, 2⟩) = .fade ∧
      resolveShow .cut .cross (some ⟨true, true, 120, 2⟩) = .cut := by decide

/-- Chapter 12: a CUT's reply timer runs 250,000 µs; a FADE of F = 120 ms runs 240,000 µs more. -/
theorem test_transition_times : transitionTime .cut (some ⟨true, true, 200, 4⟩) = 0 ∧
    transitionTime .fade (some ⟨true, false, 120, 2⟩) = 240000 := by decide

/-- The house of chapter 12: screen 0 CUT at 35,000, screen 5 FADE at 20,000 with F = 120 ms. -/
def proscenium : Screen :=
  { Screen.reset with layout := #v[some 0, none, none, none], latency := 35000, preferred := .cut }

/-- Screen 5 of the house of chapter 12. -/
def balcony : Screen :=
  { Screen.reset with layout := #v[some 0, none, none, none], latency := 20000, preferred := .fade }

/-- The state of that house, its links READY. -/
def theHouse : State :=
  let s := (State.reset.setScreen 0 proscenium).setScreen 5 balcony
  (s.setLink 0 { Link.reset with state := .ready, caps := some ⟨true, true, 200, 4⟩ }).setLink 5
    { Link.reset with state := .ready, caps := some ⟨true, false, 120, 2⟩ }

/-- Cue 42 of chapter 12: language 0, level 4, screens 0 and 5, DEFAULT. -/
def cue42 : Cue :=
  { number := 42, action := .title, anchor := .position 1 1 0, level := 4, passRule := .everyPass
    override := .default, langs := 1, scope := 33, title := 42, speaker := 0, dwellOverride := 0 }

/-- Chapter 12: the leads are 35,000 and 140,000, and the cue's lead the larger. -/
theorem test_leads_of_the_house : theHouse.leadOf cue42 0 = 35000 ∧ theHouse.leadOf cue42 5 = 140000 ∧
    theHouse.cueLead cue42 = 140000 := by decide

/-- Chapter 12: at beat 4 the target 8 is predicted at 209,800,000; at beat 9, of E = 500,000, tick 60 of target 9 at
212,550,000. -/
theorem test_predictions_of_the_aria :
    TrackerView.appearance ⟨.tracking, .steady, 4, 0, 207400000, 600000, false⟩ 8 0 = 209800000 ∧
      TrackerView.appearance ⟨.tracking, .loose, 9, 0, 212300000, 500000, false⟩ 9 60 = 212550000 := by decide

/-- Chapter 12: the fermata gates target 9 at beat 8, and LOOSE times it once beat 9 is counted. -/
theorem test_gates_of_the_aria :
    gateOf ⟨.tracking, .steady, 8, 0, 209800000, 600000, true⟩ 209800000 9 60 (some 210560000) = .gated ∧
      gateOf ⟨.tracking, .loose, 9, 0, 212300000, 500000, false⟩ 212300000 9 60 (some 212410000) = .timed := by decide

/-- R99: the groups of title 1 in language 1 among 64. -/
theorem test_groups_of_a_key : primaryGroup ⟨1, 1⟩ 6 = 0 ∧ secondaryGroup ⟨1, 1⟩ 6 = 63 := by decide

/-- R98: only a present descriptor of the key with a handle other than 0 matches. -/
theorem test_descriptor_matches :
    matchDescriptor ⟨258, 3⟩ [1, 3, 2, 1, 40, 0, 0, 0, 9, 0, 0, 0, 0, 0, 0, 0] = some (9, 40) ∧
      matchDescriptor ⟨258, 3⟩ [0, 3, 2, 1, 40, 0, 0, 0, 9, 0, 0, 0, 0, 0, 0, 0] = none ∧
      matchDescriptor ⟨258, 3⟩ [1, 3, 2, 1, 40, 0, 0, 0, 0, 0, 0, 0, 0, 0, 0, 0] = none := by decide

/-- R101: a set whose marks all name the first way offers its ways 0, 1, 2, 3. -/
theorem test_candidates_after_reset : (State.reset.cacheSet 0).candidates = [0, 1, 2, 3] := by decide

/-- R181: reads of the register port after a power-on reset. -/
theorem test_identity_register : State.reset.readRegister 0 = 0x000101A0#32 := by decide

/-- R181: bits 14 to 23 of a BASE write are taken. -/
theorem test_base_bits : baseOf 0xFFFFFFFF#32 = 16760832 ∧ baseOf 0x00003FFF#32 = 0 := by decide

/-- R197: a byte before a start byte is discarded, and a whole frame is a command. -/
theorem test_receiver_waits_for_start :
    (Receiver.reset.byte 5 0 130).1.partialFrame = none ∧ (Receiver.reset.byte 5 0 126).1.partialFrame = some [] := by
  decide

/-- R197: DONE of tag 7 on link 2. -/
theorem test_frame_is_done : frameCommand 5 2 [2, 130, 7, 117] = .done 5 2 7 := by decide

/-- R197: a frame of a kind's wrong length is discarded. -/
theorem test_wrong_length_discarded : frameCommand 5 2 [3, 130, 7, 0, 116] = .frameDiscarded 5 2 := by decide

/-- R197: a byte 1,000 µs after the one before joins its frame; one 1,001 µs after it ends the gap and starts anew. -/
theorem test_late_byte_starts_anew : let r : Receiver := { partialFrame := some [2, 130, 7], lastByte := 5 }
    r.byte 1005 2 117 = ({ partialFrame := none, lastByte := 1005 }, some (.done 1005 2 7)) ∧
      r.byte 1006 2 126 = ({ partialFrame := some [], lastByte := 1006 }, some (.frameGapTimeout 1006 2)) := by decide

/-! ### States for the witnesses -/

/-- The state whose port is being answered for a purpose. -/
def atPort (p : Purpose) (s : State) : State :=
  s.setPort { s.smi.port with inFlight := some ⟨.read p 0 4 .background FaultDetail.none, 0, false⟩ }

theorem atPort_answering (p : Purpose) (s : State) : (atPort p s).answering p := ⟨_, rfl, rfl⟩

/-- The state after a command that is carried out. -/
def after (c : Instr) (s : State) : State := match exec c s with
  | .next u => u
  | _ => s

/-- A sound state with the scan given. -/
def scanning (x : Scan) : State := State.reset.setScan x

/-- The state after a reset with the engine in a state and TAKEN being written to slot 3. -/
def takenIn (e : EngineState) (kind : Nat) (words : List Nat) : State :=
  let s := { State.reset with ctl := { Control.reset with engine := e } }
  atPort (.take 3) (s.setScan (.take 3 kind words))

theorem takenIn_taken (e : EngineState) (k : Nat) (ws : List Nat) : (takenIn e k ws).taken 3 k ws :=
  ⟨rfl, atPort_answering _ _, rfl⟩

/-- A BEAT section of two bars of 4 with cue 0, a vamp of one bar without cues, and a CALLED section with cue 1. -/
def houseSections : List Section :=
  [ { firstBar := 0, barCount := 2, firstCue := 0, cueCount := 1, mode := .beat, vamp := false, nominal := 600000
      dwellPercent := 80, versions := 1 },
    { firstBar := 2, barCount := 1, firstCue := 1, cueCount := 0, mode := .beat, vamp := true, nominal := 600000
      dwellPercent := 80, versions := 1 },
    { firstBar := 3, barCount := 1, firstCue := 1, cueCount := 1, mode := .called, vamp := false, nominal := 0
      dwellPercent := 100, versions := 1 } ]

/-- A script of those sections. -/
def houseScript : Script :=
  { sectionCount := 3, barCount := 4, cueCount := 2, speakerCount := 0, cueTable := 65536
    sections := houseSections, bars := List.replicate 4 { beats := 4, fermata := false, mark := 0 }, speakers := [] }

/-- A walker that holds the script, in one section and pass of its running order. -/
def houseWalker (inForce : InForce) : Walker :=
  { Walker.reset with script := some houseScript, order := some [0, 1, 2], inForce := inForce, pass := 1 }

/-- A state with the script, the engine state and the section in force given. -/
def house (e : EngineState) (f : InForce) (s : State) : State :=
  { s with ctl := { s.ctl with engine := e }, wlk := houseWalker f }

/-- The record of a GO cue: number 9, TITLE, level 4, EVERY-PASS, language 0, screen 0, title 5. -/
def goRecord : List Byte :=
  [9, 0, 0, 2, 4, 1, 0, 1, 1, 0, 5, 0, 0, 0, 0, 0, 0, 0, 0, 0, 0, 0, 0, 0, 0, 0, 0, 0, 0, 0, 0, 0]

/-- The record of a POSITION cue: EVERY-PASS, in bar 2, on beat 4. -/
def positionRecord : List Byte :=
  [8, 0, 0, 0, 4, 1, 0, 1, 1, 0, 5, 0, 2, 0, 4, 0, 0, 0, 0, 0, 0, 0, 0, 0, 0, 0, 0, 0, 0, 0, 0, 0]

/-- The script whose section `k` has `n` cues. -/
def longer (k n : Nat) : Script :=
  { houseScript with
    cueCount := 4, sections := houseSections.modify k fun x => { x with cueCount := n } }

/-- An armed entry of cue 1 in the CALLED section. -/
def armedGo : Armed :=
  { cue := 1, pass := 1, sec := 2, copy := parseCue goRecord, dwellPercent := 100, target := none, appear := none
    fire := none, lead := none, timing := .waiting, keys := [], unpinned := [] }

/-- The state with a list of armed entries. -/
def withArmed (es : List Armed) (s : State) : State := { s with sch := { s.sch with armed := es } }

/-- The state with FREEZE asserted. -/
def frozen (s : State) : State := { s with sch := { s.sch with freeze := true } }

/-- The state with the tracker's state and timer given, and the last beat at 0. -/
def tracking (k : TrackerState) (timeout lockout : Option Time) (s : State) : State :=
  { s with trk := { s.trk with state := k, timeout := timeout, lockout := lockout } }

/-- A VALID entry of title 65535 in language 7, with a pin count. -/
def cached (pins : Nat) : CacheEntry := { key := ⟨65535, 7⟩, state := .valid 5 9, pins := pins }

/-- The state with that entry in way 0 of its set. -/
def caching (e : CacheEntry) (s : State) : State := s.setWay (setOf e.key) 0 { entry := some e, cancelled := false }

/-- A link in a state, with the carrier, capabilities, operation and timers that the state needs. -/
def linkIn (k : LinkState) : Link :=
  { Link.reset with
    state := k, carrier := true, caps := some ⟨true, true, 200, 4⟩, tag := 6
    op := if k = .busy ∨ k = .probing then
      some { kind := .showMsg, tag := 6, transition := .cut, sendTime := 0, subject := none } else none
    replyTimer := if k = .busy then some 250000 else none
    retryTimer := if k = .probing then some 1000000 else none }

/-- The state with link 5 in a state. -/
def linked (k : LinkState) (s : State) : State := s.setLink 5 (linkIn k)

/-- The state with screen `a` the mirror source of screen `b`. -/
def mirrored (a b : Screen16) (s : State) : State := { s with arb := { s.arb with mirror := some (a, b) } }

/-- An entry shown since 0, of serial 3. -/
def shown (ends : Option Time) : Entry :=
  { isNotice := ends.isSome, ident := .cue 1 9, tuples := [], speaker := none, dwellPercent := 100
    dwellOverride := none, override := .default, minDwell := some 100000, visibleSince := some 0, endTime := ends
    serial := 3 }

/-- A request of level 4, released at 35,000. -/
def asked : Request :=
  { level := 4, kind := .title, ident := .cue 1 9, tuples := [], speaker := none, dwellPercent := 100
    dwellOverride := none, override := .default, release := 35000, operator := false, endTime := none
    deferred := false }

/-- The state with an entry and a request at level 4 of screen 5, its timers as given. -/
def onScreen5 (e : Option Entry) (r : Option Request) (release dwell notice : Option Time) (s : State) : State :=
  let x := ((s.screen 5).setEntry 4 e).setPending 4 r
  s.setScreen 5 { x with
    onScreen := if e.isSome then .entry 4 3 else .blank
    releaseTimer := release, dwellTimer := dwell, noticeTimer := notice }

/-- Requests that are released later, or whose levels are masked, are not released. -/
theorem nothing_released (x : Screen) (now : Time)
    (h : ∀ l : Level, x.pendingAt[l].all fun r => decide (now < r.release ∨ x.masked r.level = true)) :
    x.nothingReleased now := by
  intro l r e
  have h := h l
  rw [e] at h
  exact of_decide_eq_true h

/-! ### Steps, registers and scans -/

theorem witness_StepTakesFront : (State.reset.setPending [.go 5, .back 6]).pending = [.go 5, .back 6] := rfl

/-- The command of QueueAndClock, InterfaceFrame, RegistersKept and HostSettingsKept. -/
theorem witness_a_command_completes :
    exec (.lateAnswer 5 false) State.reset = .next (State.reset.begin 5) ∧ ofInterface (.lateAnswer 5 false) = true ∧
      (∀ l k, Instr.lateAnswer 5 false ≠ .powerOnReset l k) ∧ (∀ t v, Instr.lateAnswer 5 false ≠ .base t v) ∧
      (∀ t v, Instr.lateAnswer 5 false ≠ .cause t v) ∧ (∀ t v, Instr.lateAnswer 5 false ≠ .reset t v) ∧
      (∀ t, Instr.lateAnswer 5 false ≠ .setMask t) ∧ (∀ t, Instr.lateAnswer 5 false ≠ .setScreen t) ∧
      ∀ t, Instr.lateAnswer 5 false ≠ .selectCounters t := by
  refine ⟨rfl, rfl, ?_, ?_, ?_, ?_, ?_, ?_, ?_⟩ <;> intros <;> nofun

theorem witness_LinkFrame : ofLinks (.frameDiscarded 5 15) = true ∧
    ∃ u, exec (.frameDiscarded 5 15) State.reset = .next u := ⟨rfl, _, rfl⟩

/-- A soft reset with an access in flight, and one that forgets the armed list. -/
theorem witness_SoftReset : ∃ f, (atPort .status State.reset).smi.port.inFlight = some f := ⟨_, rfl⟩

theorem witness_SoftResetForgets : (withArmed [armedGo] State.reset).clock = State.reset.clock ∧
    (withArmed [armedGo] State.reset).smi = State.reset.smi ∧
    (withArmed [armedGo] State.reset).ctl = State.reset.ctl ∧ (withArmed [armedGo] State.reset).pending = [] ∧
    (∀ l, ((withArmed [armedGo] State.reset).line l).level = (State.reset.line l).level) ∧
    ∀ i, (withArmed [armedGo] State.reset).link i = State.reset.link i := by
  refine ⟨rfl, rfl, rfl, rfl, fun l => rfl, fun i => rfl⟩

theorem witness_RegisterWrites : State.reset.ctl.engine = .idle ∧ (takenIn .loaded 1 []).ctl.engine ≠ .idle := by
  decide

theorem witness_RegisterReads : 3 < (4#32).toNat := by decide

/-- R182: a flag asserts IRQ through its own enable alone. -/
theorem test_irq_needs_its_own_enable :
    let flag (e : Cause) : State := { State.reset with smi := { State.reset.smi with
      flags := { Cause.none with memory := true }, enables := e } }
    (flag { Cause.none with memory := true }).irq = true ∧ (flag { Cause.none with tracker := true }).irq = false := by
  decide

theorem witness_PlainCommands : Line.blank ≠ .freeze := by decide

/-- The state after a reset with the sweep done. -/
def swept : State := { State.reset with smi := { State.reset.smi with sweepPending := false } }

theorem witness_ScanRequested_starts : swept.smi.scan = .idle ∧ swept.ctl.progress = none ∧ swept.smi.outcomes = [] ∧
    swept.smi.sweepPending = false ∧ swept.smi.scanTimer ≤ max swept.clock 4000 := by decide

theorem witness_ScanRequested_waits : (scanning (.search 0 16)).smi.scan ≠ .idle ∧
    (scanning (.search 0 16)).smi.scanTimer ≤ max 0 4000 := by decide

/-- The outcome of a slot, being written or not. -/
def outcomeOf (slot : Slot) (writing : Bool) : OutcomeRecord :=
  { slot := slot, code := .ok, results := [], writing := writing }

/-- A scan asked for with an outcome write in flight, and with two outcomes unwritten. -/
theorem witness_ScanRequested_outcomes :
    let s := State.reset.setOutcomes [outcomeOf 0 false, outcomeOf 15 true]
    let r := State.reset.setOutcomes [outcomeOf 0 false, outcomeOf 15 false]
    s.smi.scan = .idle ∧ s.ctl.progress = none ∧ (∃ o ∈ s.smi.outcomes, o.writing = true) ∧ r.smi.scan = .idle ∧
      r.ctl.progress = none ∧ r.smi.outcomes = [outcomeOf 0 false, outcomeOf 15 false] ∧
      ∀ q ∈ [outcomeOf 0 false, outcomeOf 15 false], q.writing = false := by decide

/-- The DONE write of the last outcome and of the one before it, while the scan waits on them. -/
theorem witness_ScanRequested_written :
    let s := atPort (.doneWord 0) ((swept.setScan (.outcomes false)).setOutcomes [outcomeOf 0 true])
    let r := s.setOutcomes [outcomeOf 0 true, outcomeOf 15 false]
    s.answering (.doneWord 0) ∧ r.answering (.doneWord 0) ∧ s.smi.scan = .outcomes false ∧ r.smi.scan = .outcomes false ∧
      s.smi.sweepPending = false ∧ s.writingOutcome 0 = some (outcomeOf 0 true) ∧
      r.writingOutcome 0 = some (outcomeOf 0 true) ∧ s.smi.outcomes.erase (outcomeOf 0 true) = [] ∧
      r.smi.outcomes.erase (outcomeOf 0 true) = [outcomeOf 15 false] ∧ ∀ p ∈ [outcomeOf 15 false], p.writing = false :=
  ⟨atPort_answering _ _, ⟨_, rfl, rfl⟩, by decide⟩

/-- A scan that begins after a reset, the sweep pending, and a DONE write after which the sweep is made. -/
theorem witness_ScanRequested_sweeps :
    let s := atPort (.doneWord 0) ((scanning (.outcomes false)).setOutcomes [outcomeOf 0 true])
    State.reset.smi.scan = .idle ∧ State.reset.ctl.progress = none ∧ State.reset.smi.outcomes = [] ∧
      State.reset.smi.sweepPending = true ∧ s.smi.sweepPending = true ∧
      s.writingOutcome 0 = some (outcomeOf 0 true) ∧ s.smi.outcomes.erase (outcomeOf 0 true) = [] := by decide

/-- The state while the record of cue 1 is read for AMEND CUE, with that cue armed. -/
def amending : State :=
  let s := withArmed [armedGo] (house .armed (.sec 2) State.reset)
  atPort .amend { s with ctl := { s.ctl with progress := some ⟨3, 14, [1], .amend 1⟩ } }

/-- The state with the scan request set. -/
def owing (s : State) : State := { s with smi := { s.smi with scanRequest := true } }

/-- A scan is owed as the search ends at its last slot, as a directive of kind 19 is taken, and as an AMEND CUE fails. -/
theorem witness_ScanRequested_owed :
    let s := owing (atPort (.scanState 15) (scanning (.search 15 1)))
    s.answering (.scanState 15) ∧ s.smi.scan = .search 15 1 ∧ slotState [2, 0, 0, 0] ≠ 1 ∧ s.smi.scanRequest = true ∧
      s.ctl.progress = none ∧ (owing (takenIn .idle 19 [])).taken 3 19 [] ∧
      (owing (takenIn .idle 19 [])).smi.scanRequest = true ∧ (owing amending).answering .amend ∧
      (owing amending).ctl.progress = some ⟨3, 14, [1], .amend 1⟩ ∧ (owing amending).wlk.script = some houseScript ∧
      checkCue houseSections houseScript.bars 0 1 (goRecord.set 2 2) = some .range ∧ (owing amending).smi.scan = .idle :=
  ⟨⟨_, rfl, rfl⟩, rfl, by decide, rfl, rfl, ⟨rfl, ⟨_, rfl, rfl⟩, rfl⟩, rfl, ⟨_, rfl, rfl⟩, rfl, rfl, by decide, rfl⟩

/-- The last slot of a search, found POSTED, and not, with no scan owed; and one with a slot to come. -/
theorem witness_SearchReadsSlots : let s := atPort (.scanState 15) (scanning (.search 15 1))
    s.answering (.scanState 15) ∧ s.smi.scan = .search 15 1 ∧ s.smi.scanRequest = false ∧ slotState [1, 0, 0, 0] = 1 ∧
      slotState [0, 0, 0, 0] ≠ 1 := ⟨atPort_answering _ _, rfl, rfl, by decide, by decide⟩

theorem witness_SearchReadsSlots_goes_on : let s := atPort (.scanState 15) (scanning (.search 15 2))
    s.answering (.scanState 15) ∧ s.smi.scan = .search 15 2 ∧ slotState [2, 0, 0, 0] ≠ 1 ∧ 1 < 2 :=
  ⟨atPort_answering _ _, rfl, by decide, by decide⟩

theorem witness_PostedSlotTaken_first : let s := atPort (.scanSlot 0 false) (scanning (.slotRead 0 16 []))
    s.answering (.scanSlot 0 false) ∧ s.smi.scan = .slotRead 0 16 [] ∧ List.replicate 32 (1 : Byte) ≠ [] :=
  ⟨atPort_answering _ _, rfl, by decide⟩

theorem witness_PostedSlotTaken_second : let s := atPort (.scanSlot 0 true) (scanning (.slotRead 0 2 [1]))
    s.answering (.scanSlot 0 true) ∧ s.smi.scan = .slotRead 0 2 [1] ∧ slotState ([1] ++ [0]) = 1 ∧
      s.smi.outcomes = [] := ⟨atPort_answering _ _, rfl, by decide, rfl⟩

theorem witness_PostedSlotTaken_withdrawn : let s := atPort (.scanSlot 0 true) (scanning (.slotRead 0 2 [0]))
    s.answering (.scanSlot 0 true) ∧ s.smi.scan = .slotRead 0 2 [0] ∧ slotState ([0] ++ [0]) ≠ 1 ∧ 1 < 2 :=
  ⟨atPort_answering _ _, rfl, by decide, by decide⟩

/-- A slot still POSTED with an outcome in flight, and the sixteenth slot no longer POSTED; with a scan owed, and not. -/
theorem witness_PostedSlotTaken_ends :
    let s := atPort (.scanSlot 0 true) ((scanning (.slotRead 0 2 [1])).setOutcomes [outcomeOf 0 true])
    let r := atPort (.scanSlot 15 true) (scanning (.slotRead 15 1 [0]))
    s.answering (.scanSlot 0 true) ∧ s.smi.scan = .slotRead 0 2 [1] ∧ slotState ([1] ++ [0]) = 1 ∧
      s.smi.outcomes ≠ [] ∧ s.smi.scanRequest = false ∧ r.answering (.scanSlot 15 true) ∧
      r.smi.scan = .slotRead 15 1 [0] ∧ slotState ([0] ++ [0]) ≠ 1 ∧ (owing s).answering (.scanSlot 0 true) ∧
      (owing r).smi.scanRequest = true ∧ (owing r).ctl.progress = none :=
  ⟨⟨_, rfl, rfl⟩, rfl, by decide, by decide, rfl, ⟨_, rfl, rfl⟩, rfl, by decide, ⟨_, rfl, rfl⟩, rfl, rfl⟩

/-- Slot 15 and slot 14 of the sweep, found TAKEN and not. -/
theorem witness_SweepWritesAbandoned_read :
    (atPort (.sweepState 15) (scanning (.sweepRead 15))).answering (.sweepState 15) ∧
      (atPort (.sweepState 15) (scanning (.sweepRead 15))).smi.scan = .sweepRead 15 ∧
      (atPort (.sweepState 14) (scanning (.sweepRead 14))).answering (.sweepState 14) ∧ slotState [2, 0, 0, 0] = 2 ∧
      slotState [3, 0, 0, 0] ≠ 2 ∧ (14 : Slot) ≠ 15 :=
  ⟨atPort_answering _ _, rfl, atPort_answering _ _, by decide, by decide, by decide⟩

theorem witness_SweepWritesAbandoned_writes :
    (atPort (.sweepResults 15) (scanning (.sweepResults 15))).answering (.sweepResults 15) ∧
      (atPort (.sweepDone 15) (scanning (.sweepDone 15))).answering (.sweepDone 15) :=
  ⟨atPort_answering _ _, atPort_answering _ _⟩

theorem witness_OutcomeWrites : let s := State.reset.setOutcomes [outcomeOf 4 true]
    (atPort (.resultWords 4) s).answering (.resultWords 4) ∧ (atPort (.doneWord 4) s).answering (.doneWord 4) ∧
      (atPort (.doneWord 4) s).writingOutcome 4 = some (outcomeOf 4 true) ∧
      ∀ b, (atPort (.doneWord 4) s).smi.scan ≠ .outcomes b :=
  ⟨atPort_answering _ _, atPort_answering _ _, by decide, by decide⟩

/-! ### Directives -/

/-- An unknown kind at each end, and the first and a late kind in a state that does not allow it. -/
theorem witness_DirectivesRefused : (takenIn .idle 0 []).taken 3 0 [] ∧ (takenIn .idle 19 []).taken 3 19 [] ∧ 18 < 19 ∧
    directiveRow 5 1 = some (.load 5) ∧ (takenIn .armed 1 []).taken 3 1 [] ∧
    allowedIn 1 (takenIn .armed 1 []).ctl.engine = false ∧ directiveRow 5 16 = some (.warm 5) ∧
    (takenIn .idle 16 []).taken 3 16 [] ∧ allowedIn 16 (takenIn .idle 16 []).ctl.engine = false :=
  ⟨takenIn_taken _ _ _, takenIn_taken _ _ _, by decide, rfl, takenIn_taken _ _ _, by decide, rfl, takenIn_taken _ _ _,
    by decide⟩

/-- Parameters just out of range: a latency of 200,001 µs, and a WARM key of language 8. -/
theorem witness_DirectivesRefused_parameters : directiveRow 5 11 = some (.setScreen 5) ∧
    (takenIn .idle 11 [0, 200001]).taken 3 11 [0, 200001] ∧ allowedIn 11 (takenIn .idle 11 [0, 200001]).ctl.engine = true ∧
    ¬(takenIn .idle 11 [0, 200001]).parametersInRange 11 [0, 200001] ∧ directiveRow 5 16 = some (.warm 5) ∧
    (takenIn .loaded 16 [1, 524288]).taken 3 16 [1, 524288] ∧
    allowedIn 16 (takenIn .loaded 16 [1, 524288]).ctl.engine = true ∧
    ¬(takenIn .loaded 16 [1, 524288]).parametersInRange 16 [1, 524288] := by
  refine ⟨rfl, takenIn_taken _ _ _, by decide, ?_, rfl, takenIn_taken _ _ _, by decide, ?_⟩
  · intro h
    exact absurd h.2.1 (by decide)
  · intro h
    exact absurd (h.2.2 0 (by decide)) (by decide)

/-- A header in the last 64 bytes of show memory, and one 4 bytes further on. -/
theorem witness_LoadTaken : (takenIn .idle 1 [16777152]).taken 3 1 [16777152] ∧
    (takenIn .idle 1 [16777152]).ctl.engine = .idle ∧ 16777152 % 4 = 0 ∧ 16777152 + 64 ≤ 16777216 ∧
    (takenIn .ended 1 [16777156]).taken 3 1 [16777156] ∧ (takenIn .ended 1 [16777156]).ctl.engine = .ended ∧
    ¬(16777156 + 64 ≤ 16777216) :=
  ⟨takenIn_taken _ _ _, rfl, by decide, by decide, takenIn_taken _ _ _, rfl, by decide⟩

theorem house_taken (e f : EngineState) (i : InForce) (k : Nat) (ws : List Nat) :
    (house e i (takenIn f k ws)).taken 3 k ws := ⟨rfl, ⟨_, rfl, rfl⟩, rfl⟩

/-- ARM of a BEAT section and of a CALLED one, with the parameters at their bounds. -/
theorem witness_ArmCarriedOut : let ws := [0, 0, 8, 32, 500000, 16]; let vs := [0, 2, 1, 2, 0, 0]
    let s := house .loaded .none (takenIn .loaded 2 ws); let r := house .loaded .none (takenIn .loaded 2 vs)
    s.taken 3 2 ws ∧ r.taken 3 2 vs ∧ s.ctl.engine = .loaded ∧ (readArm ws).isSome ∧ (readArm vs).isSome ∧
      s.wlk.script = some houseScript ∧ (s.wlk.sec (word ws 1)).any (fun x => x.mode = .beat) ∧
      (r.wlk.sec (word vs 1)).any (fun x => x.mode = .called) ∧
      word ws 1 ∈ runningOrder houseScript.sections (word ws 0) ∧
      word vs 1 ∈ runningOrder houseScript.sections (word vs 0) ∧ ∀ k ∈ [word ws 1, word vs 1],
        (s.wlk.sec k).any (fun x => decide (0 < x.cueCount)) :=
  ⟨house_taken _ _ _ _ _, house_taken _ _ _ _ _, rfl, by decide, by decide, rfl, by decide, by decide, by decide,
    by decide, by decide⟩

/-- R71: LOCATE into a CALLED section leaves the offer cursor at its first cue with the pass origin, 0. -/
theorem test_called_section_is_offered_from_origin_0 :
    (house .armed (.sec 0) State.reset).wlk.sec 2 = some houseSections[2] ∧
      ((after (.locate 0) (house .armed (.sec 0) (takenIn .armed 6 [2, 0]))).wlk.cursor.map fun c =>
        (c.sec, c.origin, c.cue)) = some (2, some 0, 1) := by decide +kernel

/-- PAUSE with a title shown on screen 5 and one pending at the same level, the journal queue with room for 4. -/
theorem witness_PauseCarriedOut :
    let s := onScreen5 (some (shown none)) (some asked) none none none (takenIn .running 3 [])
    s.taken 3 3 [] ∧ s.ctl.engine = .running ∧ (s.screen 5).stack[(4 : Level)] = some (shown none) ∧
      (shown none).endTime = none ∧ (s.screen 5).blankPending = false ∧
      (s.screen 5).pendingAt[(4 : Level)] = some asked ∧ asked.kind ≠ .notice ∧ (s.screen 5).pendingTitles = [4] ∧
      (∀ j : Screen16, j ≠ 5 → (s.screen j).pendingTitles = []) ∧ s.smi.journalQueue.length ≤ 12 :=
  ⟨⟨rfl, ⟨_, rfl, rfl⟩, rfl⟩, by decide⟩

/-- RESUME in a BEAT section, and in none. -/
theorem witness_ResumeCarriedOut : let s := house .paused (.sec 0) (takenIn .paused 4 [])
    s.taken 3 4 [] ∧ s.ctl.engine = .paused ∧ s.sch.armed = [] ∧ s.inBeatSection = true ∧
      (takenIn .paused 4 []).inBeatSection = false :=
  ⟨house_taken _ _ _ _ _, rfl, rfl, by decide, by decide⟩

/-- An armed FOLLOW entry that PAUSE has gated, T at 9,000. -/
def gated : Armed := { armedGo with timing := .gated, fire := some 9000, appear := some 44000, lead := some 35000 }

/-- RESUME with that entry alone, under FREEZE at 8,999 and at 9,000, and without FREEZE; and with a DUE one. -/
theorem witness_ResumeCarriedOut_armed : let s := withArmed [gated] (house .paused (.sec 2) (takenIn .paused 4 []))
    let r := withArmed [{ gated with timing := .due }] s
    (frozen s).taken 3 4 [] ∧ s.taken 3 4 [] ∧ r.taken 3 4 [] ∧ s.ctl.engine = .paused ∧
      (frozen s).sch.freeze = true ∧ (∀ e ∈ (frozen s).sch.armed, e.timing ≠ .timed) ∧ s.sch.freeze = false ∧
      s.sch.armed = [gated] ∧ (∀ p ∈ gated.keys, p.2 ≠ .pending) ∧ s.wlk.owedGo = none ∧
      s.wlk.inForce ≠ .endOfShow ∧ gated.timing = .gated ∧ gated.target = none ∧ gated.fire = some 9000 ∧
      9000 ≤ max s.clock 9000 ∧ r.sch.armed.map (·.timing) = [.due] :=
  ⟨⟨rfl, ⟨_, rfl, rfl⟩, rfl⟩, ⟨rfl, ⟨_, rfl, rfl⟩, rfl⟩, ⟨rfl, ⟨_, rfl, rfl⟩, rfl⟩, by decide⟩

/-- STOP while the notice shown on screen 5 runs. LOCATE leaves it in the same way. -/
theorem witness_StopCarriedOut :
    let s := onScreen5 (some (shown (some 4000000))) none none none none (takenIn .paused 5 [])
    s.taken 3 5 [] ∧ s.ctl.engine = .paused ∧ (s.screen 5).stack[(4 : Level)] = some (shown (some 4000000)) ∧
      (shown (some 4000000)).isNotice = true ∧ (shown (some 4000000)).endTime = some 4000000 ∧
      max s.clock 3999999 < 4000000 ∧ (s.screen 5).blankPending = false ∧
      (s.screen 5).pendingAt[(4 : Level)] = none :=
  ⟨⟨rfl, ⟨_, rfl, rfl⟩, rfl⟩, by decide⟩

/-- LOCATE to the last bar of a BEAT section, and to a CALLED section. -/
theorem witness_LocateCarriedOut : let s := house .paused (.sec 0) (takenIn .paused 6 [0, 2])
    let r := house .armed (.sec 0) (takenIn .armed 6 [2, 0])
    s.taken 3 6 [0, 2] ∧ r.taken 3 6 [2, 0] ∧ s.ctl.engine = .paused ∧ r.ctl.engine = .armed ∧
      (s.wlk.sec 0).any (fun x => x.mode = .beat && x.barCount = 2 && x.cueCount = 1) ∧
      (r.wlk.sec 2).any (fun x => x.mode = .called && x.cueCount = 1) ∧ 0 ∈ s.wlk.order.getD [] ∧
      2 ∈ r.wlk.order.getD [] :=
  ⟨house_taken _ _ _ _ _, house_taken _ _ _ _ _, rfl, rfl, by decide, by decide, by decide, by decide⟩

/-- NOTICE with every parameter at its bound, on a screen whose layout names no language. -/
theorem witness_NoticeTaken : let ws := [65535, 3, 600, 32768]; let s := takenIn .loaded 7 ws
    s.taken 3 7 ws ∧ s.ctl.engine ≠ .idle ∧ s.ctl.engine ≠ .loading ∧ (readNotice ws).isSome ∧
      s.noticeKeys 65535 (s.noticeScreens 32768) = [] := ⟨takenIn_taken _ _ _, by decide⟩

/-- The state of a NOTICE of title 1 at level 0 on screen 5, which shows language 0. -/
def noticing : State := (takenIn .loaded 7 [1, 0, 0, 32]).setScreen 5 balcony

/-- Its key is in no way, and one can be taken; and its key was fetched before. -/
theorem witness_NoticeTaken_keys : let k : Key := ⟨1, 0⟩
    let r := caching { key := k, state := .valid 5 9, pins := 0 } noticing
    noticing.taken 3 7 [1, 0, 0, 32] ∧ r.taken 3 7 [1, 0, 0, 32] ∧
      noticing.noticeKeys 1 (noticing.noticeScreens 32) = [k] ∧ noticing.noticeAnswer k = .pending ∧
      noticing.keyWaits k = false ∧ (noticing.cacheSet (setOf k)).find k = none ∧
      (noticing.cacheSet (setOf k)).choose = some 0 ∧ r.noticeKeys 1 (r.noticeScreens 32) = [k] ∧
      r.noticeAnswer k = .present 5 9 := ⟨⟨rfl, ⟨_, rfl, rfl⟩, rfl⟩, ⟨rfl, ⟨_, rfl, rfl⟩, rfl⟩, by decide⟩

theorem witness_ClearCarriedOut : let ws := [32768, 128]
    (takenIn .idle 8 ws).taken 3 8 ws ∧ (takenIn .idle 8 ws).ctl.engine ≠ .loading ∧
      (screenMask (word ws 0)).getLsbD 15 = true ∧ (levelMask (word ws 1)).getLsbD 7 = true :=
  ⟨takenIn_taken _ _ _, by decide, by decide, by decide⟩

theorem witness_SetMaskCarriedOut : let ws := [15, 255]
    (takenIn .idle 9 ws).taken 3 9 ws ∧ (takenIn .idle 9 ws).ctl.engine ≠ .loading ∧ word ws 0 = (15 : Screen16).val :=
  ⟨takenIn_taken _ _ _, by decide, by decide⟩

/-- Screen 5 shows a title at level 6; at level 4, masked or not, stands one not shown, with this request pending. -/
def overMask (mask : BitVec 8) (r : Option Request) (k : LinkState) (s : State) : State :=
  let x := (State.reset.screen 5).setEntry 6 (some (shown none))
  linked k (s.setScreen 5 { (x.setEntry 4 (some { shown none with serial := 4, visibleSince := none })).setPending 4 r with
    mask := mask, onScreen := .entry 6 3 })

/-- CLEAR of screen 5 alone, which is no monitor, the mirror source or the monitor; screens 0 and 6 are not named. -/
theorem witness_ClearCarriedOut_screens (k : LinkState) (n : Nat) : let ws := [32, n]
    let s := overMask 0 (some asked) k (takenIn .idle 8 ws)
    s.taken 3 8 ws ∧ (mirrored 5 6 s).taken 3 8 ws ∧ (mirrored 0 5 s).taken 3 8 ws ∧ s.isMonitor 5 = false ∧
      s.isMonitor 6 = false ∧ (mirrored 5 6 s).isMonitor 5 = false ∧ (mirrored 0 5 s).isMonitor 0 = false ∧
      (s.link 5).state = k ∧ (screenMask (word ws 0)).getLsbD 5 = true ∧ (screenMask (word ws 0)).getLsbD 6 = false ∧
      (screenMask (word ws 0)).getLsbD 0 = false :=
  ⟨⟨rfl, ⟨_, rfl, rfl⟩, rfl⟩, ⟨rfl, ⟨_, rfl, rfl⟩, rfl⟩, ⟨rfl, ⟨_, rfl, rfl⟩, rfl⟩, rfl, rfl, rfl, rfl,
    by cases k <;> rfl, (by decide : (screenMask 32).getLsbD 5 = true ∧ (screenMask 32).getLsbD 6 = false ∧
      (screenMask 32).getLsbD 0 = false)⟩

/-- What CLEAR of level 4, of level 6 and of both leaves there before 35,000: the title shown, one to show, and none. -/
theorem witness_ClearCarriedOut_left :
    let left (n : Nat) := ((overMask 0 (some asked) .ready State.reset).screen 5).without (levelMask n)
    (∀ n ∈ [16, 64, 80], (left n).nothingReleased 34999 ∧ (left n).blankPending = false ∧
      (left n).onScreen = .entry 6 3 ∧
      ∀ l : Level, (left n).stack[l].bind (·.endTime) = none ∧ (left n).pendingAt[l].bind (·.endTime) = none) ∧
    (left 16).visibleTop = some (6, shown none) ∧
    (left 64).visibleTop = some (4, { shown none with serial := 4, visibleSince := none }) ∧
    (left 80).visibleTop = none :=
  ⟨List.forall_mem_cons.mpr ⟨⟨nothing_released _ _ (by decide), by decide⟩, List.forall_mem_cons.mpr
    ⟨⟨nothing_released _ _ (by decide), by decide⟩, List.forall_mem_cons.mpr
      ⟨⟨nothing_released _ _ (by decide), by decide⟩, nofun⟩⟩⟩, by decide⟩

/-- What unmasking level 4 finds there: nothing pending, a BLANK, a TITLE; and the title shown masked, with none beneath. -/
theorem witness_SetMaskCarriedOut_settles (k : LinkState) : let ws := [5, 0]; let b := { asked with kind := .blank }
    let s := overMask 16 (some b) k (takenIn .idle 9 ws)
    let x := (overMask 0 (some b) k State.reset).screen 5
    let e := { shown none with serial := 4, visibleSince := none }
    s.taken 3 9 ws ∧ s.isMonitor 5 = false ∧ (s.link 5).state = k ∧ x.blankPending = false ∧
      (∀ l : Level, x.stack[l].bind (·.endTime) = none) ∧ x.pendingAt[(4 : Level)] = some b ∧ asked.level = 4 ∧
      asked.endTime = none ∧ x.masked 4 = false ∧ (∀ m : Level, m ≠ 4 → x.pendingAt[m] = none) ∧
      x.stack[(4 : Level)] = some e ∧ x.visibleTop = some (4, e) ∧ x.onScreen ≠ .entry 4 e.serial ∧
      x.onScreen ≠ .unknown ∧ (x.setEntry 4 none).agrees ∧
      (∀ l : Level, ((overMask 0 none k State.reset).screen 5).pendingAt[l] = none) ∧
      ({ x with mask := 0xFE } : Screen).visibleTop = none ∧ x.onScreen ≠ .blank ∧
      x.onScreen ≠ .entry 4 State.reset.arb.entrySerial := by
  refine ⟨⟨rfl, ⟨_, rfl, rfl⟩, rfl⟩, rfl, rfl, rfl, ?_, ?_, rfl, rfl, ?_, ?_, ?_, ?_, nofun, nofun,
    .inr ⟨6, shown none, ?_, rfl⟩, ?_, ?_, nofun, nofun⟩ <;> cases k <;> decide

/-- R126: a BLANK takes the unmasked entry away, and the title shown keeps its visible-since without a message; a TITLE
takes its place, and the one SHOW is its own. -/
theorem test_unmasked_entry_is_settled_after_requests : let b := { asked with kind := .blank }
    let at35 (s : State) : State := { s with clock := 35000 }
    let u := (at35 (overMask 16 (some b) .ready State.reset)).setLevelMask 5 0
    let v := (at35 (overMask 16 (some asked) .ready State.reset)).setLevelMask 5 0
    (u.screen 5).stack[(4 : Level)] = none ∧ (u.screen 5).stack[(6 : Level)] = some (shown none) ∧ u.sent = [] ∧
      v.sent.length = 1 ∧ (v.screen 5).stack[(4 : Level)].bind (·.visibleSince) = some 35000 ∧
      (v.screen 5).stack[(6 : Level)].bind (·.visibleSince) = none := by decide +kernel

theorem witness_SetLayoutCarriedOut : let ws := [15, 7, 0, 255, 255]
    (takenIn .idle 10 ws).taken 3 10 ws ∧ (takenIn .idle 10 ws).ctl.engine ≠ .loading ∧ (readLayout ws).isSome :=
  ⟨takenIn_taken _ _ _, by decide, by decide⟩

theorem witness_ScreenSettings : let ws := [15, 200000, 2, 2]; let vs := [15, 6, 0, 6]
    (takenIn .idle 11 ws).taken 3 11 ws ∧ (takenIn .idle 11 ws).ctl.engine ≠ .loading ∧ (readSettings ws).isSome ∧
      (takenIn .loading 17 vs).taken 3 17 vs ∧ (readSelectors vs).isSome ∧ (takenIn .loading 18 [1]).taken 3 18 [1] :=
  ⟨takenIn_taken _ _ _, by decide, by decide, takenIn_taken _ _ _, by decide, takenIn_taken _ _ _⟩

theorem linked_taken (l : LinkState) (e : EngineState) (k : Nat) (ws : List Nat) :
    (linked l (takenIn e k ws)).taken 3 k ws := ⟨rfl, ⟨_, rfl, rfl⟩, rfl⟩

/-- SET MIRROR of screen 5 to a free pair, its link READY or not; and OFF, with the pair set and without. -/
theorem witness_SetMirrorCarriedOut (k : LinkState) : let ws := [0, 5]; let vs := [0, 255]
    let s := linked k (takenIn .idle 12 ws)
    let r := linked k (mirrored 0 5 (takenIn .idle 12 vs))
    s.taken 3 12 ws ∧ s.ctl.engine ≠ .loading ∧ word ws 0 = (0 : Screen16).val ∧ word ws 1 = (5 : Screen16).val ∧
      (0 : Screen16) ≠ 5 ∧ s.arb.mirror = none ∧ (s.link 5).state = k ∧ r.taken 3 12 vs ∧ word vs 1 = 255 ∧
      r.arb.mirror = some (0, 5) ∧ (r.link 5).state = k :=
  ⟨linked_taken _ _ _ _, nofun, rfl, rfl, by decide, rfl, by cases k <;> rfl, ⟨rfl, ⟨_, rfl, rfl⟩, rfl⟩, rfl, rfl,
    by cases k <;> rfl⟩

/-- PROBE SCREEN on each state of link 5. -/
theorem witness_ProbeScreenCarriedOut (k : LinkState) : (linked k (takenIn .loading 13 [5])).taken 3 13 [5] ∧
    word [5] 0 = (5 : Screen16).val ∧ ((linked k (takenIn .loading 13 [5])).link 5).state = k := by
  refine ⟨linked_taken _ _ _ _, by decide, ?_⟩
  cases k <;> decide

/-- PROBE SCREEN of screen 16, and with room in the journal queue. -/
theorem witness_ProbeScreenCarriedOut_refused : (takenIn .idle 13 [16]).taken 3 13 [16] ∧ 16 ≤ word [16] 0 ∧
    (linked .ready (takenIn .loading 13 [5])).smi.journalQueue.length < 16 :=
  ⟨takenIn_taken _ _ _, by decide, by decide⟩

theorem witness_AmendCarriedOut_taken : let s := house .loaded .none (takenIn .loaded 14 [1])
    s.taken 3 14 [1] ∧ s.ctl.engine ≠ .idle ∧ s.ctl.engine ≠ .loading ∧ s.wlk.script = some houseScript ∧
      word [1] 0 < houseScript.cueCount :=
  ⟨house_taken _ _ _ _ _, by decide, by decide, rfl, by decide⟩

/-- A record with an action code of 2 fails its check; the record of the armed cue passes. -/
theorem witness_AmendCarriedOut_read : amending.answering .amend ∧
    amending.ctl.progress = some ⟨3, 14, [1], .amend 1⟩ ∧ amending.wlk.script = some houseScript ∧
    checkCue houseSections houseScript.bars 0 1 (goRecord.set 2 2) = some .range ∧
    checkCue houseSections houseScript.bars 0 1 goRecord = none ∧ amending.ctl.engine ≠ .running ∧
    (amending.sch.armed.filter fun x => x.cue == 1) = [armedGo] ∧ armedGo.copy.title = (parseCue goRecord).title ∧
    armedGo.copy.langs = (parseCue goRecord).langs ∧ armedGo.copy.scope = (parseCue goRecord).scope :=
  ⟨atPort_answering _ _, rfl, rfl, by decide, by decide, by decide, by decide, rfl, rfl, rfl⟩

/-- R97: a scope that gains the mirror monitor reworks no key, whatever SET LAYOUT has done since. -/
theorem test_amend_of_scope_keeps_keys :
    let e := { armedGo with keys := [(⟨5, 0⟩, .absent)] }
    let s := mirrored 0 15 (withArmed [e] (house .armed (.sec 2) State.reset))
    ((s.amendEntry { parseCue goRecord with scope := 0x8001 } e).armedEntry 1 1).map (·.keys) = some e.keys := by decide

theorem witness_InvalidateCarriedOut : let ws := [0, 65535, 7]
    let s := caching (cached 0) (takenIn .idle 15 ws); let r := caching (cached 1) (takenIn .idle 15 ws)
    s.taken 3 15 ws ∧ r.taken 3 15 ws ∧ s.ctl.engine ≠ .loading ∧ word ws 1 = 65535 ∧ word ws 2 = (7 : Lang).val ∧
      (takenIn .idle 15 ws).taken 3 15 ws ∧ ((takenIn .idle 15 ws).cacheSet (setOf ⟨65535, 7⟩)).find ⟨65535, 7⟩ = none ∧
      (s.cacheSet (setOf ⟨65535, 7⟩)).find ⟨65535, 7⟩ = some 0 ∧
      (s.way (setOf ⟨65535, 7⟩) 0).entry = some (cached 0) ∧ (r.way (setOf ⟨65535, 7⟩) 0).entry = some (cached 1) ∧
      s.du.queue = [] :=
  ⟨⟨rfl, ⟨_, rfl, rfl⟩, rfl⟩, ⟨rfl, ⟨_, rfl, rfl⟩, rfl⟩, by decide, by decide, by decide,
    takenIn_taken _ _ _, by decide, by decide, by decide, by decide, rfl⟩

/-- An unpinned entry with an item of its set in the wait queue, behind one of another set. -/
theorem witness_InvalidateCarriedOut_serves : let ws := [0, 65535, 7]
    let i : WaitItem := { key := ⟨6, 0⟩, joined := 0, pins := 1 }; let o : WaitItem := { i with key := ⟨0, 0⟩ }
    let s := caching (cached 0) (takenIn .idle 15 ws)
    let r : State := { s with du := { s.du with queue := [o, i] } }
    r.taken 3 15 ws ∧ (r.way (setOf ⟨65535, 7⟩) 0).entry = some (cached 0) ∧ r.du.queue = [o] ++ i :: [] ∧
      setOf i.key = setOf ⟨65535, 7⟩ ∧ ∀ x ∈ [o], setOf x.key ≠ setOf ⟨65535, 7⟩ :=
  ⟨⟨rfl, ⟨_, rfl, rfl⟩, rfl⟩, by decide⟩

/-- INVALIDATE of all keys, with an entry of each kind in the cache. -/
theorem witness_InvalidateCarriedOut_all : let s := caching (cached 1) (takenIn .idle 15 [1])
    let r := s.setWay 0 3 { entry := some { cached 0 with key := ⟨0, 0⟩ }, cancelled := false }
    r.taken 3 15 [1] ∧ r.ctl.engine ≠ .loading ∧ word [1] 0 = 1 ∧ r.du.queue = [] ∧
      (r.way (setOf ⟨65535, 7⟩) 0).entry = some (cached 1) ∧ 0 < (cached 1).pins ∧
      (r.way 0 3).entry = some { cached 0 with key := ⟨0, 0⟩ } ∧ (r.way 1 0).entry = none :=
  ⟨⟨rfl, ⟨_, rfl, rfl⟩, rfl⟩, by decide⟩

/-- WARM of title 65535 in language 7, held nowhere. -/
theorem witness_WarmCarriedOut : let ws := [1, 524287]
    let s := takenIn .loaded 16 ws
    s.taken 3 16 ws ∧ s.ctl.engine ≠ .idle ∧ s.ctl.engine ≠ .loading ∧ word ws 0 = 1 ∧
      word ws 1 = 65535 + 65536 * (7 : Lang).val ∧ (s.cacheSet (setOf ⟨65535, 7⟩)).find ⟨65535, 7⟩ = none ∧
      s.keyWaits ⟨65535, 7⟩ = false ∧ (s.cacheSet (setOf ⟨65535, 7⟩)).choose = some 0 ∧
      (s.way (setOf ⟨65535, 7⟩) 0).cancelled = false :=
  ⟨takenIn_taken _ _ _, by decide, by decide, by decide, by decide, by decide, by decide, by decide, by decide⟩

/-- The same key where it waits already, where a title table is held, and where every way of its set is pinned. -/
theorem witness_WarmCarriedOut_others : let ws := [1, 524287]; let k : Key := ⟨65535, 7⟩
    let s := takenIn .loaded 16 ws
    let q : State := { s with du := { s.du with queue := [{ key := k, joined := 0, pins := 1 }] } }
    let r : State := { s with du := { s.du with table := some (131072, 16) } }
    let p := [0, 1, 2, 3].foldl (fun (s : State) w => s.setWay (setOf k) w
      { entry := some { cached 1 with key := ⟨64 * w.val, 0⟩ }, cancelled := false }) s
    q.taken 3 16 ws ∧ (q.cacheSet (setOf k)).find k = none ∧ q.keyWaits k = true ∧ r.taken 3 16 ws ∧
      r.du.table = some (131072, 16) ∧ (r.cacheSet (setOf k)).choose = some 0 ∧ (r.way (setOf k) 0).cancelled = false ∧
      p.taken 3 16 ws ∧ p.keyWaits k = false ∧ (p.cacheSet (setOf k)).find k = none ∧
      (p.cacheSet (setOf k)).choose = none :=
  ⟨⟨rfl, ⟨_, rfl, rfl⟩, rfl⟩, by decide, by decide, ⟨rfl, ⟨_, rfl, rfl⟩, rfl⟩, by decide, by decide, by decide,
    ⟨rfl, ⟨_, rfl, rfl⟩, rfl⟩, by decide, by decide, by decide⟩

/-- The same key where way 0 holds it. -/
theorem witness_WarmCarriedOut_held : let s := caching (cached 0) (takenIn .loaded 16 [1, 524287])
    s.taken 3 16 [1, 524287] ∧ s.ctl.engine ≠ .idle ∧ s.ctl.engine ≠ .loading ∧
      (s.cacheSet (setOf ⟨65535, 7⟩)).find ⟨65535, 7⟩ = some 0 := ⟨⟨rfl, ⟨_, rfl, rfl⟩, rfl⟩, by decide⟩

/-- WARM of eight keys, one of them twice. -/
theorem witness_WarmCarriedOut_eight : let keys : List Key := ⟨0, 0⟩ :: List.replicate 7 ⟨65535, 7⟩
    let ws := 8 :: 0 :: List.replicate 7 524287
    (takenIn .loaded 16 ws).taken 3 16 ws ∧ (takenIn .loaded 16 ws).ctl.engine ≠ .idle ∧ word ws 0 = keys.length ∧
      1 ≤ keys.length ∧ keys.length ≤ 8 ∧ (∀ k ∈ keys, k.title ≤ 65535) ∧
      ∀ (i : Nat) (h : i < keys.length), word ws (i + 1) = keys[i].title + 65536 * keys[i].lang.val :=
  ⟨takenIn_taken _ _ _, by decide, by decide, by decide, by decide, by decide, by decide⟩

/-! ### Answers -/

/-- The state of a LOAD with the work given. -/
def loadingWith (w : LoadWork) : State :=
  atPort .load { State.reset with
    ctl := { Control.reset with engine := .loading, progress := some ⟨3, 1, [64], .load w⟩ } }

/-- A LOAD that reads the bar table of a script with `bars` bars, and no speakers, of which all records before the
access at byte `next` have passed. -/
def barWork (bars next : Nat) : LoadWork :=
  { LoadWork.begin 64 with
    table := .bar, next := next, header := { Header.blank with barCount := bars, barTable := 1024 } }

/-- The record of a bar of 4 beats. -/
def barRecord : List Byte := [4, 0, 0, 0]

/-- A header: 1 section at 32768, 1 bar at 32784, 1 cue at 32800, no speakers, and titles of exponent 6 at 65536. -/
def headerBytes : List Byte :=
  [87, 52, 49, 54, 1, 0, 0, 6, 1, 0, 1, 0, 0, 128, 0, 0, 16, 128, 0, 0, 32, 128, 0, 0, 0, 0, 0, 0, 0, 0, 1, 0] ++
    List.replicate 32 0

theorem witness_LoadReads_header : (loadingWith (LoadWork.begin 64)).answering .load ∧
    (loadingWith (LoadWork.begin 64)).ctl.progress = some ⟨3, 1, [64], .load (LoadWork.begin 64)⟩ ∧
    (LoadWork.begin 64).table = .header ∧ (LoadWork.begin 64).next = 0 ∧ (List.replicate 32 (0 : Byte)).length = 32 :=
  ⟨atPort_answering _ _, rfl, rfl, rfl, by decide⟩

/-- The second half of the header is read. -/
def headerWork : LoadWork := { LoadWork.begin 64 with next := 32, buffer := headerBytes.take 32 }

theorem witness_LoadReads_second_half : (loadingWith headerWork).answering .load ∧ headerWork.table = .header ∧
    headerWork.next = 32 ∧ headerWork.buffer = headerBytes.take 32 ∧
    checkHeader (headerBytes.take 32 ++ (headerBytes.drop 32).take 32) = none ∧
    checkRegions 16384 headerWork.headerAddress (parseHeader (headerBytes.take 32 ++ (headerBytes.drop 32).take 32)) =
      none ∧
    checkRegions 0 headerWork.headerAddress (parseHeader (headerBytes.take 32 ++ (headerBytes.drop 32).take 32)) =
      some (.header, .overlap) ∧
    checkHeader (headerBytes.take 32 ++ (List.replicate 32 (255 : Byte)).take 32) = some .range :=
  ⟨atPort_answering _ _, by decide⟩

/-- A record that fails its check: a bar of 17 beats. -/
theorem witness_LoadReads_fault : (loadingWith (barWork 1 0)).answering .load ∧ (barWork 1 0).table ≠ .header ∧
    (barWork 1 0).takeRecords 0 ((barWork 1 0).accessLength / (barWork 1 0).recordSize) (barWork 1 0).index
      ([17, 0, 0, 0].take (barWork 1 0).accessLength) = .error ⟨.bar, 0, .range⟩ :=
  ⟨atPort_answering _ _, by decide, by rfl⟩

/-- Bars that pass, with more of the table to come. -/
theorem witness_LoadReads_goes_on : ∃ v, (barWork 9 0).takeRecords 0 ((barWork 9 0).accessLength / (barWork 9 0).recordSize)
      (barWork 9 0).index (((List.replicate 8 barRecord).flatten).take (barWork 9 0).accessLength) = .ok v ∧
    (barWork 9 0).next + (barWork 9 0).accessLength < v.length := ⟨_, rfl, by decide⟩

/-- The last cue of the cue table, after which the LOAD ends. -/
def cueWork : LoadWork :=
  { LoadWork.begin 64 with
    table := .cue, next := 32, header := { Header.blank with cueCount := 2, cueTable := 65536 }
    sections := houseSections, bars := houseScript.bars }

/-- The last bar of the bar table, after which the cue table is read. -/
theorem witness_LoadReads_next_table : ∃ v, (barWork 1 0).takeRecords 0
      ((barWork 1 0).accessLength / (barWork 1 0).recordSize) (barWork 1 0).index
      (barRecord.take (barWork 1 0).accessLength) = .ok v ∧
    v.length ≤ (barWork 1 0).next + (barWork 1 0).accessLength ∧ v.nextTable = some .cue :=
  ⟨_, rfl, by decide, by decide⟩

theorem witness_LoadReads_ends : ∃ v, cueWork.takeRecords 0 (cueWork.accessLength / cueWork.recordSize) cueWork.index
      (goRecord.take cueWork.accessLength) = .ok v ∧ v.length ≤ cueWork.next + cueWork.accessLength ∧
    v.nextTable = none := ⟨_, rfl, by decide, by decide⟩

/-- The state while the record of cue 1 is read for an offer. -/
def offering (discarded : Bool) : State :=
  let s := house .armed (.sec 2) State.reset
  atPort (.offer discarded) { s with wlk := { s.wlk with
    cursor := some { sec := 2, pass := 1, origin := none, cue := 1 }, fireCursor := some 1, reading := true } }

theorem witness_OfferReads : (offering false).ctl.engine = .armed ∧ (offering false).answering (.offer false) ∧
    (offering true).answering (.offer true) ∧
    (offering false).wlk.cursor = some { sec := 2, pass := 1, origin := none, cue := 1 } ∧
    (offering false).wlk.script = some houseScript ∧ (houseSections[2]?.any fun x => x.mode = .called) = true ∧
    checkCue houseSections houseScript.bars 0 1 goRecord = none ∧
    checkCue houseSections houseScript.bars 0 1 (goRecord.set 5 2) = some .range ∧
    ¬((parseCue goRecord).passRule = .firstPass ∧ 1 < 1) ∧ (1 - 1, 1) ∉ (offering false).wlk.unhanded ∧
    (offering false).targetOf { sec := 2, pass := 1, origin := none, cue := 1 } houseSections[2]
      (parseCue goRecord).anchor = none ∧ (offering false).armedEntry 1 1 = none ∧
    (offering false).wlk.calledOffers < 4 ∧ (offering false).wlk.owedGo = none ∧
    (offering false).smi.journalQueue.length < 16 :=
  ⟨rfl, atPort_answering _ _, atPort_answering _ _, rfl, rfl, by decide, by decide, by decide, by decide, by decide,
    by decide, by decide, by decide, by decide, by decide⟩

/-- A full CALLED window lets in the cue at the fire cursor, and a FOLLOW cue behind the one handed last. -/
theorem witness_OfferReads_window : let c : Cursor := { sec := 2, pass := 1, origin := none, cue := 2 }
    let s : State := { offering false with wlk := { (offering false).wlk with calledOffers := 4 } }
    let w : Walker := { s.wlk with script := some (longer 2 2), cursor := some c, lastHanded := some (1, 1) }
    let r : State := { s with wlk := w }
    s.answering (.offer false) ∧ r.answering (.offer false) ∧ ¬(s.wlk.calledOffers < 4) ∧
      s.wlk.inForce = .sec 2 ∧ s.wlk.fireCursor = some 1 ∧ r.wlk.cursor = some c ∧
      (parseCue (goRecord.set 3 1)).anchor = .follow 0 ∧ r.wlk.lastHanded = some (c.cue - 1, c.pass) ∧
      checkCue (longer 2 2).sections houseScript.bars 0 2 (goRecord.set 3 1) = none ∧ (2 - 1, 1) ∉ r.wlk.unhanded ∧
      r.armedEntry c.cue c.pass = none :=
  ⟨⟨_, rfl, rfl⟩, ⟨_, rfl, rfl⟩, by decide⟩

/-- In RUNNING, a GO cue armed WAITING behind another; and one with an owed GO of 5, DUE and complete in an empty list. -/
theorem witness_OfferReads_running : let c : Cursor := { sec := 2, pass := 1, origin := none, cue := 1 }
    let r : State := { offering false with ctl := { Control.reset with engine := .running } }
    let s := withArmed [{ armedGo with cue := 2 }] r
    let g : State := { r with wlk := { r.wlk with owedGo := some 5 } }
    let e := g.armedFor (max g.clock 6) c houseSections[2] (parseCue goRecord)
    s.answering (.offer false) ∧ g.answering (.offer false) ∧ s.ctl.engine = .running ∧ g.ctl.engine = .running ∧
      (∀ y ∈ s.sch.armed, y.timing ≠ .due) ∧ s.armedEntry c.cue c.pass = none ∧
      (s.armedFor (max s.clock 6) c houseSections[2] (parseCue goRecord)).timing = .waiting ∧
      g.sch.freeze = false ∧ g.sch.armed = [] ∧ g.wlk.calledOffers < 4 ∧ e.timing = .due ∧ e.fire = some 5 ∧
      (∀ p ∈ e.keys, p.2 ≠ .pending) :=
  ⟨⟨_, rfl, rfl⟩, ⟨_, rfl, rfl⟩, by decide⟩

/-- On screen 0 the cue needs one key: in no way yet, there with its answer, waiting, and with no place left to wait. -/
theorem witness_OfferReads_keys : let k : Key := ⟨5, 0⟩
    let s := (offering false).setScreen 0 proscenium
    let r := caching { key := k, state := .valid 5 9, pins := 0 } s
    let y : Way := { entry := some { key := ⟨37, 0⟩, state := .absent, pins := 1 }, cancelled := false }
    let f := s.setCacheSet 5 { s.cacheSet 5 with ways := Vector.replicate 4 y }
    let w := f.setQueue [⟨k, 0, 1⟩]
    s.keysOf (parseCue goRecord) = [k] ∧ (s.cacheSet (setOf k)).find k = none ∧ s.keyWaits k = false ∧
      (s.cacheSet (setOf k)).choose = some 0 ∧ s.answersInTurn 0 [k] = [(k, .pending)] ∧
      (r.cacheSet (setOf k)).find k = some 0 ∧ r.answersInTurn 0 [k] = [(k, .present 5 9)] ∧ f.mustWait k = true ∧
      f.answersInTurn 255 [k] = [(k, .pending)] ∧ f.answersInTurn 256 [k] = [(k, .faulted)] ∧ w.mustWait k = false ∧
      w.keyWaits k = true := by decide

/-- The state in section `f` while the record of the cue at the cursor is read for an offer. -/
def walking (sc : Script) (f : InForce) (c : Cursor) : State :=
  let s := house .armed f State.reset
  atPort (.offer false) { s with wlk := { s.wlk with script := some sc, cursor := some c, reading := true } }

/-- A POSITION cue of every pass, whose target is not before show beat 0, is not passed over. -/
theorem not_passed_over (s : State) (c : Cursor) (x : Section) (r : Cue) (hp : r.passRule = .everyPass)
    (ha : ∀ delay, r.anchor ≠ .follow delay) (ht : (s.targetOf c x r.anchor).all fun p => decide (0 ≤ p.1)) :
    ¬s.passesOver c x r := by
  rintro (⟨h, -⟩ | ⟨⟨d, h⟩, -⟩ | ⟨b, tick, h, lt⟩)
  · exact absurd (hp.symm.trans h) nofun
  · exact ha d h
  · rw [h] at ht
    exact absurd (of_decide_eq_true ht) (not_le.mpr lt)

/-- The cursor at cue 0 of section 0, whose pass began at show beat 0. -/
def atFirst : Cursor := { sec := 0, pass := 1, origin := some 0, cue := 0 }

/-- A cue on beat 7 is armed within a look-ahead of 8, under FREEZE in RUNNING too, and waits within one of 6. -/
theorem witness_OfferReads_horizon : let s := walking (longer 0 2) (.sec 0) atFirst
    let f : State := { frozen s with ctl := { s.ctl with engine := .running } }
    let w : State := { s with wlk := { s.wlk with lookAhead := 6 } }
    s.answering (.offer false) ∧ f.answering (.offer false) ∧ w.answering (.offer false) ∧
      ¬s.passesOver atFirst houseSections[0] (parseCue positionRecord) ∧
      ¬w.passesOver atFirst houseSections[0] (parseCue positionRecord) ∧
      s.targetOf atFirst houseSections[0] (parseCue positionRecord).anchor = some (7, 0) ∧ (7 : Int) ≤ s.horizon ∧
      w.targetOf atFirst houseSections[0] (parseCue positionRecord).anchor = some (7, 0) ∧ w.horizon < (7 : Int) ∧
      f.ctl.engine = .running ∧ f.sch.freeze = true ∧ w.ctl.engine ≠ .running ∧
      s.armedEntry atFirst.cue atFirst.pass = none ∧ (w.wlk.sec 0).any (fun x => x.mode = .beat && 0 < x.cueEnd) ∧
      checkCue (longer 0 2).sections houseScript.bars 0 0 positionRecord = none :=
  ⟨atPort_answering _ _, ⟨_, rfl, rfl⟩, ⟨_, rfl, rfl⟩, not_passed_over _ _ _ _ rfl nofun (by decide),
    not_passed_over _ _ _ _ rfl nofun (by decide), by decide⟩

/-- Passed over: FIRST-PASS in pass 2; FOLLOW on cue 0, which was dropped; a target before show beat 0. -/
theorem witness_OfferReads_passed_over : let d := positionRecord.set 5 0
    let s := walking (longer 0 3) (.sec 0) { atFirst with pass := 2 }
    let r := walking (longer 0 3) (.sec 0) { atFirst with cue := 1 }
    let g : State := { r with wlk := { r.wlk with unhanded := [(0, 1)] } }
    let b := walking (longer 0 3) (.sec 0) { atFirst with origin := some (-8) }
    s.answering (.offer false) ∧ g.answering (.offer false) ∧ b.answering (.offer false) ∧
      s.passesOver { atFirst with pass := 2 } houseSections[0] (parseCue d) ∧
      g.passesOver { atFirst with cue := 1 } houseSections[0] (parseCue (positionRecord.set 3 1)) ∧
      b.passesOver { atFirst with origin := some (-8) } houseSections[0] (parseCue positionRecord) ∧
      checkCue (longer 0 3).sections houseScript.bars 0 0 d = none ∧
      checkCue (longer 0 3).sections houseScript.bars 0 1 (positionRecord.set 3 1) = none ∧
      s.ctl.engine ≠ .running ∧ s.wlk.owedGo = none ∧ 1 + 1 < (Section.cueEnd { houseSections[0] with cueCount := 3 }) :=
  ⟨atPort_answering _ _, ⟨_, rfl, rfl⟩, atPort_answering _ _, .inl (by decide), .inr (.inl ⟨⟨_, rfl⟩, by decide⟩),
    .inr (.inr ⟨-1, 0, by decide, by decide⟩), by decide⟩

/-- An entry of the cue at the cursor stands in the armed list, in a BEAT section and in a CALLED one. -/
theorem witness_OfferReads_armed_already : let c : Cursor := { sec := 2, pass := 1, origin := none, cue := 1 }
    let s := withArmed [{ armedGo with cue := 0, sec := 0 }] (walking (longer 0 3) (.sec 0) atFirst)
    let r := withArmed [armedGo] (walking (longer 2 2) (.sec 2) c)
    s.answering (.offer false) ∧ r.answering (.offer false) ∧ s.armedEntry 0 1 ≠ none ∧ r.armedEntry 1 1 ≠ none ∧
      ¬s.passesOver atFirst houseSections[0] (parseCue positionRecord) ∧
      ¬r.passesOver c houseSections[2] (parseCue goRecord) ∧ (7 : Int) ≤ s.horizon ∧
      s.targetOf atFirst houseSections[0] (parseCue positionRecord).anchor = some (7, 0) ∧
      r.targetOf c houseSections[2] (parseCue goRecord).anchor = none ∧
      (r.wlk.sec 2).any (fun x => x.mode = .called && 1 + 1 < x.cueEnd) ∧
      checkCue (longer 2 2).sections houseScript.bars 0 1 goRecord = none :=
  ⟨⟨_, rfl, rfl⟩, ⟨_, rfl, rfl⟩, by decide, by decide, not_passed_over _ _ _ _ rfl nofun (by decide),
    not_passed_over _ _ _ _ rfl nofun (by decide), by decide⟩

/-- A pinned FETCHING entry at access `n`, the table at 131072 with 64 groups. -/
def fetching (n : Nat) : State :=
  let s := atPort (.fetch 0 0) { State.reset with du := { State.reset.du with table := some (131072, 6) } }
  s.setWay 0 0 { entry := some { key := ⟨0, 0⟩, state := .fetching n true, pins := 1 }, cancelled := false }

/-- Access 6 has one to come after it, access 7 none. -/
theorem witness_FetchAnswers : (fetching 6).ctl.engine ≠ .running ∧ (fetching 6).noticeWork = none ∧
    (fetching 6).answering (.fetch 0 0) ∧ ((fetching 6).way 0 0).cancelled = false ∧
    ((fetching 6).way 0 0).entry = some { key := ⟨0, 0⟩, state := .fetching 6 true, pins := 1 } ∧
    (fetching 7).answering (.fetch 0 0) ∧
    ((fetching 7).way 0 0).entry = some { key := ⟨0, 0⟩, state := .fetching 7 true, pins := 1 } ∧
    matchAccess ⟨0, 0⟩ (List.replicate 32 0) = none ∧
    matchAccess ⟨0, 0⟩ [1, 0, 0, 0, 40, 0, 0, 0, 9, 0, 0, 0, 0, 0, 0, 0] = some (9, 40) ∧
    (fetching 6).du.table = some (131072, 6) :=
  ⟨by decide, rfl, ⟨_, rfl, rfl⟩, by decide, by decide, ⟨_, rfl, rfl⟩, by decide, by decide, by decide, rfl⟩

/-- Under FREEZE in RUNNING, with an armed result PENDING for the key; and, FREEZE released, a DUE cue alone with it. -/
theorem witness_FetchAnswers_running : let k : Key := ⟨0, 0⟩
    let y : Armed := { armedGo with timing := .due, keys := [(k, .pending), (⟨0, 1⟩, .absent)] }
    let s := withArmed [y] { fetching 7 with ctl := { Control.reset with engine := .running } }
    s.answering (.fetch 0 0) ∧ (frozen s).answering (.fetch 0 0) ∧ s.ctl.engine = .running ∧ s.sch.freeze = false ∧
      (frozen s).sch.freeze = true ∧ s.noticeWork = none ∧ s.wlk.owedGo = none ∧ (s.way 0 0).cancelled = false ∧
      (s.way 0 0).entry = some { key := k, state := .fetching 7 true, pins := 1 } ∧ s.sch.armed = [y] ∧
      y.timing = .due ∧ ∀ r ∈ y.keys, r.2 = .pending → r.1 = k :=
  ⟨⟨_, rfl, rfl⟩, ⟨_, rfl, rfl⟩, by decide⟩

/-- The same fetch without pins, and with items waiting in the queue. -/
def unpinned (n : Nat) (q : List WaitItem) : State :=
  let e : CacheEntry := { key := ⟨0, 0⟩, state := .fetching n true, pins := 0 }
  let s := (fetching n).setWay 0 0 { entry := some e, cancelled := false }
  { s with du := { s.du with queue := q } }

/-- An unpinned fetch with nothing waiting, and with an item of its set behind one of another set. -/
theorem witness_FetchAnswers_unpinned : let q : List WaitItem := [⟨⟨1, 0⟩, 0, 1⟩, ⟨⟨32, 0⟩, 0, 2⟩]
    (unpinned 7 q).ctl.engine ≠ .running ∧ (unpinned 7 q).noticeWork = none ∧
      (∀ n ∈ [6, 7], (unpinned n q).answering (.fetch 0 0)) ∧ ((unpinned 7 q).way 0 0).cancelled = false ∧
      ((unpinned 7 q).way 0 0).entry = some { key := ⟨0, 0⟩, state := .fetching 7 true, pins := 0 } ∧
      (unpinned 7 q).du.queue = [⟨⟨1, 0⟩, 0, 1⟩] ++ ⟨⟨32, 0⟩, 0, 2⟩ :: [] ∧ setOf ⟨32, 0⟩ = 0 ∧ setOf ⟨1, 0⟩ ≠ 0 ∧
      (unpinned 6 []).du.queue = [] ∧ (unpinned 6 []).du.table = some (131072, 6) :=
  ⟨by decide, rfl, fun _ _ => ⟨_, rfl, rfl⟩, by decide, by decide, rfl, by decide, by decide, rfl, rfl⟩

/-- R103: the way of an unpinned fetch that has ended goes to the item of its set that waits. -/
theorem test_ended_fetch_serves_the_queue :
    let u := after (.fetchAccessComplete 0 (List.replicate 32 0)) (unpinned 7 [⟨⟨32, 0⟩, 0, 2⟩])
    (u.way 0 0).entry.map (fun e => (e.key, e.pins)) = some (⟨32, 0⟩, 2) ∧ u.du.queue = [] := by decide +kernel

/-- A cancelled read with the way free, and with a fetch there that has not begun. -/
theorem witness_FetchAnswers_cancelled : let s := (fetching 6).setWay 0 0 { entry := none, cancelled := true }
    let e : CacheEntry := { key := ⟨0, 0⟩, state := .fetching 0 false, pins := 1 }
    let r := (fetching 6).setWay 0 0 { entry := some e, cancelled := true }
    s.answering (.fetch 0 0) ∧ (s.way 0 0).cancelled = true ∧ r.answering (.fetch 0 0) ∧ (r.way 0 0).entry = some e ∧
      r.du.table = some (131072, 6) := ⟨⟨_, rfl, rfl⟩, by decide, ⟨_, rfl, rfl⟩, by decide, rfl⟩

/-- The last access of the fetch that a NOTICE waits for: the answer is PRESENT, or ABSENT after access 7. -/
theorem witness_NoticeTaken_answered : let k : Key := ⟨0, 0⟩
    let s : State := { fetching 7 with ctl := { Control.reset with
      engine := .loaded, progress := some ⟨3, 7, [0, 0, 0, 32], .notice ⟨0, 0, 0, 32, [(k, .pending)]⟩⟩ } }
    s.answering (.fetch 0 0) ∧ s.ctl.engine ≠ .running ∧ (∀ i, s.isMonitor i = false) ∧ (s.way 0 0).cancelled = false ∧
      (s.way 0 0).entry = some { key := k, state := .fetching 7 true, pins := 1 } ∧
      matchAccess k [1, 0, 0, 0, 40, 0, 0, 0, 9, 0, 0, 0, 0, 0, 0, 0] = some (9, 40) ∧
      matchAccess k (List.replicate 32 0) = none ∧ 7 ≤ 7 := ⟨⟨_, rfl, rfl⟩, by decide⟩

/-- Two records whose sequence numbers are the last and the first. -/
def record (seq : Nat) : JournalRecord := { seq := seq, time := 0, body := .cueLate 1 40 9 1 }

/-- The state with journal records queued and a journal write at the port. -/
def journalling (p : Purpose) (rs : List JournalRecord) : State :=
  atPort p { State.reset with smi := { State.reset.smi with
    journalQueue := rs, journalPhase := if p = .journalRecord then .record else .count } }

/-- The empty queue of reset, the first and the last record of a queue, and one with another behind it. -/
theorem witness_JournalWrites :
    State.reset.smi.journalQueue = [] ∧ State.reset.smi.journalPhase = .idle ∧
      (journalling .journalRecord [record 4294967295]).answering .journalRecord ∧
      (journalling .journalRecord [record 4294967295]).smi.journalQueue = [record 4294967295] ∧
      (journalling .journalCount [record 0]).answering .journalCount ∧
      (journalling .journalCount [record 0]).smi.journalQueue = [record 0] ∧
      (journalling .journalCount [record 255, record 256]).answering .journalCount ∧
      (journalling .journalCount [record 255, record 256]).smi.journalQueue = [record 255, record 256] :=
  ⟨rfl, rfl, atPort_answering _ _, rfl, atPort_answering _ _, rfl, atPort_answering _ _, rfl⟩

/-- A count write not answered for 100 µs, the last record and with one behind it. -/
theorem witness_JournalWrites_faulted : ∃ f, (journalling .journalCount [record 0]).smi.port.inFlight = some f ∧
    (journalling .journalCount [record 0, record 1]).smi.port.inFlight = some f ∧ f.abandoned = false ∧
    f.granted + 100 ≤ max 0 100 ∧ f.access.purpose = .journalCount := ⟨_, rfl, rfl, rfl, by decide, rfl⟩

/-- A journal queue with room for one record, and a full one. -/
theorem witness_RecordProduced :
    (journalling .journalCount (List.replicate 15 (record 0))).smi.journalQueue.length < 16 ∧
      16 ≤ (journalling .journalCount (List.replicate 16 (record 0))).smi.journalQueue.length ∧
      (State.reset.journalAt 0 (.cueLate 1 40 9 1)).smi.journalCount = 1 := by decide

/-- An access of each class at a free port of each weight, with the counter at and below W. -/
theorem witness_PortGrants : ∃ a b : Access,
    ({ urgent := [a], background := [b], inFlight := none, weight := .strict, counter := 9 } : Port).inFlight = none ∧
      ({ urgent := [a], background := [b], inFlight := none, weight := .grants 4, counter := 3 } : Port).counter < 4 ∧
      4 ≤ ({ urgent := [a], background := [b], inFlight := none, weight := .grants 4, counter := 4 } : Port).counter :=
  ⟨.read .load 0 4 .urgent FaultDetail.none, .read .load 0 4 .background FaultDetail.none, rfl, by decide, by decide⟩

/-- The state with a refresh in progress. -/
def refreshing (rest : List (Nat × List Byte)) (owed : Bool) : State :=
  atPort .status { State.reset with smi := { State.reset.smi with refresh := .writing rest owed } }

theorem witness_StatusRefresh : State.reset.smi.statusTimer ≤ max State.reset.clock 50000 ∧
    State.reset.smi.refresh = .idle ∧ (refreshing [] false).smi.statusTimer ≤ max 0 50000 ∧
    (refreshing [] false).smi.refresh = .writing [] false ∧ (refreshing [] false).answering .status ∧
    (refreshing [] true).smi.refresh = .writing [] true ∧ (refreshing [] true).answering .status ∧
    (refreshing [(36, [7])] false).smi.refresh = .writing [(36, [7])] false ∧
    (refreshing [(36, [7])] false).answering .status :=
  ⟨by decide, rfl, by decide, rfl, atPort_answering _ _, rfl, atPort_answering _ _, rfl, atPort_answering _ _⟩

/-- At 100 µs after its grant an access is faulted, at 99 µs it is not; and one that was abandoned. -/
theorem witness_AccessTimedOut : ∃ f h : InFlight, (atPort .load State.reset).smi.port.inFlight = some f ∧
    f.abandoned = false ∧ f.granted + 100 ≤ max 0 100 ∧ f.access.purpose.isJournal = false ∧
    (atPort .load State.reset).smi.journalQueue.length < 16 ∧ max 0 99 < f.granted + 100 ∧
    (State.reset.setPort { State.reset.smi.port with inFlight := some h }).smi.port.inFlight = some h ∧
    h.abandoned = true ∧ h.granted + 100 ≤ max 0 100 :=
  ⟨_, ⟨.read .load 0 4 .background FaultDetail.none, 0, true⟩, rfl, rfl, by decide, rfl, by decide, by decide, rfl, rfl,
    by decide⟩

/-- The LOAD, the AMEND CUE and the offer of cue 0 whose read has had no answer for 100 µs. -/
theorem witness_AccessTimedOut_reads : let s := loadingWith (barWork 9 0)
    let r := house .armed (.sec 0) (atPort (.offer false) State.reset)
    let o : State := { r with wlk := { r.wlk with
      cursor := some { sec := 2, pass := 1, origin := none, cue := 1 }, script := some { houseScript with
        sections := houseSections.set 2 { firstBar := 3, barCount := 1, firstCue := 1, cueCount := 2, mode := .called
                                          vamp := false, nominal := 0, dwellPercent := 100, versions := 1 } } } }
    s.overdue 100 .load ∧ s.ctl.progress = some ⟨3, 1, [64], .load (barWork 9 0)⟩ ∧ amending.overdue 100 .amend ∧
      amending.ctl.progress = some ⟨3, 14, [1], .amend 1⟩ ∧ o.overdue 100 (.offer false) ∧ o.ctl.engine = .armed ∧
      o.wlk.cursor = some { sec := 2, pass := 1, origin := none, cue := 1 } ∧
      (o.wlk.sec 2).any (fun x => 1 + 1 < x.cueEnd) ∧ o.wlk.owedGo = none ∧ o.smi.journalQueue.length < 15 :=
  ⟨⟨_, rfl, rfl, rfl, by decide⟩, rfl, ⟨_, rfl, rfl, rfl, by decide⟩, rfl, ⟨_, rfl, rfl, rfl, by decide⟩, rfl, rfl,
    by decide, rfl, by decide⟩

/-- A fetch with a key of its set waiting and with none, and a cancelled read. -/
theorem witness_AccessTimedOut_fetch : let s := fetching 6
    let r : State := { s with du := { s.du with queue := [{ key := ⟨32, 0⟩, joined := 0, pins := 1 }] } }
    let c := s.setWay 0 0 { entry := none, cancelled := true }
    s.overdue 100 (.fetch 0 0) ∧ (s.way 0 0).cancelled = false ∧
      (s.way 0 0).entry = some { key := ⟨0, 0⟩, state := .fetching 6 true, pins := 1 } ∧ s.ctl.engine ≠ .running ∧
      s.ctl.progress = none ∧ s.du.queue = [] ∧ r.overdue 100 (.fetch 0 0) ∧ setOf ⟨32, 0⟩ = 0 ∧
      c.overdue 100 (.fetch 0 0) ∧ (c.way 0 0).cancelled = true :=
  ⟨⟨_, rfl, rfl, rfl, by decide⟩, by decide, by decide, by decide, rfl, rfl, ⟨_, rfl, rfl, rfl, by decide⟩, by decide,
    ⟨_, rfl, rfl, rfl, by decide⟩, by decide⟩

/-- A DUE cue that waits for the key of the fetch. -/
def waitingFor (r : KeyResult) : Armed := { armedGo with timing := .due, fire := some 0, keys := [(⟨0, 0⟩, r)] }

/-- R106: a fetch that faults journals its MEMORY FAULT last, after the fire it has set free. -/
theorem test_fetch_fault_is_journalled_last :
    ((after (.accessTimeout 100) (withArmed [waitingFor .pending]
      (house .running (.sec 2) (fetching 6)))).smi.journalQueue.map fun r => r.body.kind) = [1, 6, 7] := by decide +kernel

/-- R108: a re-fetch returns every result for its key to PENDING, a FAULTED one too. -/
theorem test_refetch_returns_faulted : ((waitingFor .faulted).refetchKey ⟨0, 0⟩).keys = [(⟨0, 0⟩, .pending)] := by decide

/-- A scan's read, an outcome's write in a scan that waits on outcomes and out of one, and a refresh's write. -/
theorem witness_AccessTimedOut_writes :
    let s := atPort (.scanState 15) (scanning (.search 15 1))
    let o := atPort (.doneWord 0) ((scanning (.outcomes true)).setOutcomes [outcomeOf 0 true])
    let r := atPort (.resultWords 0) (State.reset.setOutcomes [outcomeOf 0 true])
    s.overdue 100 (.scanState 15) ∧ s.smi.scanRequest = false ∧ o.overdue 100 (.doneWord 0) ∧
      o.writingOutcome 0 = some (outcomeOf 0 true) ∧ o.smi.scan = .outcomes true ∧
      (∀ q ∈ o.smi.outcomes, q ≠ outcomeOf 0 true → q.writing = false) ∧ o.smi.scanRequest = false ∧
      r.overdue 100 (.resultWords 0) ∧ r.writingOutcome 0 = some (outcomeOf 0 true) ∧ r.smi.scan = .idle ∧
      (refreshing [] true).overdue 100 .status ∧ (refreshing [(36, [7])] false).overdue 100 .status :=
  ⟨⟨_, rfl, rfl, rfl, by decide⟩, rfl, ⟨_, rfl, rfl, rfl, by decide⟩, by decide, rfl, by decide, rfl,
    ⟨_, rfl, rfl, rfl, by decide⟩, by decide, rfl, ⟨_, rfl, rfl, rfl, by decide⟩, ⟨_, rfl, rfl, rfl, by decide⟩⟩

theorem witness_LateAnswers : (∀ f, State.reset.smi.port.inFlight = some f → f.abandoned = false) ∧
    ∃ f, (State.reset.setPort { State.reset.smi.port with
      inFlight := some ⟨.read .load 0 4 .background FaultDetail.none, 0, true⟩ }).smi.port.inFlight = some f ∧
      f.abandoned = true := by
  refine ⟨?_, _, rfl, rfl⟩
  intro f h
  cases h

/-! ### The desk, the show and the screens -/

/-- The state whose line last took an edge at 1,000. -/
def edged (l : Line) (s : State) : State := s.setLine l { s.line l with lastEdge := some 1000 }

theorem witness_EdgesDebounced : Line.beat ≠ .freeze ∧ ((edged .beat State.reset).line .beat).lastEdge = some 1000 ∧
    max (edged .beat State.reset).clock 8999 < 1000 + 8000 := by decide

/-- A state in which a beat 8,000 µs after the last edge counts. -/
def listening (k : TrackerState) : State :=
  tracking k none none (edged .beat (house .running (.sec 0) State.reset))

theorem listening_edge (k : TrackerState) : ∀ e, ((listening k).line .beat).lastEdge = some e →
    e + 8000 ≤ max (listening k).clock 9000 := by
  intro e h
  cases h
  cases k <;> decide

/-- A lock beat in RUNNING, and in ARMED at a BEAT section. -/
theorem witness_BeatArrivals_locks : let s := listening .locking
    let a : State := { s with ctl := { s.ctl with engine := .armed } }
    s.acceptsEdge 9000 .beat ∧ a.acceptsEdge 9000 .downbeat ∧ s.ctl.engine = .running ∧ a.ctl.engine = .armed ∧
      a.inBeatSection = true ∧ s.trk.lockout = none ∧ s.trk.state = .locking ∧ s.nothingFires ∧ a.nothingFires ∧
      a.smi.journalQueue.length < 16 :=
  ⟨listening_edge _, nofun, rfl, rfl, by decide, rfl, rfl, .inr rfl, .inr rfl, by decide⟩

/-- Beats that count nothing: in IDLE, in ARMED at a CALLED section, in SUSPENDED, in a lockout, and bounces. -/
theorem witness_BeatArrivals_counts_nothing : let a := house .armed (.sec 2) State.reset
    let s := listening .tracking
    let l := tracking .tracking none (some 2000000) s
    let b : State := { s with trk := { s.trk with bounces := 6 } }
    let c : State := { s with trk := { s.trk with bounces := 7 } }
    State.reset.acceptsEdge 5 .beat ∧ State.reset.ctl.engine = .idle ∧ a.acceptsEdge 5 .beat ∧
      c.acceptsEdge 249999 .downbeat ∧ a.ctl.engine = .armed ∧
      a.inBeatSection = false ∧ (listening .suspended).trk.state = .suspended ∧ l.trk.lockout ≠ none ∧
      c.ctl.engine = .running ∧ c.trk.lockout = none ∧ c.trk.state = .tracking ∧
      max c.clock 249999 - c.trk.tLast < c.trk.period / 2 ∧ b.trk.bounces + 1 < 8 ∧ 8 ≤ c.trk.bounces + 1 ∧
      c.smi.journalQueue.length < 16 := ⟨nofun, rfl, nofun, nofun, by decide⟩

/-- A beat after a fermata bar's, absorbed or not, with an interval of half the estimate; in FREEWHEEL; in LOST. -/
theorem witness_BeatArrivals_recovers : let s := listening .tracking
    let f : State := { s with trk := { s.trk with facts := { s.trk.facts with fermata := true }, absorb := 1 } }
    f.acceptsEdge 250000 .beat ∧ f.ctl.engine = .running ∧ f.trk.lockout = none ∧ f.nothingFires ∧ f.unmarked ∧
      f.trk.state = .tracking ∧ f.trk.period / 2 ≤ max f.clock 250000 - f.trk.tLast ∧ f.trk.facts.fermata = true ∧
      (listening .freewheel).trk.state = .freewheel ∧ (listening .lost).trk.state = .lost ∧
      (listening .lost).unmarked := by
  refine ⟨?_, rfl, rfl, .inr rfl, ?_, rfl, by decide, rfl, rfl, rfl, ?_⟩
  · intro e h
    cases h
    exact by decide
  · intro sc h
    cases h
    exact by decide
  · intro sc h
    cases h
    exact by decide

/-- TRACKING in section 0 at show beat `b`, the facts of the bar as given. -/
def atBeat (b absorb m : Nat) : State :=
  let s := listening .tracking
  { s with wlk := { s.wlk with walked := some b }
           trk := { s.trk with beat := b, absorb := absorb, facts := ⟨4, m, false, 0⟩ } }

/-- DOWNBEAT on the first beat of bar 2; on beats 2, 3 and 4 of bar 1; and absorbed on beat 2 of it. -/
theorem witness_BeatArrivals_corrects :
    (atBeat 3 0 4).downbeatFinds houseSections[0] 4 1 4 ∧ (atBeat 0 0 1).downbeatFinds houseSections[0] 1 2 4 ∧
      (atBeat 1 0 2).downbeatFinds houseSections[0] 2 3 4 ∧ (atBeat 2 0 3).downbeatFinds houseSections[0] 3 4 4 ∧
      (atBeat 1 1 2).downbeatFinds houseSections[0] 1 2 4 ∧ (atBeat 1 0 2).beforeFinal houseSections[0] 4 ∧
      (atBeat 3 0 4).acceptsEdge 250000 .downbeat ∧ (atBeat 3 0 4).ctl.engine = .running ∧
      (atBeat 3 0 4).trk.lockout = none ∧ (atBeat 3 0 4).nothingFires ∧ (atBeat 3 0 4).trk.state = .tracking ∧
      (atBeat 3 0 4).trk.period / 2 ≤ max (atBeat 3 0 4).clock 250000 - (atBeat 3 0 4).trk.tLast ∧
      (atBeat 3 0 4).smi.journalQueue.length < 16 :=
  ⟨⟨⟨by decide, by decide⟩, .inr ⟨rfl, rfl, _, ⟨0, 2, rfl, rfl, rfl, rfl, rfl⟩, rfl⟩⟩,
    ⟨⟨by decide, by decide⟩, .inr ⟨rfl, rfl, _, ⟨0, 1, rfl, rfl, rfl, rfl, rfl⟩, rfl⟩⟩,
    ⟨⟨by decide, by decide⟩, .inr ⟨rfl, rfl, _, ⟨0, 1, rfl, rfl, rfl, rfl, rfl⟩, rfl⟩⟩,
    ⟨⟨by decide, by decide⟩, .inr ⟨rfl, rfl, _, ⟨0, 1, rfl, rfl, rfl, rfl, rfl⟩, rfl⟩⟩,
    ⟨⟨by decide, by decide⟩, .inl ⟨by decide, rfl, rfl, rfl, rfl, 0, rfl, rfl, rfl⟩⟩, ⟨by decide, by decide⟩, nofun, rfl,
    rfl, .inr rfl, rfl, by decide, by decide⟩

/-- The first beat of bar 2, whose bar carries a tempo mark. -/
theorem witness_BeatArrivals_marked : let s := atBeat 3 0 4
    let r : Bar := { beats := 4, fermata := false, mark := 6000 }
    let m : State := { s with wlk := { s.wlk with script := some { houseScript with bars := houseScript.bars.set 1 r } } }
    m.acceptsEdge 250000 .beat ∧ m.ctl.engine = .running ∧ m.trk.lockout = none ∧ m.nothingFires ∧
      m.trk.state = .tracking ∧ m.trk.absorb = 0 ∧ m.nextBeatIn houseSections[0] 1 r ∧ r.mark ≠ 0 := by
  refine ⟨?_, rfl, rfl, .inr rfl, rfl, rfl, ⟨0, 2, rfl, rfl, rfl, rfl, rfl⟩, by decide⟩
  intro e h
  cases h
  exact by decide

theorem atBeat_edge (b a m : Nat) : (atBeat b a m).acceptsEdge 250000 .beat := by
  intro e h
  cases h
  exact (by decide : 1000 + 8000 ≤ max 0 250000)

/-- Before beat 7, the last of section 0, with cue 0 not offered; and the same where section 0 is a vamp. -/
theorem witness_BeatArrivals_ends : let s := atBeat 6 0 3
    let c : State := { s with wlk := { s.wlk with cursor := some atFirst } }
    let x : Section := { houseSections[0] with vamp := true }
    let v : State := { c with wlk := { c.wlk with script := some { houseScript with sections := houseSections.set 0 x } } }
    c.acceptsEdge 250000 .beat ∧ v.acceptsEdge 250000 .beat ∧ c.finalBeatIn 0 houseSections[0] ∧ v.finalBeatIn 0 x ∧
      c.ctl.engine = .running ∧ c.nothingFires ∧ c.trk.lockout = none ∧ c.trk.state = .tracking ∧
      c.trk.period / 2 ≤ max c.clock 250000 - c.trk.tLast ∧ c.trk.absorb = 0 ∧ c.wlk.nextSec 0 = some 1 ∧
      (c.wlk.sec 1).any (fun y => y.mode = .beat) ∧ v.wlk.exitFlag = false ∧ c.wlk.cursor = some atFirst ∧
      atFirst.cue < houseSections[0].cueEnd ∧ atFirst.origin = some c.wlk.origin ∧ 0 < x.cueCount ∧
      c.smi.journalQueue.length < 13 :=
  ⟨atBeat_edge 6 0 3, atBeat_edge 6 0 3, ⟨rfl, rfl, rfl, rfl, by decide, by decide⟩,
    ⟨rfl, rfl, rfl, rfl, by decide, by decide⟩, rfl, .inr rfl, by decide⟩

/-- Before beat 3, the last of the vamp, its exit flag set: a CALLED section comes next, or none. -/
theorem witness_BeatArrivals_leaves : let s := atBeat 2 0 3
    let c : State := { s with wlk := { s.wlk with inForce := .sec 1, exitFlag := true } }
    let n : State := { c with wlk := { c.wlk with order := some [0, 1] } }
    c.finalBeatIn 1 houseSections[1] ∧ n.finalBeatIn 1 houseSections[1] ∧ c.acceptsEdge 250000 .beat ∧
      n.acceptsEdge 250000 .beat ∧ c.wlk.exitFlag = true ∧ c.wlk.nextSec 1 = some 2 ∧
      (c.wlk.sec 2).any (fun y => y.mode = .called && decide ((y.firstCue, 1) ∉ c.wlk.unhanded)) ∧
      n.wlk.nextSec 1 = none ∧ n.sch.armed = [] ∧
      (withArmed [armedGo] n).finalBeatIn 1 houseSections[1] ∧ (frozen (withArmed [armedGo] n)).sch.armed ≠ [] :=
  ⟨⟨rfl, rfl, rfl, rfl, by decide, by decide⟩, ⟨rfl, rfl, rfl, rfl, by decide, by decide⟩, atBeat_edge 2 0 3,
    atBeat_edge 2 0 3, rfl, by decide, by decide, by decide, rfl, ⟨rfl, rfl, rfl, rfl, by decide, by decide⟩, by decide⟩

/-- R55, R66: with beat 7 of section 0 the vamp is entered, and the cue not offered is passed over. -/
theorem test_section_ends_and_overruns :
    let c : State := { atBeat 6 0 3 with wlk := { (atBeat 6 0 3).wlk with cursor := some atFirst } }
    (after (.beat 250000) c).wlk.inForce = .sec 1 ∧ (after (.beat 250000) c).smi.journalQueue.map (·.body) =
      [.sectionEntered 0 1 1 1 8 7, .cueRejected 12 0 0 1] := by decide +kernel

/-- R54: END answers a beat handed again, too, with the notional bar. -/
theorem test_end_answers_every_beat :
    let s : State := { atBeat 3 0 4 with wlk := { (atBeat 3 0 4).wlk with inForce := .endOfShow } }
    (s.mapBeat 3).1.trk.facts = notionalBar := by decide

/-- An interval of exactly half the estimate. -/
theorem witness_NormalBeatCounted : let s := listening .tracking
    s.ctl.engine = .running ∧ s.trk.lockout = none ∧ s.trk.state = .tracking ∧ s.nothingFires ∧
      (∀ e, (s.line .beat).lastEdge = some e → e + 8000 ≤ max s.clock 250000) ∧
      s.trk.period / 2 ≤ max s.clock 250000 - s.trk.tLast ∧ s.trk.facts.fermata = false ∧
      ∀ sc, s.wlk.script = some sc → ∀ b ∈ sc.bars, b.mark = 0 := by
  refine ⟨rfl, rfl, rfl, .inr rfl, ?_, by decide, by decide, ?_⟩
  · intro e h
    cases h
    exact by decide
  · intro sc h
    cases h
    exact by decide

/-- A POSITION entry of beat 8, tick 60, which the gate holds back. -/
def placed : Armed := { armedGo with cue := 0, sec := 0, target := some (8, 60), timing := .gated }

/-- A DOWNBEAT under FREEZE with that entry armed, in the BEAT section. -/
theorem witness_NormalBeatCounted_predicts : let s := frozen (withArmed [placed] (listening .tracking))
    s.acceptsEdge 250000 .downbeat ∧ s.nothingFires ∧ s.unmarked ∧ s.sch.freeze = true ∧ s.inCalledSection = false ∧
      s.sch.armed = [placed] ∧ placed.target = some (8, 60) ∧ placed.timing = .gated ∧ s.ctl.engine = .running ∧
      s.trk.period / 2 ≤ max s.clock 250000 - s.trk.tLast ∧ s.trk.facts.fermata = false := by
  refine ⟨nofun, .inl rfl, ?_, by decide⟩
  intro sc h
  cases h
  exact by decide

/-- Chapter 12: cue 42 addresses screens 0 and 5, and no other. -/
theorem witness_NormalBeatCounted_leads : theHouse.isAddressed cue42 0 ∧ theHouse.isAddressed cue42 5 ∧
    ¬theHouse.isAddressed cue42 1 ∧ ∀ i, ¬theHouse.isAddressed { cue42 with langs := 0 } i := by
  refine ⟨⟨by decide, by decide, fun _ => ⟨0, 0, by decide, by decide⟩⟩,
    ⟨by decide, by decide, fun _ => ⟨0, 0, by decide, by decide⟩⟩, fun h => absurd h.1 (by decide), ?_⟩
  intro i h
  obtain ⟨k, g, -, h⟩ := h.2.2 rfl
  exact absurd h (by revert g; decide)

/-- GO in a vamp, and in a CALLED section with its cue armed under FREEZE and with it not armed. -/
theorem witness_GoPressed : let v := house .running (.sec 1) State.reset
    let s := house .running (.sec 2) State.reset
    let r := frozen (withArmed [armedGo] s)
    v.ctl.engine = .running ∧ v.wlk.inForce = .sec 1 ∧ (v.wlk.sec 1).any (fun x => x.mode = .beat && x.vamp) ∧
      v.wlk.exitFlag = false ∧ v.nothingFires ∧ (v.line .go).lastEdge = none ∧ s.wlk.inForce = .sec 2 ∧
      (s.wlk.sec 2).any (fun x => x.mode = .called && 1 < x.firstCue + x.cueCount) ∧ s.wlk.owedGo = none ∧
      s.armedEntry 1 s.wlk.pass = none ∧ r.sch.freeze = true ∧ r.nothingFires ∧
      r.armedEntry 1 r.wlk.pass = some armedGo ∧ armedGo.timing = .waiting :=
  ⟨rfl, rfl, by decide, rfl, .inr rfl, rfl, rfl, by decide, rfl, by decide, rfl, .inl rfl, by decide, rfl⟩

theorem witness_GoPressed_cursor : let s := house .running (.sec 2) State.reset
    let r : State := { s with wlk := { s.wlk with fireCursor := some 1 } }
    r.wlk.fireCursor = some 1 ∧ r.wlk.inForce = .sec 2 ∧ r.wlk.owedGo = none ∧ r.nothingFires :=
  ⟨rfl, rfl, rfl, .inr rfl⟩

/-- The state in a CALLED section with the fire cursor given and some entries armed. -/
def calledAt (e : EngineState) (cursor : Nat) (es : List Armed) : State :=
  let s := house e (.sec 2) State.reset
  withArmed es { s with wlk := { s.wlk with fireCursor := some cursor } }

/-- A FOLLOW cue, 2,000,000 µs after the one before it. -/
def following : Armed :=
  { armedGo with copy := { armedGo.copy with anchor := .follow 2000000 }, timing := .timed, fire := some 9000 }

/-- GO in ARMED; on a DUE GO cue and on a FOLLOW cue under FREEZE; alone in the list without FREEZE. -/
theorem witness_GoPressed_cues : let due := { armedGo with timing := .due }
    (calledAt .armed 1 []).acceptsEdge 5 .go ∧ (calledAt .armed 1 []).ctl.engine = .armed ∧
      (calledAt .armed 1 []).nothingFires ∧ (calledAt .armed 1 []).smi.journalQueue.length < 16 ∧
      (frozen (calledAt .running 1 [due])).nothingFires ∧
      (frozen (calledAt .running 1 [due])).armedEntry 1 1 = some due ∧ (∀ delay, due.copy.anchor ≠ .follow delay) ∧
      (frozen (calledAt .running 1 [following])).nothingFires ∧
      (frozen (calledAt .running 1 [following])).armedEntry 1 1 = some following ∧
      (∃ delay, following.copy.anchor = .follow delay) ∧ (calledAt .running 1 [following]).sch.freeze = false ∧
      (calledAt .running 1 [following]).sch.armed = [following] ∧ (∀ p ∈ following.keys, p.2 ≠ .pending) ∧
      (calledAt .running 1 [following]).armedEntry 1 1 = some following ∧ following.timing ≠ .due ∧
      (calledAt .running 1 [armedGo]).armedEntry 1 1 = some armedGo ∧ armedGo.timing = .waiting :=
  ⟨nofun, rfl, .inr rfl, by decide, .inl rfl, by decide, nofun, .inl rfl, by decide, ⟨_, rfl⟩, by decide⟩

/-- GO past the last cue: the running order ends, or leads on to a BEAT section or to a CALLED one with a cue. -/
theorem witness_GoPressed_moves_on : let s := calledAt .running 2 []
    let b : State := { s with wlk := { s.wlk with order := some [2, 0] } }
    let c : State := { s with wlk := { s.wlk with
      order := some [2, 3], script := some { longer 2 1 with sections := houseSections ++
        [{ houseSections[2] with firstBar := 4, firstCue := 2 }] } } }
    s.acceptsEdge 5 .go ∧ s.wlk.inForce = .sec 2 ∧
      (s.wlk.sec 2).any (fun x => x.mode = .called && decide (x.firstCue + x.cueCount ≤ 2)) ∧
      s.nothingFires ∧ s.wlk.owedGo = none ∧ s.wlk.nextSec 2 = none ∧ b.wlk.nextSec 2 = some 0 ∧
      (b.wlk.sec 0).any (fun y => y.mode = .beat) ∧ c.wlk.nextSec 2 = some 3 ∧
      (c.wlk.sec 3).any (fun y => y.mode = .called && decide (0 < y.cueCount ∧ (y.firstCue, 1) ∉ c.wlk.unhanded)) ∧
      c.armedEntry 2 1 = none ∧ (frozen (withArmed [{ armedGo with cue := 2, sec := 3 }] c)).nothingFires ∧
      ((withArmed [{ armedGo with cue := 2, sec := 3 }] c).armedEntry 2 1).map (·.timing) = some .waiting :=
  ⟨nofun, rfl, by decide, .inr rfl, rfl, by decide, by decide, by decide, by decide, by decide, by decide, .inl rfl,
    by decide⟩

/-- GO with nothing to act on: in ENDED and in ARMED at a BEAT section, in a BEAT section without vamp, in a vamp that
has its exit flag, in END, and with a GO owed. -/
theorem witness_GoPressed_ignored : let s := house .running (.sec 1) State.reset
    let v : State := { s with wlk := { s.wlk with exitFlag := true } }
    let g : State := { calledAt .running 1 [] with wlk := { (calledAt .running 1 []).wlk with owedGo := some 3 } }
    let a := house .armed (.sec 0) State.reset
    a.acceptsEdge 5 .go ∧ v.acceptsEdge 5 .go ∧ g.acceptsEdge 5 .go ∧ a.nothingFires ∧ v.nothingFires ∧
      g.nothingFires ∧ (house .ended .endOfShow State.reset).ctl.engine ≠ .running ∧ a.ctl.engine ≠ .running ∧
      a.inCalledSection = false ∧
      (house .running .endOfShow State.reset).wlk.inForce = .endOfShow ∧
      ((house .running (.sec 0) State.reset).wlk.sec 0).any (fun x => x.mode = .beat && !x.vamp) ∧
      (v.wlk.sec 1).any (fun x => x.mode = .beat && x.vamp) ∧ v.wlk.exitFlag = true ∧ g.wlk.owedGo ≠ none ∧
      g.ctl.engine = .running ∧ (g.wlk.sec 2).any (fun x => x.mode = .called) :=
  ⟨nofun, nofun, nofun, .inr rfl, .inr rfl, .inr rfl, by decide⟩

/-- A cue history entry of cue 1 of the CALLED section. -/
def fired : HistoryEntry :=
  { cue := 1, number := 9, sec := 2, pass := 1, level := 4, override := .default, screens := 1, tuples := []
    speaker := none, dwellPercent := 100, dwellOverride := none }

/-- BACK with two entries, and with one. -/
theorem witness_BackPressed : let s := house .running (.sec 2) State.reset
    let r : State := { s with wlk := { s.wlk with history := [fired, { fired with cue := 0 }] } }
    r.ctl.engine = .running ∧ (r.line .back).lastEdge = none ∧ r.wlk.history = [fired, { fired with cue := 0 }] ∧
      (r.wlk.sec fired.sec).any (fun x => x.mode = .called) ∧ r.wlk.inForce = .sec fired.sec ∧
      r.wlk.pass = fired.pass ∧
      ({ s with wlk := { s.wlk with history := [fired] } } : State).wlk.history.length < 2 :=
  ⟨rfl, rfl, rfl, by decide, rfl, rfl, by decide⟩

/-- R160: BACK outside RUNNING is ignored with ENGINE STATE, by the code of IDLE. -/
theorem witness_BackPressed_ignored : State.reset.ctl.engine ≠ .running ∧ State.reset.acceptsEdge 5 .back ∧
    (after (.back 5) State.reset).smi.journalQueue = [⟨0, 5, .deskIgnored 4 1 1 65535 0⟩] ∧
    ((after (.back 5) State.reset).line .back).ignored = 1 := by
  refine ⟨nofun, nofun, ?_⟩
  decide +kernel

/-- A history entry of screens 0 and 5 with a tuple in language 0. -/
def shownBefore : HistoryEntry := { fired with cue := 0, screens := 33, tuples := [⟨0, 9, 40⟩] }

/-- The house of chapter 12, its history holding that entry under another, and `m` the level of an entry on screen 5. -/
def rewinding (m : Level) (k : LinkState) : State :=
  let s := house .running (.sec 2) theHouse
  let r : State := { s with wlk := { s.wlk with history := [fired, shownBefore] } }
  linked k (r.setScreen 5 { balcony.setEntry m (some (shown none)) with onScreen := .entry m 3 })

/-- Screen 0 is dark and READY, screen 1 names no language, and screen 5 shows a title at the entry's level, or a lower
or higher one; nothing is pending, nothing is armed, and no cue is being read. -/
theorem witness_BackPressed_screens (m : Level) (k : LinkState) : let s := rewinding m k
    s.isMonitor 0 = false ∧ s.acceptsEdge 5 .back ∧ s.wlk.history = [fired, shownBefore] ∧
      shownBefore.screens.getLsbD 0 = true ∧ shownBefore.screens.getLsbD 5 = true ∧
      shownBefore.screens.getLsbD 1 = false ∧ (s.screen 0).backTuples shownBefore = [⟨0, 9, 40⟩] ∧
      (s.screen 5).backTuples shownBefore = [⟨0, 9, 40⟩] ∧ (s.screen 5).blankPending = false ∧
      (s.screen 5).masked shownBefore.level = false ∧ (∀ n : Level, (s.screen 5).pendingAt[n] = none) ∧
      (∀ n : Level, (s.screen 5).stack[n].bind (·.endTime) = none) ∧
      (s.screen 5).visibleTop = some (m, shown none) ∧ (shown none).visibleSince ≠ none ∧ (s.link 0).state = .ready ∧
      (s.link 5).state = k ∧ (s.screen 0).visibleTop = none ∧ s.wlk.reading = false ∧ s.sch.armed.length < 32 ∧
      s.wlk.pass = fired.pass ∧ fired.cue < 1 + 1 ∧ s.wlk.script = some houseScript := by
  refine ⟨rfl, nofun, rfl, by decide, by decide, by decide, ?_, ?_, ?_, ?_, ?_, ?_, ?_, ?_, ?_, ?_, ?_, ?_, ?_, ?_, ?_, ?_⟩ <;>
    cases k <;> revert m <;> decide

/-- In a section other than the popped cue's the fire cursor and an offer cursor within its cues stand. -/
theorem witness_BackPressed_elsewhere : let s := rewinding 4 .ready
    let r : State := { s with wlk := { s.wlk with inForce := .sec 0, cursor := some atFirst } }
    r.wlk.inForce ≠ .sec fired.sec ∧ r.wlk.cursor = some atFirst ∧ (r.wlk.sec 0).any (fun y => 0 < y.cueEnd) ∧
      ((house .running (.sec 2) State.reset).screen 5).backTuples shownBefore = [] := by decide

/-- BLANK with a title shown on screen 5, on a BUSY and on a READY link, and no title on screen 1; the ignored ones. -/
theorem witness_BlankPressed :
    let s := linked .busy (onScreen5 (some (shown none)) none none none none (house .running (.sec 0) State.reset))
    let r := linked .ready (onScreen5 (some (shown none)) none none none none (house .ended .endOfShow State.reset))
    s.ctl.engine = .running ∧ r.ctl.engine = .ended ∧ s.acceptsEdge 5 .blank ∧ r.acceptsEdge 5 .blank ∧
      s.arb.mirror = none ∧ s.isMonitor 5 = false ∧ (s.screen 5).visibleTop = some (4, shown none) ∧
      (4 : Level) ≠ 0 ∧ (shown none).endTime = none ∧ (s.screen 5).pendingAt[(4 : Level)] = none ∧
      (s.link 5).state = .busy ∧ (r.link 5).state = .ready ∧ s.takesPress 5 ∧ ¬s.takesPress 1 ∧
      (s.screen 1).blankPending = false ∧ State.reset.ctl.engine = .idle ∧ State.reset.acceptsEdge 5 .blank := by
  refine ⟨rfl, rfl, nofun, nofun, rfl, rfl, by decide, by decide, rfl, by decide, by decide, by decide, ?_, ?_, rfl, rfl,
    nofun⟩
  · exact ⟨.inr (by decide), 4, shown none, by decide, by decide⟩
  · rintro ⟨h, -⟩
    revert h
    decide

/-- Nothing is shown on any screen, and no press waits. -/
theorem witness_BlankPressed_nothing : let s := house .running (.sec 0) State.reset
    ∀ i, ¬s.takesPress i ∧ (s.screen i).blankPending = false := by
  intro s i
  have h : ∀ i, (s.link i).state = .down ∧ (s.screen i).blankPending = false := by decide
  refine ⟨?_, (h i).2⟩
  rintro ⟨k, -⟩
  rw [(h i).1] at k
  exact k.elim nofun nofun

/-- The top of screen 5 has nothing beneath; a title at level 5 beneath; a request for its own level; a top at level 0. -/
theorem witness_BlankPressed_carried :
    let x := (onScreen5 (some (shown none)) none none none none State.reset).screen 5
    let y := x.setEntry 5 (some { shown none with serial := 2 })
    let z := x.setPending 4 asked
    let o := { State.reset.screen 5 with onScreen := .entry 0 3 }.setEntry 0 (shown none)
    (∀ l : Level, x.stack[l].bind (·.endTime) = none) ∧ (∀ l : Level, x.pendingAt[l] = none) ∧
      x.visibleTop = some (4, shown none) ∧ x.onScreen ≠ .unknown ∧ (x.setEntry 4 none).visibleTop = none ∧
      x.onScreen ≠ .blank ∧ (∀ l : Level, y.stack[l].bind (·.endTime) = none) ∧
      y.visibleTop = some (4, shown none) ∧
      (y.setEntry 4 none).visibleTop = some (5, { shown none with serial := 2 }) ∧ y.onScreen ≠ .entry 5 2 ∧
      (∀ l : Level, z.stack[l].bind (·.endTime) = none) ∧ z.pendingAt[(4 : Level)] = some asked ∧ asked.level = 4 ∧
      asked.release ≤ 35000 ∧ asked.endTime = none ∧ z.masked 4 = false ∧
      (∀ m : Level, m ≠ 4 → z.pendingAt[m] = none) ∧ (z.setEntry 4 none).visibleTop = none ∧
      o.visibleTop = some (0, shown none) ∧ o.onScreen = .entry 0 (shown none).serial := by decide

/-- R129: BLANK on a BUSY link waits, and the DONE that makes it READY takes the title down with a CLEAR. -/
theorem test_held_blank_is_carried_out :
    let s := linked .busy (onScreen5 (some (shown none)) none none none none (house .running (.sec 0) State.reset))
    let u := after (.done 9 5 6) (after (.blank 5) s)
    ((after (.blank 5) s).screen 5).blankPending = true ∧ (u.screen 5).stack[(4 : Level)] = none ∧
      u.sent = [(5, [126, 3, 3, 7, 0, 243])] ∧ (u.screen 5).blankPending = false := by decide +kernel

/-- That screen as the mirror source of screen 0, whose link is READY or DOWN. -/
theorem witness_BlankPressed_mirror :
    let s := mirrored 5 0 (linked .ready (onScreen5 (some (shown none)) none none none none
      (house .ended .endOfShow State.reset)))
    s.arb.mirror = some (5, 0) ∧ s.isMonitor 5 = false ∧ (s.link 0).state ≠ .ready ∧
      ((s.setLink 0 (linkIn .ready)).link 0).state = .ready := by decide

/-- An edge at the end of a window is accepted, one before it is set aside; the level at a window's end. -/
theorem witness_FreezeAccepted :
    let s : State := { State.reset with desk := { State.reset.desk with freezeWindow := some 8000 } }
    let r := s.setLine .freeze { s.line .freeze with level := true }
    (∀ w, s.desk.freezeWindow = some w → w ≤ max s.clock 8000) ∧ true ≠ s.desk.freezeLevel ∧
      s.desk.freezeWindow = some 8000 ∧ max s.clock 7999 < 8000 ∧ (s.line .freeze).level = s.desk.freezeLevel ∧
      r.desk.freezeWindow = some 8000 ∧ (r.line .freeze).level ≠ r.desk.freezeLevel ∧ (r.line .freeze).level = true := by
  refine ⟨?_, by decide, rfl, by decide, by decide, rfl, by decide, by decide⟩
  intro w h
  cases h
  exact by decide

/-- The release of FREEZE with one DUE entry, complete, in the list. -/
theorem witness_FreezeAccepted_releases :
    let s := frozen (withArmed [{ gated with timing := .due }] (house .running (.sec 2) State.reset))
    let r : State := { s with desk := { s.desk with freezeLevel := true } }
    r.desk.freezeWindow = none ∧ r.desk.freezeLevel = true ∧ r.ctl.engine = .running ∧
      r.sch.armed = [{ gated with timing := .due }] ∧ (∀ p ∈ gated.keys, p.2 ≠ .pending) ∧ r.wlk.owedGo = none := by
  decide

/-- A lockout that ends at 2,000,000, and the first and the eighth synthetic beat. -/
theorem witness_TrackerTimers :
    let s := tracking .tracking (some 750000) (some 2000000) (house .running (.sec 0) State.reset)
    let r : State := { s with trk := { s.trk with state := .freewheel, synthetic := 7 } }
    s.trk.lockout = some 2000000 ∧ 2000000 ≤ max s.clock 2000000 ∧ s.trk.timeout = some 750000 ∧
      750000 ≤ max s.clock 750000 ∧ s.nothingFires ∧ s.trk.state = .tracking ∧ s.trk.synthetic + 1 < 8 ∧
      r.trk.state = .freewheel ∧ 8 ≤ r.trk.synthetic + 1 ∧ r.nothingFires :=
  ⟨rfl, by decide, rfl, by decide, .inr rfl, rfl, by decide, rfl, by decide, .inr rfl⟩

/-- A TIMED entry whose fire time is 9,000. -/
def timed : Armed := { armedGo with timing := .timed, fire := some 9000, appear := some 44000, lead := some 35000 }

theorem witness_FireTimerExpires : let s := withArmed [timed] (house .running (.sec 2) State.reset)
    (frozen s).sch.freeze = true ∧ (frozen s).armedEntry timed.cue timed.pass = some timed ∧ timed.timing = .timed ∧
      timed.fire = some 9000 ∧ 9000 ≤ max s.clock 9000 ∧ s.ctl.engine = .running ∧ s.sch.freeze = false ∧
      s.sch.armed = [timed] ∧ (∀ p ∈ timed.keys, p.2 ≠ .pending) ∧ s.wlk.owedGo = none :=
  ⟨rfl, by decide, rfl, rfl, by decide, rfl, rfl, rfl, by decide, rfl⟩

/-- Two POSITION entries of one position, the second a later cue with a shorter lead. -/
def pair : List Armed :=
  let e := { timed with sec := 0, target := some (8, 60) }
  [{ e with cue := 0 }, { e with fire := some 9500, lead := some 34500 }]

/-- Under FREEZE at 9,000 one is due and the other not; at 9,500 both are, in RUNNING too. -/
theorem witness_FireTimerExpires_shared : let s := withArmed pair (house .running (.sec 0) State.reset)
    (frozen s).armedEntry 0 1 = pair.head? ∧ s.sch.armed = [pair[0], pair[1]] ∧ pair[0].cue < pair[1].cue ∧
      pair[1].sec = pair[0].sec ∧ pair[1].pass = pair[0].pass ∧ pair[0].target ≠ none ∧
      pair[1].target = pair[0].target ∧ pair[0].timing = .timed ∧ pair[1].timing = .timed ∧
      pair[0].fire = some 9000 ∧ pair[1].fire = some 9500 ∧ max s.clock 9000 < 9500 ∧ 9500 ≤ max s.clock 9500 ∧
      (∀ e ∈ pair, ∀ p ∈ e.keys, p.2 ≠ .pending) ∧ s.ctl.engine = .running ∧ s.sch.freeze = false ∧
      s.wlk.owedGo = none := by decide

/-- A FOLLOW entry behind the one that fires, TIMED from an earlier fire of it: delays of 2,000,000 and of 0 µs. -/
theorem witness_FireTimerExpires_follower :
    let s := withArmed [timed, { following with cue := 2 }] (house .running (.sec 2) State.reset)
    let at0 := { following with cue := 2, copy := { following.copy with anchor := .follow 0 } }
    s.sch.armed = [timed, { following with cue := 2 }] ∧ following.pass = timed.pass ∧
      following.copy.anchor = .follow 2000000 ∧ at0.copy.anchor = .follow 0 ∧ following.target = none ∧
      following.timing ≠ .due ∧ (∀ p ∈ timed.keys, p.2 ≠ .pending) ∧ (∀ i, (s.screen i).staged = none) ∧
      max s.clock 9000 < 44000 + 2000000 - s.cueLead following.copy ∧
      44000 + 0 - s.cueLead at0.copy ≤ max s.clock 44000 ∧ (∀ p ∈ at0.keys, p.2 ≠ .pending) := by decide

/-- R90: a FOLLOW entry that is TIMED is timed again as its predecessor fires. -/
theorem test_follower_is_timed_again :
    let s := withArmed [timed, { following with cue := 2 }] (house .running (.sec 2) State.reset)
    (after (.fireTimer 9000 1 1) s).sch.armed.map (fun e => (e.cue, e.appear, e.timing)) =
      [(2, some 2044000, .timed)] := by decide +kernel

/-- R91: a masked language without a key is NOT REQUESTED also where the mirror monitor alone names it. -/
theorem test_monitor_layout_counts_as_naming :
    let s := mirrored 0 5 (State.reset.setScreen 5 balcony)
    let e := { timed with copy := { timed.copy with scope := 33 } }
    s.missingReason e 0 = some 3 ∧ State.reset.missingReason e 0 = none := by decide

/-- R9: with equal fire times the second entry's timer fires both, the lower cue index first. -/
theorem test_shared_position_fires_in_order :
    let s := withArmed (pair.map fun e => { e with fire := some 9000 }) (house .running (.sec 0) State.reset)
    (after (.fireTimer 9000 1 1) s).sch.armed = [] ∧
      (after (.fireTimer 9000 1 1) s).smi.journalQueue.map (·.body) =
        [.cueFired 1 0 0 2 0 9 0 44000 9000, .cueFired 1 0 0 2 1 9 0 44000 9000] := by decide +kernel

/-- A TITLE of screens 0 and 5 with its key PRESENT, and a BLANK of them. -/
def timedIn (a : Action) : Armed :=
  { timed with copy := { cue42 with action := a }, keys := [(⟨42, 0⟩, .present 5 9)] }

/-- The TITLE reaches screen 5, empty on a READY link; the BLANK waits; the fire at 29,001 is late, at 29,000 not. -/
theorem witness_FireTimerExpires_places :
    let s := withArmed [timedIn .title] (house .running (.sec 2) theHouse)
    (s.screen 5).titleTuples (timedIn .title) ≠ [] ∧ (timedIn .title).copy.scope.getLsbD 5 = true ∧
      s.isMonitor 5 = false ∧ (timedIn .blank).copy.action = .blank ∧ s.wlk.inForce ≠ .endOfShow ∧
      max s.clock 8999 < (s.firedRequest (timedIn .blank) 0 []).release ∧ (s.link 5).state = .ready ∧
      (s.screen 5).masked 4 = false ∧
      (∀ m : Level, (s.screen 5).stack[m] = none ∧ (s.screen 5).pendingAt[m] = none) ∧
      (∀ i, (s.screen i).pendingAt[(timedIn .title).copy.level] = none) ∧ s.smi.journalQueue.length < 15 ∧
      9000 + s.sch.lateTolerance < max s.clock 29001 ∧ ¬(9000 + s.sch.lateTolerance < max s.clock 29000) := by decide

/-- The release timer of an empty screen, at its instant; the standing premises hold of each state of the kind. -/
theorem witness_ScreenTimers_release :
    let s := linked .ready (onScreen5 none (some asked) (some 35000) none none State.reset)
    s.arb.mirror = none ∧ (s.link 5).state = .ready ∧ (s.screen 5).blankPending = false ∧
      (s.screen 5).masked 4 = false ∧
      (∀ m : Level, m ≠ 4 → (s.screen 5).stack[m] = none ∧ (s.screen 5).pendingAt[m] = none) ∧
      (s.screen 5).pendingAt[(4 : Level)] = some asked ∧ asked.level = 4 ∧ asked.kind ≠ .blank ∧
      asked.release ≤ max s.clock 35000 ∧ asked.endTime = none ∧ (s.screen 5).releaseTimer = some 35000 ∧
      (s.screen 5).stack[(4 : Level)] = none :=
  ⟨rfl, by decide, by decide, by decide, by decide, by decide, rfl, by decide, by decide, rfl, by decide, by decide⟩

/-- The dwell timer at the instant the minimum dwell has passed. -/
theorem witness_ScreenTimers_dwell :
    let s := linked .ready (onScreen5 (some (shown none)) (some asked) none (some 100000) none State.reset)
    (s.screen 5).pendingAt[(4 : Level)] = some asked ∧ asked.release ≤ max s.clock 100000 ∧
      (s.screen 5).dwellTimer = some 100000 ∧ (s.screen 5).stack[(4 : Level)] = some (shown none) ∧
      (shown none).visibleSince = some 0 ∧ 0 + (shown none).minDwell.getD 0 ≤ max s.clock 100000 ∧
      (shown none).endTime = none ∧ (s.link 5).state = .ready :=
  ⟨by decide, by decide, by decide, by decide, rfl, by decide, rfl, by decide⟩

/-- The notice timer at the notice's end. -/
theorem witness_ScreenTimers_notice :
    let s := linked .ready (onScreen5 (some (shown (some 4000000))) none none none (some 4000000) State.reset)
    (s.screen 5).noticeTimer = some 4000000 ∧ (s.screen 5).pendingAt[(4 : Level)] = none ∧
      (s.screen 5).stack[(4 : Level)] = some (shown (some 4000000)) ∧ (shown (some 4000000)).endTime = some 4000000 ∧
      4000000 ≤ max s.clock 4000000 ∧ (s.screen 5).onScreen = .entry 4 (shown (some 4000000)).serial :=
  ⟨by decide, by decide, by decide, rfl, by decide, by decide⟩

/-- Screen 5 with an entry at a level, shown, and a request that its release timer finds. -/
def overlaid (m : Level) (y : Entry) (r : Request) (k : LinkState) : State :=
  let x := ((State.reset.screen 5).setEntry m y).setPending r.level r
  linked k (State.reset.setScreen 5 { x with onScreen := .entry m y.serial, releaseTimer := some 35000 })

/-- The request stands alone, and no notice runs. -/
theorem witness_ScreenTimers_over (m : Level) (k : LinkState) : let s := overlaid m (shown none) asked k
    (s.screen 5).releaseTimer = some 35000 ∧ s.oneRequest 5 4 asked (max s.clock 35000) := by
  have h : ∀ m n : Level, (((overlaid m (shown none) asked .down).screen 5).stack[n].bind (·.endTime)) = none := by decide
  refine ⟨rfl, rfl, rfl, by cases k <;> revert m <;> decide, rfl, rfl, by cases k <;> revert m <;> decide, rfl, rfl,
    by cases k <;> revert m <;> decide, ?_⟩
  intro n y e
  have h := h m n
  change ((overlaid m (shown none) asked k).screen 5).stack[n].bind (·.endTime) = none at h
  rwa [e] at h

/-- Pushed over a lower title; put below a higher one; put in place of one not shown; DEFERRED by one shown. -/
theorem witness_ScreenTimers_judged : let lost := { shown none with visibleSince := none }
    ((overlaid 5 (shown none) asked .ready).screen 5).visibleTop = some (5, shown none) ∧ (4 : Level) < 5 ∧
      ((overlaid 5 (shown none) asked .ready).link 5).state = .ready ∧
      ((overlaid 5 (shown none) asked .busy).link 5).state ≠ .ready ∧
      ((overlaid 3 (shown none) asked .busy).screen 5).visibleTop = some (3, shown none) ∧
      ((overlaid 3 (shown none) asked .busy).screen 5).onScreen = .entry 3 (shown none).serial ∧
      ((overlaid 4 lost asked .faulted).screen 5).visibleTop = some (4, lost) ∧
      ((overlaid 4 (shown none) asked .ready).screen 5).visibleTop = some (4, shown none) ∧
      max 0 99999 < 0 + (shown none).minDwell.getD 0 ∧ 0 + (shown none).minDwell.getD 0 ≤ max 0 100000 := by decide

/-- A BLANK at an empty level of a dark screen, of a title not shown, and of the shown top at the end of its dwell. -/
theorem witness_ScreenTimers_blanks : let b := { asked with kind := .blank }
    let s := onScreen5 none (some b) (some 35000) none none State.reset
    let r := overlaid 4 (shown none) b .ready
    (s.screen 5).stack[(4 : Level)] = none ∧ (s.screen 5).visibleTop = none ∧ (s.screen 5).onScreen = .blank ∧
      ((overlaid 3 (shown none) b .ready).screen 5).isShownTop 4 = false ∧
      (r.screen 5).visibleTop = some (4, shown none) ∧ 0 + (shown none).minDwell.getD 0 ≤ max r.clock 100000 ∧
      (r.link 5).state = .ready ∧ (r.screen 5).onScreen = .entry 4 (shown none).serial ∧
      ∀ m : Level, m ≠ 4 → (r.screen 5).stack[m] = none := by decide

theorem witness_CarrierChanges : (State.reset.link 5).state = .down ∧
    ((linked .ready State.reset).link 5).state ≠ .down ∧ ((linked .busy State.reset).link 5).state = .busy := by decide

/-- R141 step 5: the one BUSY link loses its carrier, and a held PAUSE completes. -/
theorem test_carrier_loss_completes_pause : let s := linked .busy (house .pausing (.sec 0) State.reset)
    let p : State := { s with ctl := { s.ctl with heldPause := some 3 } }
    (after (.carrierLoss 5 5) p).ctl.engine = .paused ∧ (after (.carrierLoss 5 5) p).ctl.heldPause = none := by
  decide +kernel

/-- A HELLO-REPLY with F = 2000 ms and 4 slots, one with 5 slots, and the retry timer at its instant; a monitor, and a
screen whose notice has not ended. -/
theorem witness_HelloExchange : let s := linked .probing State.reset
    let n := onScreen5 (some (shown (some 4000000))) none none none none s
    (s.link 5).state = .probing ∧ (s.link 5).retryTimer = some 1000000 ∧ 1000000 ≤ max s.clock 1000000 ∧
      2000 ≤ 2000 ∧ 1 ≤ 4 ∧ 4 ≤ 4 ∧ (mirrored 0 5 s).arb.mirror = some (0, 5) ∧ n.isMonitor 5 = false ∧
      (n.link 5).state = .probing ∧ (n.screen 5).stack[(4 : Level)] = some (shown (some 4000000)) ∧
      (∀ l : Level, l ≠ 4 → (n.screen 5).stack[l] = none) ∧ max n.clock 3999999 < 4000000 ∧
      ¬((s.link 5).state = .probing ∧ (s.link 5).tag = 6 ∧ 0 ≤ 2000 ∧ 1 ≤ 5 ∧ 5 ≤ 4) := by decide

/-- On screen 5 a notice of end 4,000,000 and a request for 35,000: the visible top before its end, and none from it on;
and a monitor whose source shows a title, or nothing. -/
theorem witness_HelloExchange_resync : let s := linked .probing State.reset
    let n := onScreen5 (some (shown (some 4000000))) (some { asked with release := 4000001 }) none none none s
    let m := mirrored 0 5 (s.setScreen 0 (proscenium.setEntry 4 (some (shown none))))
    ((n.screen 5).noticesEnded 3999999).visibleTop = some (4, shown (some 4000000)) ∧
      ((n.screen 5).noticesEnded 4000000).visibleTop = none ∧
      ((n.screen 5).noticesEnded 3999999).nothingReleased 3999999 ∧
      ((n.screen 5).noticesEnded 4000000).nothingReleased 4000000 ∧ (n.link 5).state = .probing ∧
      n.smi.journalQueue.length < 16 ∧ (m.link 5).state = .probing ∧ m.arb.mirror = some (0, 5) ∧
      (m.screen 0).visibleTop = some (4, shown none) ∧ ((mirrored 0 5 s).screen 0).visibleTop = none :=
  ⟨by decide, by decide, nothing_released _ _ (by decide), nothing_released _ _ (by decide), by decide⟩

/-- A reply with the tag of the operation, one with another tag, and the reply timer at its instant. -/
theorem witness_RepliesTaken : let s := linked .busy State.reset
    (s.link 5).state = .busy ∧ (∃ o, (s.link 5).op = some o ∧ o.tag = 6) ∧ (s.link 5).replyTimer = some 250000 ∧
      250000 ≤ max s.clock 250000 ∧ ¬((State.reset.link 5).state = .busy) :=
  ⟨by decide, ⟨_, rfl, rfl⟩, by decide, by decide, by decide⟩

/-- A screen without notices, and nothing pending, is settled. -/
theorem settled_without_notices (x : Screen) (now : Time) (hb : x.blankPending = false)
    (hp : ∀ l : Level, x.pendingAt[l] = none) (hs : ∀ l : Level, x.stack[l].bind (·.endTime) = none) :
    x.settled now := by
  refine ⟨hb, hp, ?_⟩
  intro l e T h ht
  have hs := hs l
  rw [h] at hs
  exact absurd (hs.symm.trans ht) nofun

/-- Screen 5 on a BUSY link: shown as it should be, with a title to show, and with one to take down. -/
theorem witness_RepliesTaken_settled : let s := linked .busy (onScreen5 (some (shown none)) none none none none State.reset)
    let dark := s.setScreen 5 { s.screen 5 with onScreen := .blank }
    let gone := s.setScreen 5 { (s.screen 5).setEntry 4 none with onScreen := .entry 4 3 }
    (s.screen 5).settled 5 ∧ (dark.screen 5).settled 5 ∧ (gone.screen 5).settled 5 ∧ (s.screen 5).agrees ∧
      (dark.screen 5).visibleTop = some (4, shown none) ∧ (dark.screen 5).onScreen ≠ .entry 4 (shown none).serial ∧
      (dark.screen 5).onScreen ≠ .unknown ∧ (gone.screen 5).visibleTop = none ∧ (gone.screen 5).onScreen ≠ .blank ∧
      (s.screen 5).clearOwed = false ∧ s.isMonitor 5 = false ∧ s.smi.journalQueue.length < 16 :=
  ⟨settled_without_notices _ _ rfl (by decide) (by decide), settled_without_notices _ _ rfl (by decide) (by decide),
    settled_without_notices _ _ rfl (by decide) (by decide), .inr ⟨4, shown none, by decide, by decide⟩, by decide⟩

/-- The mirror monitor with a copy held and without, a CLEAR owed, and a held PAUSE. -/
theorem witness_RepliesTaken_owed : let s := mirrored 0 5 (linked .busy State.reset)
    let m : State := { s with arb := { s.arb with hold := some (clearMessage .cut) } }
    let c := (linked .busy State.reset).setScreen 5 { Screen.reset with clearOwed := true }
    let p : State := { c with ctl := { c.ctl with heldPause := some 3 } }
    s.isMonitor 5 = true ∧ s.arb.hold = none ∧ m.isMonitor 5 = true ∧ m.arb.hold = some (clearMessage .cut) ∧
      c.isMonitor 5 = false ∧ (c.screen 5).clearOwed = true ∧ (c.link 5).state = .busy ∧ c.ctl.heldPause = none ∧
      p.ctl.heldPause = some 3 := by decide

/-- A desk BLANK that waits, a request that waits, and a notice whose end is reached, on a BUSY link. -/
theorem witness_RepliesTaken_waiting :
    let s := linked .busy (onScreen5 (some (shown (some 4000000))) none none none none State.reset)
    let b := s.setScreen 5 { s.screen 5 with blankPending := true }
    (b.screen 5).blankPending = true ∧ (b.screen 5).clearOwed = false ∧ b.isMonitor 5 = false ∧
      (overlaid 4 (shown none) asked .busy).oneRequest 5 4 asked 35000 ∧
      ((overlaid 4 (shown none) asked .busy).screen 5).clearOwed = false ∧ (s.screen 5).blankPending = false ∧
      (∀ m : Level, (s.screen 5).pendingAt[m] = none) ∧
      (s.screen 5).stack[(4 : Level)] = some (shown (some 4000000)) ∧
      (shown (some 4000000)).endTime = some 4000000 ∧ 4000000 ≤ max s.clock 4000000 ∧
      (∀ m : Level, m ≠ 4 → (s.screen 5).stack[m] = none) ∧
      (s.screen 5).onScreen = .entry 4 (shown (some 4000000)).serial :=
  ⟨rfl, rfl, rfl, (witness_ScreenTimers_over 4 .busy).2, rfl, rfl, by decide, by decide, rfl, by decide, by decide,
    by decide⟩

/-- R119: a link that becomes READY evaluates its screen: a BLANK that finds nothing is discarded with the resync. -/
theorem test_ready_judges_requests : let b := { asked with kind := .blank }
    let s : State := { linked .ready (onScreen5 none (some b) (some 35000) none none State.reset) with clock := 35000 }
    ((s.resync 5).screen 5).pendingAt[(4 : Level)] = none ∧ ((s.resync 5).link 5).state = .busy := by decide +kernel

/-- The bytes of DONE of tag 7 between its start byte and its check, 1,000 µs apart. -/
def slowDone : List (Time × Byte) := [(1000, 2), (2000, 130), (3000, 7)]

/-- A SHOW with lines for slots 0 and 3, speaker 255 and the prefix drawn. -/
def widest : Message :=
  { isShow := true, slots := #v[⟨some 7, some 0x01020304⟩, ⟨none, none⟩, ⟨none, none⟩, ⟨some 1, some 5⟩]
    speaker := some 255, drawPrefix := true, override := .default, subject := none }

/-- A DONE frame whose bytes come 1,000 µs apart, and the length and check of a frame that is discarded; the largest
speaker of a SHOW, and a CLEAR. -/
theorem witness_FramesSentAndRead : 2000 < 65536 ∧ 4 < 256 ∧ (0 : Byte) ≠ 7 ∧ Receiver.reset.partialFrame = none ∧
    (slowDone ++ [(4000, 117)]).length = u8 ((slowDone ++ [((4000, 117) : Time × Byte)]).map (·.2)) 0 + 2 ∧
    (((0, 126) :: slowDone ++ [(4000, 117)]).IsChain fun (x y : Time × Byte) => y.1 ≤ x.1 + 1000) ∧
    (u8 [3, 130, 7, 0, 116] 1 ≠ 129 ∧ u8 [3, 130, 7, 0, 116] 0 ≠ 2 ∧ u8 [3, 130, 7, 0, 116] 1 ≠ 131) ∧
    (([2, 130, 7, 116] : List Byte).map BitVec.toNat).sum % 256 ≠ (0 : Nat) ∧
    (∀ n, (widest.speaker = some n → n < 256)) ∧ widest.isShow = true ∧ (clearMessage .cut).speaker = none ∧
    (clearMessage .cut).isShow = false := by
  refine ⟨by decide, by decide, by decide, rfl, by decide, by decide, by decide, by decide, ?_, rfl, rfl, rfl⟩
  intro n h
  cases h
  exact by decide

/-- "Screen-link messages": that SHOW as FADE with tag 9 on a renderer of two slots, byte by byte. -/
theorem test_show_frame : messageFrame widest 9 .fade 2 = [126, 25, 2, 9, 1, 7, 4, 3, 2, 1, 255, 0, 0, 0, 0,
    255, 0, 0, 0, 0, 255, 0, 0, 0, 0, 255, 1, 205] := by decide

/-- A sound state that steps: the state after a power-on reset with a carrier coming up. -/
theorem witness_SoundKept : (State.reset.setPending [.carrierUp 5 5]).sound ∧
    ∃ u, step (State.reset.setPending [.carrierUp 5 5]) = .next u := by
  refine ⟨⟨?_, ?_, ?_, ?_, ?_, ?_, ?_⟩, _, rfl⟩
  · exact fun _ => ⟨rfl, rfl⟩
  · exact ⟨by decide, by decide⟩
  · exact ⟨by decide, by decide⟩
  · intro i
    have h : (State.reset.setPending [.carrierUp 5 5]).link i = Link.reset := by
      fin_cases i <;> rfl
    rw [h]
    exact ⟨by decide, by decide, by decide, by decide, by decide⟩
  · intro i
    have h : (State.reset.setPending [.carrierUp 5 5]).screen i = Screen.reset := by
      fin_cases i <;> rfl
    rw [h]
    exact (by decide : Screen.reset.masked 0 = false)
  · exact (by decide : Walker.reset.history.length ≤ 16)
  · refine ⟨by decide, by decide, fun j w e h => ?_⟩
    have free : ∀ (j : Fin 32) (w : Fin 4), (State.reset.way j w).entry = none := by decide +kernel
    exact absurd ((free j w).symm.trans h) nofun

end Sys2Proof.Tests
end

section
/-! The journal of the Shared Memory Interface: a record produced (R190), and its writes, their faults and the resets
(R191). -/

namespace Sys2Proof.Machine

/-! ### A journal write starts -/

theorem State.startJournalWrite_empty {s : State} (hq : s.smi.journalQueue = []) : s.startJournalWrite = s := by
  unfold State.startJournalWrite
  split
  · next h => cases hq.symm.trans h
  · rfl

theorem State.startJournalWrite_idle {s : State} {r : JournalRecord} {rs : List JournalRecord}
    (hp : s.smi.journalPhase = .idle) (hq : s.smi.journalQueue = r :: rs) :
    s.startJournalWrite = { s with smi := { s.smi with journalPhase := .record } }.enqueue
      (.writing .journalRecord (s.journalAddress r.seq) r.bytes .urgent) := by
  unfold State.startJournalWrite
  rw [hp, hq]

theorem State.startJournalWrite_journalLost (s : State) :
    s.startJournalWrite.smi.journalLost = s.smi.journalLost := by
  unfold State.startJournalWrite
  split <;> rfl

/-! ### A record produced -/

theorem State.journalAt_full (t : Time) (b : Journal) {s : State} (h : 16 ≤ s.smi.journalQueue.length) :
    s.journalAt t b = { s with smi := { s.smi with journalCount := (s.smi.journalCount + 1) % 4294967296 } } := by
  unfold State.journalAt
  exact if_neg (Nat.not_lt.2 h)

/-- A record takes the journal count and stands at the tail of the queue. -/
def State.joinJournal (t : Time) (b : Journal) (s : State) : State :=
  { s with smi := { s.smi with
    journalCount := (s.smi.journalCount + 1) % 4294967296
    journalQueue := s.smi.journalQueue ++ [⟨s.smi.journalCount, t, b⟩] } }

/-- A record that the queue has room for joins it, and starts its own write where no other is outstanding. -/
theorem State.journalAt_room (t : Time) (b : Journal) {s : State} (h : s.smi.journalQueue.length < 16) :
    s.journalAt t b = (s.joinJournal t b).startJournalWrite := by
  unfold State.journalAt
  exact if_pos h

/-- A record that joins the empty queue of an idle journal is being written at once. -/
theorem State.journalAt_first (t : Time) (b : Journal) {s : State} (hq : s.smi.journalQueue = [])
    (hp : s.smi.journalPhase = .idle) :
    (s.journalAt t b).smi.journalPhase = .record ∧ (s.journalAt t b).smi.port.holds (.writing .journalRecord
      (s.journalAddress s.smi.journalCount) (JournalRecord.bytes ⟨s.smi.journalCount, t, b⟩) .urgent) := by
  have room : s.smi.journalQueue.length < 16 := by simp [hq]
  have alone : (s.joinJournal t b).smi.journalQueue = [⟨s.smi.journalCount, t, b⟩] := by
    simp [State.joinJournal, hq]
  rw [State.journalAt_room t b room, State.startJournalWrite_idle (s := s.joinJournal t b) hp alone]
  exact ⟨rfl, State.enqueue_holds _ _⟩

/-- Settles O38: the count and the queue are those of `State.journalAt_journal`, and a full queue starts no write. -/
theorem recordProduced : Obligations.RecordProduced := by
  intro t b s
  obtain ⟨count, queue⟩ := State.journalAt_journal t b s
  refine ⟨?_, fun room => ?_, fun full => ?_⟩
  · rw [count]
    split <;> omega
  · rw [queue, if_pos room]
  · rw [State.journalAt_full t b full]
    exact ⟨rfl, rfl⟩

/-! ### A record write ends -/

/-- The count write that follows the write of the oldest record. -/
theorem State.writeJournalCount_cons {s : State} {r : JournalRecord} {rs : List JournalRecord}
    (hq : s.smi.journalQueue = r :: rs) :
    s.writeJournalCount = { s with smi := { s.smi with journalPhase := .count } }.enqueue
      (.writing .journalCount s.smi.base (le 4 ((r.seq + 1) % 4294967296)) .urgent) := by
  unfold State.writeJournalCount
  rw [hq]
  rfl

theorem execJournalRecordWrite_answered (t : Time) {s : State} (h : s.answering .journalRecord) :
    exec (.journalRecordWrite t) s = .next (s.begin t).writeJournalCount.freePort :=
  congrArg Host.Outcome.next (State.answer_eq (State.answering_begin t h) rfl)

/-! ### A count write ends, or a write is lost -/

theorem execJournalCountWrite_answered (t : Time) {s : State} (h : s.answering .journalCount) :
    exec (.journalCountWrite t) s = .next ((s.begin t).setCause .journal).dropJournalHead.freePort :=
  congrArg Host.Outcome.next (State.answer_eq (act := fun s => (s.setCause .journal).dropJournalHead)
    (State.answering_begin t h) rfl)

/-- What the end of a journal write leaves: the oldest record alone has left the queue. -/
theorem State.dropJournalHead_smi (s : State) :
    s.dropJournalHead.smi.flags = s.smi.flags ∧ s.dropJournalHead.smi.journalCount = s.smi.journalCount ∧
      s.dropJournalHead.smi.journalQueue = s.smi.journalQueue.tail ∧
      s.dropJournalHead.smi.journalLost = s.smi.journalLost := by
  obtain ⟨-, flags, -, -, -, count, queue, -⟩ := State.startJournalWrite_registers
    { s with smi := { s.smi with journalPhase := .idle, journalQueue := s.smi.journalQueue.tail } }
  exact ⟨flags, count, queue, State.startJournalWrite_journalLost _⟩

/-- The journal writes nothing once its last record has left it. -/
theorem State.dropJournalHead_last {s : State} (hq : s.smi.journalQueue.tail = []) :
    s.dropJournalHead.smi.journalPhase = .idle := by
  unfold State.dropJournalHead
  rw [State.startJournalWrite_empty hq]

/-- The next record is written behind the access that ends, and the port holds its write when that has left. -/
theorem State.dropJournalHead_next {s : State} {f : InFlight} {q : JournalRecord} {qs : List JournalRecord}
    (hf : s.smi.port.inFlight = some f) (hq : s.smi.journalQueue.tail = q :: qs) :
    s.dropJournalHead.smi.journalPhase = .record ∧ s.dropJournalHead.freePort.smi.port.holds
      (.writing .journalRecord (s.journalAddress q.seq) q.bytes .urgent) := by
  unfold State.dropJournalHead
  rw [State.startJournalWrite_idle rfl hq]
  exact ⟨rfl, State.enqueue_freePort_holds _ hf⟩

/-- A write is lost: it is counted, and CAUSE.MEMORY is set. -/
def State.loseJournalWrite (s : State) : State :=
  { s with smi := { s.smi with journalLost := bump s.smi.journalLost } }.setCause .memory

/-- A fault of a journal write is a lost write, and then the end of the write as any other (R191). -/
theorem State.journalFaulted_eq (s : State) : s.journalFaulted = s.loseJournalWrite.dropJournalHead := rfl

/-- A journal write that has had no answer for 100 µs is told to the journal, and the port is freed: no MEMORY FAULT
record is produced (R185, R191). -/
theorem execAccessTimeout_journal (t : Time) {s : State} {f : InFlight} (hf : s.smi.port.inFlight = some f)
    (ha : f.abandoned = false) (ht : f.granted + 100 ≤ max s.clock t)
    (hp : f.access.purpose = .journalRecord ∨ f.access.purpose = .journalCount) :
    exec (.accessTimeout t) s = .next (s.begin t).journalFaulted.freePort := by
  have journals : f.access.purpose.isJournal = true := by rcases hp with hp | hp <;> rw [hp] <;> rfl
  have told : (s.begin t).tellFault f.access.purpose = (s.begin t).journalFaulted := by
    rcases hp with hp | hp <;> rw [hp] <;> rfl
  change Host.Outcome.next (s.begin t).timeOut = _
  unfold State.timeOut
  rw [State.begin_smi, hf]
  simp only [State.begin_clock, Config.accessLimit, ht, ha, journals, told, if_true]
  rfl

/-! ### The resets -/

/-- The records queued are numbered from 0 in order, and while the queue has room the next number is their count. -/
def State.journalNumbered (s : State) : Prop :=
  s.smi.journalQueue.map (·.seq) = List.range s.smi.journalQueue.length ∧
    (s.smi.journalQueue.length < 16 → s.smi.journalCount = s.smi.journalQueue.length)

theorem State.journalNumbered_empty {s : State} (hq : s.smi.journalQueue = []) (hc : s.smi.journalCount = 0) :
    s.journalNumbered := by
  simp [State.journalNumbered, hq, hc]

theorem State.journalAt_numbered (t : Time) (b : Journal) {s : State} (h : s.journalNumbered) :
    (s.journalAt t b).journalNumbered := by
  obtain ⟨seqs, next⟩ := h
  obtain ⟨count, queue⟩ := State.journalAt_journal t b s
  unfold State.journalNumbered
  rw [count, queue]
  by_cases room : s.smi.journalQueue.length < 16
  · rw [if_pos room]
    refine ⟨?_, fun _ => ?_⟩
    · simp [seqs, next room, List.range_succ]
    · rw [next room, List.length_append, List.length_singleton]
      omega
  · rw [if_neg room]
    exact ⟨seqs, fun h => absurd h room⟩

/-- Whatever a reset does after it has set its values, the journal it starts stays numbered. -/
theorem Show.journalNumbered : Show State.journalNumbered where
  journalAt t b _ h := State.journalAt_numbered t b h
  smi m s hm h := by
    obtain ⟨-, -, -, -, count, queue, -⟩ := hm
    unfold State.journalNumbered
    rw [count, queue]
    exact h
  setScreen _ _ _ _ h := h
  send _ _ _ _ h := h
  setArb _ _ _ h := h
  setCause _ _ h := h
  enqueue _ _ h := h
  setCtl _ _ h := h
  setLink _ _ _ _ h := h
  transmit _ _ _ h := h
  setTracker _ _ h := h
  setWalker _ _ _ h := h
  setSch _ _ _ _ h := h
  setPort _ _ _ h := h
  setDesk _ _ h := h
  setDu _ _ _ h := h
  setScheduler _ _ h := h
  freePort _ h := h

/-- A soft reset leaves in the journal its own records alone, numbered from 0. -/
theorem execReset_numbered (t : Time) (v : BitVec 32) (s : State) :
    ∃ u, exec (.reset t v) s = .next u ∧ u.journalNumbered := by
  have reset : (s.begin t).softReset.journalNumbered :=
    Show.journalNumbered.softReset _ (State.journalNumbered_empty rfl rfl)
  refine ⟨_, rfl, ?_⟩
  split
  · exact Show.journalNumbered.toBus.requestScan _ reset
  · exact reset

/-! ### The journal's writes -/

/-- Settles O39: each answer and each fault is one equation of `exec`, and what it leaves is what
`State.writeJournalCount` or `State.dropJournalHead` leaves; the resets by the invariant `State.journalNumbered`. -/
theorem journalWrites : Obligations.JournalWrites := by
  refine ⟨?first, ?recordWritten, ?countLast, ?countNext, ?faulted, rfl, rfl, ?reset⟩
  case first => exact fun t b s hq hp => State.journalAt_first t b hq hp
  case recordWritten =>
    intro t s r rs h hq
    obtain ⟨f, hf, -, -⟩ := State.answering_busy h
    refine ⟨_, execJournalRecordWrite_answered t h, ?_⟩
    rw [State.writeJournalCount_cons (s := s.begin t) hq]
    exact ⟨rfl, rfl, rfl, State.enqueue_freePort_holds _ hf⟩
  case countLast =>
    intro t s r h hq
    obtain ⟨flags, -, queue, -⟩ := State.dropJournalHead_smi ((s.begin t).setCause .journal)
    have left : s.smi.journalQueue.tail = [] := by rw [hq]; rfl
    exact ⟨_, execJournalCountWrite_answered t h, State.dropJournalHead_last left, queue.trans left, flags⟩
  case countNext =>
    intro t s r q rs h hq
    obtain ⟨f, hf, -, -⟩ := State.answering_busy h
    obtain ⟨flags, -, queue, -⟩ := State.dropJournalHead_smi ((s.begin t).setCause .journal)
    have left : s.smi.journalQueue.tail = q :: rs := by rw [hq]; rfl
    obtain ⟨phase, port⟩ := State.dropJournalHead_next (s := (s.begin t).setCause .journal) hf left
    exact ⟨_, execJournalCountWrite_answered t h, phase, queue.trans left, flags, port⟩
  case faulted =>
    intro t s f r rs hf ha ht hp hq
    obtain ⟨flags, count, queue, lost⟩ := State.dropJournalHead_smi (s.begin t).loseJournalWrite
    have left : (s.begin t).loseJournalWrite.smi.journalQueue.tail = rs := congrArg List.tail hq
    refine ⟨_, execAccessTimeout_journal t hf ha ht hp, ?_⟩
    rw [State.journalFaulted_eq]
    exact ⟨flags, count, queue.trans left, lost.trans (bump_eq _),
      fun hr => State.dropJournalHead_last (left.trans hr),
      fun q qs hr => State.dropJournalHead_next (s := (s.begin t).loseJournalWrite) hf (left.trans hr)⟩
  case reset =>
    intro t v s
    obtain ⟨u, hu, seqs, -⟩ := execReset_numbered t v s
    exact ⟨u, hu, seqs⟩

end Sys2Proof.Machine
end

section
/-! What every command keeps: a sound state stays sound, and the queue, the registers and the host's settings change only
where their rules say. Each follows from `Whole.execAll`. -/

namespace Sys2Proof.Machine

/-! ### A sound state -/

/-- The interface's part of a sound state. -/
def Interface.sound (m : Interface) : Prop := m.port.sound ∧ m.journalSound ∧ m.baseSound

/-- An interface with the same port, journal and BASE is as sound. -/
theorem Interface.sound_congr {m n : Interface} (h : m.sound) (port : n.port = m.port)
    (queue : n.journalQueue = m.journalQueue) (phase : n.journalPhase = m.journalPhase) (base : n.base = m.base) :
    n.sound := by
  unfold Interface.sound Interface.journalSound Interface.baseSound at *
  rw [port, queue, phase, base]
  exact h

/-- Another port that is sound takes the place of the one before. -/
theorem Interface.sound_port {m : Interface} {p : Port} (hp : p.sound) (h : m.sound) : { m with port := p }.sound := by
  obtain ⟨-, journal, base⟩ := h
  exact ⟨hp, journal, base⟩

/-- The journal may go on while its port and its queue keep sound. -/
theorem Interface.sound_journal {m n : Interface} (h : m.sound) (base : n.base = m.base)
    (journal : m.port.sound → m.journalSound → n.port.sound ∧ n.journalSound) : n.sound := by
  obtain ⟨port, queue, aligned⟩ := h
  obtain ⟨port', queue'⟩ := journal port queue
  refine ⟨port', queue', ?_⟩
  unfold Interface.baseSound
  rw [base]
  exact aligned

/-- Emptiness of the queues and of the port is all that its soundness speaks of. -/
theorem Port.sound_of_sameShape {p q : Port} (h : p.sameShape q) (hp : p.sound) : q.sound := by
  obtain ⟨inFlight, urgent, background⟩ := h
  intro hq
  obtain ⟨hu, hb⟩ := hp (inFlight.1 hq)
  exact ⟨urgent.2 hu, background.2 hb⟩

/-- Every elementary update of a command keeps the interface sound. -/
theorem Whole.interfaceSound : Whole (fun s => s.smi.sound) where
  journalAt t b s h := by
    obtain ⟨base, -⟩ := State.journalAt_registers t b s
    exact Interface.sound_journal h base (State.journalAt_sound t b)
  smi m s hm h := by
    obtain ⟨base, -, -, port, -, queue, phase⟩ := hm
    exact Interface.sound_congr h port queue phase base
  setCause _ _ h := h
  enqueue a s h := Interface.sound_port (State.enqueue_sound a s) h
  setCtl _ _ h := h
  setScreen _ _ _ _ h := h
  send _ _ _ _ h := h
  setArb _ _ _ h := h
  setLink _ _ _ _ h := h
  transmit _ _ _ h := h
  setTracker _ _ h := h
  setWalker _ _ _ h := h
  setSch _ _ _ _ h := h
  setPort p s hp h := Interface.sound_port (Port.sound_of_sameShape hp h.1) h
  setDesk _ _ h := h
  setDu _ _ _ h := h
  setScheduler _ _ h := h
  freePort s h := Interface.sound_port (State.freePort_sound s) h
  writeJournalCount s h := by
    obtain ⟨base, -⟩ := State.writeJournalCount_frame s
    exact Interface.sound_journal h base State.writeJournalCount_sound
  dropJournalHead s h := by
    obtain ⟨base, -⟩ := State.dropJournalHead_frame s
    exact Interface.sound_journal h base State.dropJournalHead_sound

/-- The parts of a sound state. -/
theorem State.sound_iff (s : State) : s.sound ↔
    s.smi.sound ∧ (∀ i, (s.link i).sound) ∧ (∀ i, (s.screen i).sound) ∧ s.wlk.sound ∧ s.du.sound := by
  simp [State.sound, Interface.sound, and_assoc]

/-- A sound state stays sound while its interface does and its screens, links, history and titles are as before. -/
theorem State.sound_congr {s u : State} (h : s.sound) (smi : s.smi.sound → u.smi.sound) (arb : u.arb = s.arb)
    (links : u.links = s.links) (wlk : u.wlk = s.wlk) (du : u.du = s.du) : u.sound := by
  rw [State.sound_iff] at *
  obtain ⟨hsmi, hlinks, hscreens, hwlk, hdu⟩ := h
  refine ⟨smi hsmi, fun i => ?_, fun i => ?_, ?_, ?_⟩
  · rw [State.link_congr links]
    exact hlinks i
  · rw [State.screen_congr arb]
    exact hscreens i
  · rw [wlk]
    exact hwlk
  · rw [du]
    exact hdu

theorem State.sound_setScreen {s : State} (i : Screen16) {x : Screen} (hx : x.sound) (h : s.sound) :
    (s.setScreen i x).sound := by
  obtain ⟨port, journal, base, links, screens, wlk, du⟩ := h
  refine ⟨port, journal, base, links, fun j => ?_, wlk, du⟩
  by_cases hj : i = j
  · subst hj
    rw [State.setScreen_screen_self]
    exact hx
  · rw [State.setScreen_screen_ne _ _ hj]
    exact screens j

theorem State.sound_setLink {s : State} (i : Screen16) {k : Link} (hk : k.sound) (h : s.sound) :
    (s.setLink i k).sound := by
  obtain ⟨port, journal, base, links, screens, wlk, du⟩ := h
  refine ⟨port, journal, base, fun j => ?_, screens, wlk, du⟩
  by_cases hj : i = j
  · subst hj
    rw [State.setLink_link_self]
    exact hk
  · rw [State.setLink_link_ne _ _ hj]
    exact links j

theorem State.sound_screen {s : State} (h : s.sound) (i : Screen16) : (s.screen i).sound := by
  obtain ⟨-, -, -, -, screens, -⟩ := h
  exact screens i

theorem State.sound_link {s : State} (h : s.sound) (i : Screen16) : (s.link i).sound := by
  obtain ⟨-, -, -, links, -⟩ := h
  exact links i

theorem Screen.sound_of_mask {x y : Screen} (hm : y.mask = x.mask) (h : x.sound) : y.sound := by
  unfold Screen.sound Screen.masked at *
  rw [hm]
  exact h

/-- Every elementary update of a command keeps a sound state sound. -/
theorem Whole.sound : Whole State.sound where
  journalAt t b s h :=
    State.sound_congr h (Whole.interfaceSound.journalAt t b s) (by simp) (by simp) (by simp) (by simp)
  smi m s hm h := State.sound_congr h (Whole.interfaceSound.smi m s hm) rfl rfl rfl rfl
  setCause f s h := State.sound_congr h (Whole.interfaceSound.setCause f s) rfl rfl rfl rfl
  enqueue a s h := State.sound_congr h (Whole.interfaceSound.enqueue a s) rfl rfl rfl rfl
  setCtl _ _ h := h
  setScreen i _ _ hx h := State.sound_setScreen i (Screen.sound_of_mask hx.1 (State.sound_screen h i)) h
  send i m s hr h := State.sound_setLink i (Link.busy_sound _ _ _ hr (State.sound_link h i)) h
  setArb a s ha h := by
    obtain ⟨port, journal, base, links, screens, wlk, du⟩ := h
    refine ⟨port, journal, base, links, fun i => ?_, wlk, du⟩
    have same : ({ s with arb := a } : State).screen i = s.screen i := by simp [State.screen, ha]
    rw [same]
    exact screens i
  setLink i _ _ hk h := State.sound_setLink i (hk (State.sound_link h i)) h
  transmit _ _ _ h := h
  setTracker _ _ h := h
  setWalker w s hw h := by
    obtain ⟨port, journal, base, links, screens, wlk, du⟩ := h
    exact ⟨port, journal, base, links, screens, hw wlk, du⟩
  setSch _ _ _ _ h := h
  setPort p s hp h := State.sound_congr h (Whole.interfaceSound.setPort p s hp) rfl rfl rfl rfl
  setDesk _ _ h := h
  setDu d s hd h := by
    obtain ⟨port, journal, base, links, screens, wlk, du⟩ := h
    exact ⟨port, journal, base, links, screens, wlk, hd du⟩
  setScheduler _ _ h := h
  freePort s h := State.sound_congr h (Whole.interfaceSound.freePort s) rfl rfl rfl rfl
  writeJournalCount s h := by
    obtain ⟨-, -, -, only⟩ := State.writeJournalCount_frame s
    exact State.sound_congr h (Whole.interfaceSound.writeJournalCount s) (State.onlyBus_arb only)
      (State.onlyBus_links only) (State.onlyBus_wlk only) (State.onlyBus_du only)
  dropJournalHead s h := by
    obtain ⟨-, -, -, only⟩ := State.dropJournalHead_frame s
    exact State.sound_congr h (Whole.interfaceSound.dropJournalHead s) (State.onlyBus_arb only)
      (State.onlyBus_links only) (State.onlyBus_wlk only) (State.onlyBus_du only)

/-! ### The resets -/

theorem Interface.reset_sound : Interface.reset.sound :=
  ⟨fun _ => ⟨rfl, rfl⟩, ⟨by decide, by simp [Interface.reset]⟩, by decide, by decide⟩

/-- A soft reset empties the queues of the port and the journal, and keeps BASE. -/
theorem Interface.softReset_sound {m : Interface} (now : Time) (h : m.sound) : (m.softReset now).sound := by
  obtain ⟨-, -, base⟩ := h
  obtain ⟨-, journal, -⟩ := Interface.reset_sound
  exact ⟨fun _ => ⟨rfl, rfl⟩, journal, base⟩

/-- A link at its reset value is sound, with carrier too. -/
theorem Link.reset_sound (k : Bool) (tag : Byte) : ({ Link.reset with carrier := k, tag := tag } : Link).sound := by
  simp [Link.sound, Link.reset]

/-- A link without carrier is at its reset value after a soft reset, but for its tag. -/
theorem Link.softReset_sound {k : Link} (h : k.carrier = false) : k.softReset.sound := by
  have value : k.softReset = { Link.reset with carrier := false, tag := k.tag } := by simp [Link.softReset, h, Link.reset]
  rw [value]
  exact Link.reset_sound _ _

theorem Screen.reset_sound : Screen.reset.sound := by
  unfold Screen.sound
  decide

theorem Arbiter.reset_screen (i : Screen16) : Arbiter.reset.screens[i] = Screen.reset := by
  simp [Arbiter.reset]

theorem Walker.reset_sound : Walker.reset.sound := Nat.zero_le 16

/-- A state whose blocks are at their reset values is sound when its interface and its links are. -/
theorem State.sound_of_reset {s : State} (smi : s.smi.sound) (links : ∀ i, (s.link i).sound) (arb : s.arb = Arbiter.reset)
    (wlk : s.wlk = Walker.reset) (du : s.du = Descriptors.reset) : s.sound := by
  rw [State.sound_iff, wlk, du]
  refine ⟨smi, links, fun i => ?_, Walker.reset_sound, Descriptors.reset_sound⟩
  have screen : s.screen i = Screen.reset := by
    unfold State.screen
    rw [arb]
    exact Arbiter.reset_screen i
  rw [screen]
  exact Screen.reset_sound

/-- The values a power-on reset sets are sound, whatever carriers are present. -/
theorem State.powerOnValues_sound (lines : BitVec 6) (carriers : BitVec 16) (s : State) :
    (s.powerOnValues lines carriers).sound := by
  refine State.sound_of_reset Interface.reset_sound (fun i => ?_) rfl rfl rfl
  have link : (s.powerOnValues lines carriers).link i = { Link.reset with carrier := carriers.getLsbD i.val } := by
    simp [State.link, State.powerOnValues]
  rw [link]
  exact Link.reset_sound _ _

/-- Settles O60: every block is at its reset value, with no carrier present. -/
theorem soundAtReset : Obligations.SoundAtReset := by
  refine State.sound_of_reset Interface.reset_sound (fun i => ?_) rfl rfl rfl
  have link : State.reset.link i = Link.reset := by simp [State.link, State.reset]
  rw [link]
  exact Link.reset_sound false 0

/-- What the links hold once a soft reset has put those with carrier into PROBING. -/
theorem State.softValues_link (s : State) (i : Screen16) : s.softValues.link i = (s.link i).softReset := by
  simp [State.link, State.softValues]

/-- A soft reset is sound once the links with carrier probe. Before that such a link keeps its old state, for the record
of its change, and is not. -/
theorem State.softValues_probed_sound {s : State} (c : LinkCause) (h : s.smi.sound) :
    (s.softValues.probeAll c).sound := by
  have smi : (s.softValues.probeAll c).smi.sound :=
    Whole.interfaceSound.toLinks.probeAll c _ (Interface.softReset_sound s.clock h)
  refine State.sound_of_reset smi (fun i => ?_) ?_ ?_ ?_
  · rw [State.probeAll_link, State.softValues_link]
    split
    · next carrier => exact Link.probe_sound _ carrier
    · next carrier => exact Link.softReset_sound (by simpa [Link.softReset] using carrier)
  all_goals rw [State.probeAll_frame]; rfl

/-- BASE takes address bits 14 to 23, so that the control block it names lies within show memory. -/
theorem baseOf_sound (v : BitVec 32) : baseOf v % 16384 = 0 ∧ baseOf v + 16384 ≤ 16777216 := by
  unfold baseOf
  omega

/-- Entries at masked levels that lose their visible-since, and level 0 left unmasked. -/
theorem Screen.masked_sound (x : Screen) (m : BitVec 8) : ({ x with mask := m &&& 0xFE#8 } : Screen).hideMasked.sound := by
  simp [Screen.sound, Screen.hideMasked, Screen.masked]

/-- Every command keeps a sound state sound: the elementary updates do, and so do the values a power-on reset sets, a new
BASE and the screens' new settings; a soft reset does so from the probing of its links on. -/
theorem exec_sound {c : Instr} {s u : State} (h : s.sound) (he : exec c s = .next u) : u.sound := by
  by_cases hc : ∃ t v, c = .reset t v
  · obtain ⟨t, v, rfl⟩ := hc
    obtain ⟨smi, -⟩ := (State.sound_iff s).1 h
    have probed : ((s.begin t).softValues.probeAll .reset).sound := State.softValues_probed_sound .reset smi
    have reset : (s.begin t).softReset.sound :=
      Whole.sound.toEnds.changeEngine _ _ _ _ _ _ (Whole.sound.toShow.sampleFreeze _ probed)
    refine next_keeps ?_ he
    split
    · exact Whole.sound.toBus.requestScan _ reset
    · exact reset
  · have hbegin : (s.begin c.time).sound := h
    exact Whole.sound.execAll he hbegin
      (powerOn := fun l k _ => State.powerOnValues_sound l k s)
      (soft := fun t v e => absurd ⟨t, v, e⟩ hc)
      (base := fun t v _ => by
        obtain ⟨port, journal, -, rest⟩ := h
        exact ⟨port, journal, baseOf_sound v, rest⟩)
      (cause := fun _ _ _ => State.sound_congr h (fun smi => smi) rfl rfl rfl rfl)
      (mask := fun _ _ i m s hs => State.sound_setScreen i (Screen.masked_sound _ m) hs)
      (settings := fun _ _ i _ _ _ s hs =>
        State.sound_setScreen i (Screen.sound_of_mask rfl (State.sound_screen hs i)) hs)
      (selectors := fun _ _ i _ s hs =>
        State.sound_setScreen i (Screen.sound_of_mask rfl (State.sound_screen hs i)) hs)

/-- Settles O59: a step on an empty queue leaves the state as it is, and every command keeps a sound state sound. -/
theorem soundKept : Obligations.SoundKept := by
  intro s u h he
  unfold step at he
  split at he
  · cases he
    exact h
  · next c rest _ =>
    have front : (s.setPending rest).sound := h
    exact exec_sound front he

end Sys2Proof.Machine
end

section
/-! What every command leaves alone: the queue of commands, the registers, the host's settings of a screen, and the
blocks that a group of commands does not reach. -/

namespace Sys2Proof.Machine

/-! ### Steps, the queue and the clock -/

/-- Settles O1: the front of the queue is the command that `step` takes. -/
theorem stepTakesFront : Obligations.StepTakesFront := by
  intro c rest s h
  unfold step
  rw [h]

/-- The queue of commands and the clock stand at these values. -/
def State.stands (q : List Instr) (now : Time) (s : State) : Prop := s.pending = q ∧ s.clock = now

/-- No elementary update of a command touches the queue of commands or the clock. -/
theorem Whole.stands (q : List Instr) (now : Time) : Whole (State.stands q now) where
  journalAt t b s h := by simpa [State.stands] using h
  smi _ _ _ h := h
  setCause _ _ h := h
  enqueue _ _ h := h
  setCtl _ _ h := h
  setScreen _ _ _ _ h := h
  send _ _ _ _ h := h
  setArb _ _ _ h := h
  setLink _ _ _ _ h := h
  transmit _ _ _ h := h
  setTracker _ _ h := h
  setWalker _ _ _ h := h
  setSch _ _ _ _ h := h
  setPort _ _ _ h := h
  setDesk _ _ h := h
  setDu _ _ _ h := h
  setScheduler _ _ h := h
  freePort _ h := h
  writeJournalCount s h := by
    obtain ⟨-, -, -, only⟩ := State.writeJournalCount_frame s
    exact ⟨(State.onlyBus_pending only).trans h.1, (State.onlyBus_clock only).trans h.2⟩
  dropJournalHead s h := by
    obtain ⟨-, -, -, only⟩ := State.dropJournalHead_frame s
    exact ⟨(State.onlyBus_pending only).trans h.1, (State.onlyBus_clock only).trans h.2⟩

/-- Settles O2: each command begins with the clock at the later time and keeps it; a power-on reset begins at 0. -/
theorem queueAndClock : Obligations.QueueAndClock := by
  intro c s u he
  by_cases hc : ∃ l k, c = .powerOnReset l k
  · obtain ⟨l, k, rfl⟩ := hc
    have values : State.stands s.pending 0 (s.powerOnValues l k) := ⟨rfl, rfl⟩
    have keeps := Whole.stands s.pending 0
    exact next_keeps (keeps.toShow.sampleFreeze _ (keeps.toLinks.probeAll _ _ values)) he
  · have begun : State.stands s.pending (max s.clock c.time) (s.begin c.time) := ⟨rfl, rfl⟩
    have kept : State.stands s.pending (max s.clock c.time) u :=
      (Whole.stands _ _).execAll he begun
        (powerOn := fun l k e => absurd ⟨l, k, e⟩ hc)
        (soft := fun t v e => by subst e; exact ⟨rfl, rfl⟩)
        (base := fun t v e => by subst e; exact ⟨rfl, rfl⟩)
        (cause := fun t v e => by subst e; exact ⟨rfl, rfl⟩)
        (mask := fun _ _ _ _ _ hs => hs)
        (settings := fun _ _ _ _ _ _ _ hs => hs)
        (selectors := fun _ _ _ _ _ hs => hs)
    obtain ⟨queue, clock⟩ := kept
    refine ⟨queue, clock.trans ?_⟩
    cases c
    case powerOnReset l k => exact absurd ⟨l, k, rfl⟩ hc
    all_goals rfl

/-! ### The registers -/

/-- Setting a flag leaves those already set. -/
def Cause.within (f g : Cause) : Prop :=
  (f.directive = true → g.directive = true) ∧ (f.journal = true → g.journal = true) ∧
    (f.screen = true → g.screen = true) ∧ (f.tracker = true → g.tracker = true) ∧ (f.memory = true → g.memory = true)

theorem Cause.within_refl (f : Cause) : f.within f := ⟨id, id, id, id, id⟩

theorem Cause.within_setFlag {f g : Cause} (n : CauseFlag) (h : f.within g) : f.within (g.setFlag n) := by
  obtain ⟨directive, journal, screen, tracker, memory⟩ := h
  cases n <;> simp_all [Cause.within, Cause.setFlag]

/-- A property of the registers that a flag set keeps is kept by every elementary update of a command. -/
theorem Whole.registers {R : Nat → Cause → Cause → Prop} (hr : ∀ b f e n, R b f e → R b (f.setFlag n) e) :
    Whole (fun s => R s.smi.base s.smi.flags s.smi.enables) where
  journalAt t b s h := by
    obtain ⟨base, flags, enables, -⟩ := State.journalAt_registers t b s
    rwa [base, flags, enables]
  smi m s hm h := by
    obtain ⟨base, flags, enables, -⟩ := hm
    change R m.base m.flags m.enables
    rwa [base, flags, enables]
  setCause _ _ h := hr _ _ _ _ h
  enqueue _ _ h := h
  setCtl _ _ h := h
  setScreen _ _ _ _ h := h
  send _ _ _ _ h := h
  setArb _ _ _ h := h
  setLink _ _ _ _ h := h
  transmit _ _ _ h := h
  setTracker _ _ h := h
  setWalker _ _ _ h := h
  setSch _ _ _ _ h := h
  setPort _ _ _ h := h
  setDesk _ _ h := h
  setDu _ _ _ h := h
  setScheduler _ _ h := h
  freePort _ h := h
  writeJournalCount s h := by
    obtain ⟨base, flags, enables, -⟩ := State.writeJournalCount_frame s
    rwa [base, flags, enables]
  dropJournalHead s h := by
    obtain ⟨base, flags, enables, -⟩ := State.dropJournalHead_frame s
    rwa [base, flags, enables]

/-- The register property survives every command but those that write it and the resets that do not keep it. -/
theorem exec_registers {R : Nat → Cause → Cause → Prop} (hr : ∀ b f e n, R b f e → R b (f.setFlag n) e)
    {c : Instr} {s u : State} (he : exec c s = .next u) (h : R s.smi.base s.smi.flags s.smi.enables)
    (powerOn : ∀ l k, c ≠ .powerOnReset l k) (base : ∀ t v, c ≠ .base t v) (cause : ∀ t v, c ≠ .cause t v)
    (soft : ∀ t v, c = .reset t v → R s.smi.base Cause.none s.smi.enables) :
    R u.smi.base u.smi.flags u.smi.enables :=
  (Whole.registers hr).execAll he h
    (powerOn := fun l k e => absurd e (powerOn l k))
    (soft := soft)
    (base := fun t v e => absurd e (base t v))
    (cause := fun t v e => absurd e (cause t v))
    (mask := fun _ _ _ _ _ hs => hs)
    (settings := fun _ _ _ _ _ _ _ hs => hs)
    (selectors := fun _ _ _ _ _ hs => hs)

/-- Settles O10: BASE and the enables are kept by a soft reset too, and flags are only set, but for one. -/
theorem registersKept : Obligations.RegistersKept := by
  intro c s u he powerOn base cause
  have kept : u.smi.base = s.smi.base ∧ u.smi.enables = s.smi.enables :=
    exec_registers (R := fun b _ e => b = s.smi.base ∧ e = s.smi.enables) (fun _ _ _ _ h => h) he ⟨rfl, rfl⟩
      powerOn base cause (fun _ _ _ => ⟨rfl, rfl⟩)
  refine ⟨kept.1, kept.2, fun soft => ?_⟩
  exact exec_registers (R := fun _ f _ => s.smi.flags.within f) (fun _ _ _ n h => Cause.within_setFlag n h) he
    (Cause.within_refl _) powerOn base cause (fun t v e => absurd e (soft t v))

/-- Settles O7: BASE is the masked value by `baseOf_eq`, and the other writes are their record updates. -/
theorem registerWrites : Obligations.RegisterWrites := by
  refine ⟨fun t v s h => ?_, fun t v s h => ?_, fun _ _ _ => rfl, fun _ _ _ _ => rfl⟩
  · rw [← baseOf_eq]
    exact congrArg Host.Outcome.next (if_pos h)
  · exact congrArg Host.Outcome.next (if_neg h)

/-- Settles O8: CAUSE reads the flags and enables bit by bit, and the IRQ is some flag with its enable. -/
theorem registerReads : Obligations.RegisterReads := by
  intro s a
  have cause (k : Fin 5) := causeWord_bits s.smi.flags s.smi.enables k
  refine ⟨rfl, rfl, rfl, fun h => ?above, ?irq, cause⟩
  case above =>
    have named : ∀ n : BitVec 32, n.toNat ≤ 3 → a ≠ n := by
      rintro n hn rfl
      omega
    unfold State.readRegister
    rw [if_neg (named 0 (by decide)), if_neg (named 1 (by decide)), if_neg (named 2 (by decide)),
      if_neg (named 3 (by decide))]
  case irq =>
    have reads (k : Fin 5) : (s.readRegister 3).getLsbD k.val = true ∧ (s.readRegister 3).getLsbD (16 + k.val) = true ↔
        [s.smi.flags.directive, s.smi.flags.journal, s.smi.flags.screen, s.smi.flags.tracker, s.smi.flags.memory][k]
          = true ∧ [s.smi.enables.directive, s.smi.enables.journal, s.smi.enables.screen, s.smi.enables.tracker,
            s.smi.enables.memory][k] = true := by
      rw [← (cause k).1, ← (cause k).2]
      rfl
    simp only [reads]
    simp [State.irq, Fin.exists_fin_succ, or_assoc]

/-! ### The settings of a screen -/

/-- The host's settings of every screen are those of `s`. -/
def State.sameSettings (s u : State) : Prop := ∀ i, (s.screen i).sameSettings (u.screen i)

theorem State.sameSettings_congr {s u v : State} (h : s.sameSettings u) (arb : v.arb = u.arb) : s.sameSettings v := by
  intro i
  rw [State.screen_congr arb]
  exact h i

theorem Whole.sameSettings (s : State) : Whole s.sameSettings where
  journalAt := (Screens.settings s).journalAt
  smi _ _ _ h := h
  setCause _ _ h := h
  enqueue _ _ h := h
  setCtl _ _ h := h
  setScreen := (Screens.settings s).setScreen
  send := (Screens.settings s).send
  setArb := (Screens.settings s).setArb
  setLink _ _ _ _ h := h
  transmit _ _ _ h := h
  setTracker _ _ h := h
  setWalker _ _ _ h := h
  setSch _ _ _ _ h := h
  setPort _ _ _ h := h
  setDesk _ _ h := h
  setDu _ _ _ h := h
  setScheduler _ _ h := h
  freePort _ h := h
  writeJournalCount u h := by
    obtain ⟨-, -, -, only⟩ := State.writeJournalCount_frame u
    exact State.sameSettings_congr h (State.onlyBus_arb only)
  dropJournalHead u h := by
    obtain ⟨-, -, -, only⟩ := State.dropJournalHead_frame u
    exact State.sameSettings_congr h (State.onlyBus_arb only)

/-- Settles O11: every elementary update keeps the host's settings of every screen. -/
theorem hostSettingsKept : Obligations.HostSettingsKept := by
  intro c s u he powerOn soft mask settings selectors
  have begun : s.sameSettings (s.begin c.time) := fun i => (s.screen i).sameSettings_refl
  exact (Whole.sameSettings s).execAll he begun
    (powerOn := fun l k e => absurd e (powerOn l k))
    (soft := fun t v e => absurd e (soft t v))
    (base := fun t v e => by subst e; exact begun)
    (cause := fun t v e => by subst e; exact begun)
    (mask := fun t e => absurd e (mask t))
    (settings := fun t e => absurd e (settings t))
    (selectors := fun t e => absurd e (selectors t))

/-! ### The commands of the interface -/

/-- What answers an access keeps a property that the act of each purpose keeps. -/
theorem State.answer_keeps {P : State → Prop} (hfree : ∀ s, P s → P s.freePort) {f : Purpose → Option (State → State)}
    (hf : ∀ p act, f p = some act → ∀ s, P s → P (act s)) {s : State} (h : P s) : P (s.answer f) := by
  unfold State.answer
  split
  · split
    · next act hact => exact hfree _ (hf _ _ hact _ h)
    · exact h
  · exact h

theorem State.onlyBus_trans {s u v : State} (h : s.onlyBus u) (g : u.onlyBus v) : s.onlyBus v := by
  rw [g]
  exact State.onlyBus_smi h _

theorem State.onlyBus_freePort {s u : State} (h : s.onlyBus u) : s.onlyBus u.freePort := State.onlyBus_smi h _

/-- An answered access whose acts change the interface alone. -/
theorem State.answer_onlyBus {s : State} {f : Purpose → Option (State → State)}
    (hf : ∀ p act, f p = some act → ∀ u, s.onlyBus u → s.onlyBus (act u)) : s.onlyBus (s.answer f) :=
  State.answer_keeps (fun _ h => State.onlyBus_freePort h) hf s.onlyBus_refl

theorem State.onlyBus_if {s u v : State} {p : Prop} [Decidable p] (hu : s.onlyBus u) (hv : s.onlyBus v) :
    s.onlyBus (if p then u else v) := by
  split
  · exact hu
  · exact hv

/-- What a read of a slot's state does in a search. -/
theorem Bus.slotStateRead {P : State → Prop} (h : Bus P) (i d s) (hs : P s) : P (State.slotStateRead i d s) := by
  unfold State.slotStateRead
  split
  · split
    · exact h.readSlot _ _ _ _ hs
    · exact h.nextSlot _ _ _ hs
  · exact hs

theorem Bus.slotHalfRead {P : State → Prop} (h : Bus P) (i d s) (hs : P s) : P (State.slotHalfRead i d s) := by
  unfold State.slotHalfRead
  split
  · split
    · exact h.readSlot _ _ _ _ hs
    · split
      · exact h.queueTake _ _ _ hs
      · exact h.nextSlot _ _ _ hs
  · exact hs

theorem Bus.sweepStateRead {P : State → Prop} (h : Bus P) (i d s) (hs : P s) : P (State.sweepStateRead i d s) := by
  unfold State.sweepStateRead
  split
  · split
    · exact h.sweepTaken _ _ hs
    · exact h.nextSweep _ _ hs
  · exact hs

theorem Bus.statusWritten {P : State → Prop} (h : Bus P) (s) (hs : P s) : P s.statusWritten := by
  unfold State.statusWritten
  split
  · exact h.queueStatusWrite _ _ (h.smi _ _ ⟨rfl, rfl, rfl, rfl, rfl, rfl, rfl⟩ hs)
  · exact h.endRefresh _ hs

theorem State.lateAnswer_onlyBus (b : Bool) (s : State) : s.onlyBus (s.lateAnswer b) := by
  unfold State.lateAnswer
  split
  · exact State.onlyBus_if (State.onlyBus_freePort s.onlyBus_refl) s.onlyBus_refl
  · exact s.onlyBus_refl

/-- Settles O17: each command of the interface is built from updates of the interface, which `Bus.only` says change
nothing else. -/
theorem interfaceFrame : Obligations.InterfaceFrame := by
  intro c s u hc he
  change (s.begin c.time).onlyBus u
  have bus := Bus.only (s.begin c.time)
  have begun := (s.begin c.time).onlyBus_refl
  cases c <;> first | (simp [ofInterface] at hc; done) | refine next_keeps ?_ he
  case scan t v => exact bus.requestScan _ begun
  case base t v => exact State.onlyBus_if (State.onlyBus_smi begun _) begun
  case cause t v => exact State.onlyBus_smi begun _
  case registerWriteIgnored t a v => exact begun
  case scanTimer t => exact State.onlyBus_if (bus.requestScan _ (State.onlyBus_smi begun _)) begun
  case statusTimer t => exact State.onlyBus_if (bus.requestRefresh _ (State.onlyBus_smi begun _)) begun
  case lateAnswer t b => exact State.lateAnswer_onlyBus b _
  all_goals
    refine State.answer_onlyBus fun p act hact v hv => ?_
    cases p <;> cases hact
  case scanStateRead.scanState t d slot => exact bus.slotStateRead slot d v hv
  case scanSlotRead.scanSlot t d slot half => exact bus.slotHalfRead slot d v hv
  case resultWordsWrite.resultWords t slot => exact bus.resultsWritten slot v hv
  case resultWordsWrite.sweepResults t slot => exact bus.sweepDoneWrite slot v hv
  case doneWrite.doneWord t slot => exact bus.doneWritten slot v hv
  case doneWrite.sweepDone t slot => exact bus.nextSweep slot _ (bus.setCause _ _ hv)
  case sweepStateRead.sweepState t d slot => exact bus.sweepStateRead slot d v hv
  case journalRecordWrite.journalRecord t =>
    obtain ⟨-, -, -, only⟩ := State.writeJournalCount_frame v
    exact State.onlyBus_trans hv only
  case journalCountWrite.journalCount t =>
    obtain ⟨-, -, -, only⟩ := State.dropJournalHead_frame (v.setCause .journal)
    exact State.onlyBus_trans (bus.setCause _ _ hv) only
  case statusWrite.status t => exact bus.statusWritten v hv

/-! ### The commands of the links -/

/-- What is built from the updates of `Links` leaves the blocks of the show alone. -/
theorem Links.sameShow (s : State) : Links s.sameShow where
  journalAt t b u h := by simpa [State.sameShow] using h
  smi _ _ _ h := h
  setCause _ _ h := h
  enqueue _ _ h := h
  setCtl _ _ h := h
  setScreen _ _ _ _ h := h
  send _ _ _ _ h := h
  setArb _ _ _ h := h
  setLink _ _ _ _ h := h
  transmit _ _ _ h := h

/-- Settles O57: each event of a link is built from the updates of `Links`. -/
theorem linkFrame : Obligations.LinkFrame := by
  intro c s u hc he
  have keeps := Links.sameShow s
  have begun : s.sameShow (s.begin c.time) := ⟨rfl, rfl, rfl, rfl, rfl⟩
  have timer (i : Screen16) (b : Bool) :
      s.sameShow (if b then (s.begin c.time).evaluate i else s.begin c.time) := by
    split
    · exact keeps.evaluate _ _ begun
    · exact begun
  cases c <;> first | (simp [ofLinks] at hc; done) | refine next_keeps ?_ he
  case releaseTimer t i => exact timer i _
  case dwellTimer t i => exact timer i _
  case noticeTimer t i => exact timer i _
  case carrierUp t i => exact keeps.riseCarrier _ _ begun
  case carrierLoss t i => exact keeps.fallCarrier _ _ begun
  case helloRetryTimer t i => exact keeps.retryHello _ _ begun
  case helloReply t i tag caps f n => exact keeps.helloReplied _ _ _ _ _ _ begun
  case done t i tag => exact keeps.replyDone _ _ _ begun
  case refused t i tag reason => exact keeps.replyRefused _ _ _ _ begun
  case frameDiscarded t i => exact keeps.ignoreMessage _ _ begun
  case frameGapTimeout t i => exact keeps.ignoreMessage _ _ begun
  case replyTimer t i => exact keeps.expireReply _ _ begun

/-! ### Single values -/

/-- Settles O3: State.reset is a literal; its screens, links and cache are those of the blocks' reset values. -/
theorem resetValues : Obligations.ResetValues := by
  have screen (i : Screen16) : State.reset.screen i = Screen.reset := Arbiter.reset_screen i
  have link (i : Screen16) : State.reset.link i = Link.reset := by simp [State.link, State.reset]
  refine ⟨rfl, rfl, rfl, rfl, rfl, rfl, rfl, rfl, rfl, rfl, rfl, rfl, rfl, rfl, rfl, rfl, rfl, rfl, rfl, rfl, rfl,
    rfl, rfl, by decide, rfl, fun i => ?_, fun i => ?_⟩
  · rw [screen]
    decide
  · rw [link]
    exact ⟨rfl, rfl⟩

/-- Settles O9: each is one record update, with the counter in its saturating form. -/
theorem plainCommands : Obligations.PlainCommands := by
  refine ⟨fun _ _ _ _ => rfl, fun t i s => ?_, fun t i s => ?_⟩ <;>
  · rw [← bump_eq]
    rfl

/-- Settles O41: the two queues and the weight decide the grant of a free port. -/
theorem portGrants : Obligations.PortGrants := by
  intro now p a b us bs hf
  refine ⟨fun hu hb => ?_, fun hu hb => ?_, fun hu hb => ⟨fun hw => ?_, fun w hw => ⟨fun hc => ?_, fun hc => ?_⟩⟩⟩
  · simp [Port.grant, hf, hu, hb]
  · simp [Port.grant, hf, hu, hb]
  · simp [Port.grant, hf, hu, hb, hw]
  · simp [Port.grant, hf, hu, hb, hw, hc]
  · simp [Port.grant, hf, hu, hb, hw, Nat.not_lt.2 hc]

/-- An access that a soft reset abandoned is not granted again. -/
theorem Port.grant_abandoned {now : Time} {p : Port} (h : p.inFlight = none) {f : InFlight} (hf : f.abandoned = true) :
    (p.grant now).inFlight ≠ some f := by
  unfold Port.grant
  repeat' split
  all_goals grind

/-- Settles O43: a late answer moves the port alone, and that only for an access a soft reset abandoned. -/
theorem lateAnswers : Obligations.LateAnswers := by
  refine ⟨fun t s => ?_, fun t b s hs => ?_, fun t s f hf ha => ?_⟩
  · change Host.Outcome.next ((s.begin t).lateAnswer false) = _
    unfold State.lateAnswer
    split <;> rfl
  · change Host.Outcome.next ((s.begin t).lateAnswer b) = _
    unfold State.lateAnswer
    split
    · next f hf => simp [hs f hf]
    · rfl
  · have freed : exec (.lateAnswer t true) s = .next (s.begin t).freePort := by
      change Host.Outcome.next ((s.begin t).lateAnswer true) = _
      unfold State.lateAnswer
      rw [State.begin_smi, hf]
      simp [ha]
    exact ⟨_, freed, rfl, State.freePort_sound _, fun a h => State.freePort_holds h, Port.grant_abandoned rfl ha⟩

/-- The row of a line is the rising edge of the line, whatever its route. -/
theorem exec_risingCommand (t : Time) {l : Line} (h : l ≠ .freeze) (s : State) :
    ∃ route, exec (risingCommand t l) s = .next ((s.begin t).risingEdge l route) := by
  cases l
  case freeze => exact absurd rfl h
  all_goals exact ⟨_, rfl⟩

/-- Settles O44: an edge too soon after the last accepted one is set aside, not routed. -/
theorem edgesDebounced : Obligations.EdgesDebounced := by
  intro t l s e hl he ht
  obtain ⟨route, hroute⟩ := exec_risingCommand t hl s
  have turned : LinePort.accepts (max s.clock t) { s.line l with level := true } = false := by
    simp [LinePort.accepts, he, Config.debounce]
    exact max_lt_iff.1 ht
  rw [hroute, ← bump_eq]
  exact congrArg Host.Outcome.next (if_neg (ne_true_of_eq_false turned))

end Sys2Proof.Machine
end

section
/-! Scans, outcomes and the sweep (R186 to R189): each answer is one equation of `exec`, and what a scan that begins
does is said once (`State.scanOutcomes_begun`). -/

namespace Sys2Proof.Machine

/-! ### What a command of the interface leaves -/

/-- A command of the interface leaves every other block and Show Control as they were. -/
theorem exec_interface {c : Instr} {s u : State} (hc : ofInterface c = true) (he : exec c s = .next u) :
    s.sameBlocks u ∧ u.ctl = s.ctl := by
  rw [interfaceFrame c s u hc he]
  exact ⟨⟨⟨rfl, rfl, rfl, rfl, rfl⟩, rfl, rfl⟩, rfl⟩

/-- Freeing the port moves the port alone. -/
theorem State.freePort_eq (s : State) : s.freePort = { s with smi := { s.smi with port := s.freePort.smi.port } } := rfl

/-- Queueing an access moves the port alone. -/
theorem State.enqueue_eq (a : Access) (s : State) :
    s.enqueue a = { s with smi := { s.smi with port := (s.enqueue a).smi.port } } := rfl

/-! ### A scan begins -/

/-- `g` follows what a scan's step queues: it leaves the scan and the outcomes, and the port holds what was queued. It is
nothing, or the end of the access that the step answers. -/
def State.closes (s : State) (g : State → State) : Prop :=
  (∀ v : State, (g v).smi.scan = v.smi.scan ∧ (g v).smi.outcomes = v.smi.outcomes) ∧
    ∀ (a : Access) (v : State), v.smi.port = s.smi.port → (g (v.enqueue a)).smi.port.holds a

theorem State.closes_id (s : State) : s.closes id := ⟨fun _ => ⟨rfl, rfl⟩, fun a v _ => State.enqueue_holds a v⟩

theorem State.closes_freePort {s : State} {f : InFlight} (hf : s.smi.port.inFlight = some f) :
    s.closes State.freePort :=
  ⟨fun _ => ⟨rfl, rfl⟩, fun a v hv => State.enqueue_freePort_holds a (f := f) (by rw [hv, hf])⟩

theorem State.scanOutcomes_none {s : State} (h : s.smi.outcomes = []) : s.scanOutcomes = s.afterOutcomes := by
  unfold State.scanOutcomes
  rw [h]

theorem State.scanOutcomes_waits {s : State} (h : s.smi.outcomes.any (·.writing) = true) :
    s.scanOutcomes = s.setScan (.outcomes false) := by
  unfold State.scanOutcomes
  split
  · next e => simp [e] at h
  · next o os e =>
    rw [e] at h
    exact if_pos h

theorem State.scanOutcomes_writes {s : State} {o : OutcomeRecord} {os : List OutcomeRecord}
    (h : s.smi.outcomes = o :: os) (hw : ∀ q ∈ o :: os, q.writing = false) :
    s.scanOutcomes = ((s.setOutcomes ({ o with writing := true } :: os)).setScan (.outcomes false)).queueOutcome o := by
  unfold State.scanOutcomes
  rw [h]
  refine if_neg ?_
  rw [List.any_eq_true]
  rintro ⟨q, hq, hqw⟩
  exact Bool.false_ne_true ((hw q hq).symm.trans hqw)

theorem State.any_writing {s : State} (h : ∃ o ∈ s.smi.outcomes, o.writing = true) :
    s.smi.outcomes.any (·.writing) = true := List.any_eq_true.2 h

/-- What a scan does as it begins (R187): the four cases of `State.scanBegun` are those of `State.scanOutcomes`. -/
theorem State.scanOutcomes_begun {s : State} {g : State → State} (hg : s.closes g) : s.scanBegun (g s.scanOutcomes) := by
  obtain ⟨keeps, holds⟩ := hg
  refine ⟨fun h => ?_, fun o os h hw => ?_, fun h hs => ?_, fun h hs => ?_⟩
  · rw [State.scanOutcomes_waits (State.any_writing h)]
    exact keeps _
  · rw [State.scanOutcomes_writes h hw]
    exact ⟨(keeps _).1, (keeps _).2, holds _ _ rfl⟩
  · have sweeps : s.scanOutcomes = s.sweepSlot 0 := (State.scanOutcomes_none h).trans (if_pos hs)
    rw [sweeps]
    exact ⟨(keeps _).1, holds _ _ rfl⟩
  · have searches : s.scanOutcomes = s.beginSearch := (State.scanOutcomes_none h).trans (if_neg (by simp [hs]))
    rw [searches]
    exact ⟨(keeps _).1, holds _ _ rfl⟩

/-- A scan that begins changes the scan, the outcomes and the port alone. -/
theorem State.scanOutcomes_eq (s : State) : s.scanOutcomes = { s with smi := { s.smi with
    scan := s.scanOutcomes.smi.scan, outcomes := s.scanOutcomes.smi.outcomes, port := s.scanOutcomes.smi.port } } := by
  unfold State.scanOutcomes
  split
  · unfold State.afterOutcomes
    split <;> rfl
  · split <;> rfl

theorem State.scanOutcomes_kept (s : State) : s.scanOutcomes.smi.scanRequest = s.smi.scanRequest ∧
    s.scanOutcomes.smi.scanTimer = s.smi.scanTimer ∧ s.scanOutcomes.smi.flags = s.smi.flags ∧
    s.scanOutcomes.smi.rotation = s.smi.rotation ∧ s.scanOutcomes.smi.sweepPending = s.smi.sweepPending := by
  rw [State.scanOutcomes_eq]
  exact ⟨rfl, rfl, rfl, rfl, rfl⟩

theorem State.scanFree_iff (s : State) : s.scanFree = true ↔ s.smi.scan = .idle ∧ s.ctl.progress = none := by
  simp [State.scanFree]

theorem State.scanFree_false {s : State} (h : s.smi.scan ≠ .idle ∨ s.ctl.progress ≠ none) : s.scanFree = false := by
  rw [Bool.eq_false_iff, ne_eq, State.scanFree_iff]
  rintro ⟨idle, free⟩
  rcases h with h | h
  · exact h idle
  · exact h free

/-- No scan is owed any more. -/
def State.clearRequest (s : State) : State := { s with smi := { s.smi with scanRequest := false } }

/-- An owed scan begins when nothing holds it, and the scan request is cleared. -/
theorem State.startOwedScan_free {s : State} (hr : s.smi.scanRequest = true) (hf : s.scanFree = true) :
    s.startOwedScan = s.clearRequest.scanOutcomes := by
  unfold State.startOwedScan
  rw [hr, hf]
  rfl

theorem State.startOwedScan_none {s : State} (hr : s.smi.scanRequest = false) : s.startOwedScan = s := by
  unfold State.startOwedScan
  rw [hr]
  rfl

/-- An owed scan that finds outcomes being written waits for them. -/
theorem State.startOwedScan_waits {s : State} (hr : s.smi.scanRequest = true) (hf : s.scanFree = true)
    (hw : s.smi.outcomes.any (·.writing) = true) :
    s.startOwedScan = { s with smi := { s.smi with scanRequest := false, scan := .outcomes false } } := by
  rw [State.startOwedScan_free hr hf, State.scanOutcomes_waits (s := s.clearRequest) hw]
  rfl

/-! ### A scan requested -/

theorem State.requestScan_free {s : State} (h : s.scanFree = true) : s.requestScan = s.scanOutcomes := if_pos h

theorem State.requestScan_held {s : State} (h : s.scanFree = false) :
    s.requestScan = { s with smi := { s.smi with scanRequest := true } } := if_neg (by simp [h])

/-- The scan timer as its expiry re-arms it (R186). -/
def State.rearmScan (s : State) : State := { s with smi := { s.smi with scanTimer := s.smi.scanTimer + 4000 } }

theorem execScanTimer_expired {t : Time} {s : State} (h : s.smi.scanTimer ≤ max s.clock t) :
    exec (.scanTimer t) s = .next (s.begin t).rearmScan.requestScan := congrArg Host.Outcome.next (if_pos h)

/-! ### The search -/

theorem execScanStateRead_answered (t : Time) (d : List Byte) {s : State} {slot : Slot}
    (h : s.answering (.scanState slot)) :
    exec (.scanStateRead t d) s = .next ((s.begin t).slotStateRead slot d).freePort :=
  congrArg Host.Outcome.next (State.answer_eq (State.answering_begin t h) rfl)

theorem State.slotStateRead_posted {s : State} {slot at_ : Slot} {left : Nat} {d : List Byte}
    (hs : s.smi.scan = .search at_ left) (hd : slotState d = 1) : s.slotStateRead slot d = s.readSlot slot left [] := by
  unfold State.slotStateRead
  rw [hs]
  exact if_pos hd

theorem State.slotStateRead_other {s : State} {slot at_ : Slot} {left : Nat} {d : List Byte}
    (hs : s.smi.scan = .search at_ left) (hd : slotState d ≠ 1) : s.slotStateRead slot d = s.nextSlot slot left := by
  unfold State.slotStateRead
  rw [hs]
  exact if_neg hd

theorem State.nextSlot_more {s : State} {left : Nat} (slot : Slot) (h : 1 < left) :
    s.nextSlot slot left = s.searchSlot (slot + 1) (left - 1) := if_neg (Nat.not_le.2 h)

theorem State.nextSlot_last {s : State} {left : Nat} (slot : Slot) (h : left ≤ 1) : s.nextSlot slot left = s.endScan :=
  if_pos h

/-- A scan that ends with none owed leaves the part without a scan. -/
theorem State.endScan_none {s : State} (hr : s.smi.scanRequest = false) : s.endScan = s.setScan .idle :=
  State.startOwedScan_none (s := s.setScan .idle) hr

/-- A scan that ends with one owed begins it. -/
theorem State.endScan_owed {s : State} (hr : s.smi.scanRequest = true) (hp : s.ctl.progress = none) :
    s.endScan = (s.setScan .idle).clearRequest.scanOutcomes :=
  State.startOwedScan_free (s := s.setScan .idle) hr ((State.scanFree_iff _).2 ⟨rfl, hp⟩)

/-- What a scan owed does when the one before ends behind the access in flight. -/
theorem State.endScan_owed_begun {s : State} {f : InFlight} (hf : s.smi.port.inFlight = some f)
    (hr : s.smi.scanRequest = true) (hp : s.ctl.progress = none) :
    s.endScan.freePort.smi.scanRequest = false ∧ s.scanBegun s.endScan.freePort := by
  rw [State.endScan_owed hr hp]
  refine ⟨(State.scanOutcomes_kept _).1, ?_⟩
  exact State.scanOutcomes_begun (s := (s.setScan .idle).clearRequest) (State.closes_freePort (f := f) hf)

theorem State.searchSlot_freePort {s : State} {f : InFlight} (hf : s.smi.port.inFlight = some f) (slot : Slot)
    (left : Nat) : (s.searchSlot slot left).freePort.smi.scan = .search slot left ∧
      (s.searchSlot slot left).freePort.smi.port.holds
        (.read (.scanState slot) (s.slotAddress slot) 4 .background FaultDetail.none) :=
  ⟨rfl, State.enqueue_freePort_holds (s := s.setScan (.search slot left)) _ hf⟩

theorem State.nextSlot_rotation (slot : Slot) (left : Nat) (s : State) :
    (s.nextSlot slot left).smi.rotation = s.smi.rotation := by
  unfold State.nextSlot
  split
  · unfold State.endScan State.startOwedScan
    split
    · exact (State.scanOutcomes_kept _).2.2.2.1
    · rfl
  · rfl

/-- Settles O13: a slot POSTED is read, any other passed over, and behind the last one the scan ends. -/
theorem searchReadsSlots : Obligations.SearchReadsSlots := by
  intro t d s slot left h hs
  obtain ⟨f, hf, -, -⟩ := State.answering_busy h
  have he := execScanStateRead_answered t d h
  obtain ⟨blocks, ctl⟩ := exec_interface rfl he
  refine ⟨_, he, blocks, ctl, ?_, fun hd => ?_, fun hd hl => ?_, fun hd hl hr => ?_⟩
  · by_cases hd : slotState d = 1
    · rw [State.slotStateRead_posted (s := s.begin t) hs hd]
      rfl
    · rw [State.slotStateRead_other (s := s.begin t) hs hd]
      exact State.nextSlot_rotation slot left _
  · rw [State.slotStateRead_posted (s := s.begin t) hs hd]
    exact ⟨rfl, State.enqueue_freePort_holds (s := (s.begin t).setScan (.slotRead slot left [])) _ hf⟩
  · rw [State.slotStateRead_other (s := s.begin t) hs hd, State.nextSlot_more slot hl]
    exact State.searchSlot_freePort (s := s.begin t) hf _ _
  · rw [State.slotStateRead_other (s := s.begin t) hs hd, State.nextSlot_last slot hl,
      State.endScan_none (s := s.begin t) hr]
    rfl

/-! ### A slot is read and taken -/

theorem execScanSlotRead_answered (t : Time) (d : List Byte) {s : State} {slot : Slot} {second : Bool}
    (h : s.answering (.scanSlot slot second)) :
    exec (.scanSlotRead t d) s = .next ((s.begin t).slotHalfRead slot d).freePort :=
  congrArg Host.Outcome.next (State.answer_eq (act := State.slotHalfRead slot d) (State.answering_begin t h) rfl)

theorem State.slotHalfRead_first {s : State} {slot at_ : Slot} {left : Nat} {d : List Byte}
    (hs : s.smi.scan = .slotRead at_ left []) : s.slotHalfRead slot d = s.readSlot slot left d := by
  unfold State.slotHalfRead
  rw [hs]
  rfl

theorem State.slotHalfRead_second {s : State} {slot at_ : Slot} {left : Nat} {d half : List Byte}
    (hs : s.smi.scan = .slotRead at_ left half) (hh : half ≠ []) : s.slotHalfRead slot d =
      if slotState (half ++ d) = 1 then s.queueTake slot (half ++ d) else s.nextSlot slot left := by
  unfold State.slotHalfRead
  rw [hs]
  exact if_neg (by simpa using hh)

theorem State.queueTake_free {s : State} (h : s.smi.outcomes = []) (slot : Slot) (d : List Byte) :
    s.queueTake slot d = (s.setScan (.take slot (slotKind d) (slotWords d))).enqueue
      (.writing (.take slot) (s.slotAddress slot) [2, 0, 0, 0] .background) := by
  unfold State.queueTake
  rw [h]
  rfl

theorem State.queueTake_held {s : State} (h : s.smi.outcomes ≠ []) (slot : Slot) (d : List Byte) :
    s.queueTake slot d = s.endScan := if_neg (by simpa using h)

theorem State.endScan_rotation (s : State) : s.endScan.smi.rotation = s.smi.rotation :=
  State.nextSlot_rotation 0 0 s

theorem State.queueTake_rotation (slot : Slot) (d : List Byte) (s : State) :
    (s.queueTake slot d).smi.rotation = s.smi.rotation := by
  by_cases h : s.smi.outcomes = []
  · rw [State.queueTake_free h]
    rfl
  · rw [State.queueTake_held h]
    exact State.endScan_rotation s

/-- Settles O14: the second half decides between the take, the next slot and the end of the scan. -/
theorem postedSlotTaken : Obligations.PostedSlotTaken := by
  refine ⟨fun t d s slot left second hd h hs => ?first, fun t d half s slot left second hh h hs => ?second⟩
  case first =>
    obtain ⟨f, hf, -, -⟩ := State.answering_busy h
    have he := execScanSlotRead_answered t d h
    obtain ⟨blocks, ctl⟩ := exec_interface rfl he
    have later : (!d.isEmpty) = true := by simpa using hd
    refine ⟨_, he, blocks, ctl, ?_⟩
    rw [State.slotHalfRead_first (s := s.begin t) hs]
    unfold State.readSlot
    rw [later]
    exact ⟨rfl, State.enqueue_freePort_holds (s := (s.begin t).setScan (.slotRead slot left d)) _ hf⟩
  case second =>
    obtain ⟨f, hf, -, -⟩ := State.answering_busy h
    have he := execScanSlotRead_answered t d h
    obtain ⟨blocks, ctl⟩ := exec_interface rfl he
    rw [State.slotHalfRead_second (s := s.begin t) hs hh] at he
    refine ⟨_, he, ?_, ?_, ?_, fun hd ho => ?_, fun hd hl => ?_, fun hend => ?_⟩
    · rwa [State.slotHalfRead_second (s := s.begin t) hs hh] at blocks
    · rwa [State.slotHalfRead_second (s := s.begin t) hs hh] at ctl
    · by_cases hd : slotState (half ++ d) = 1
      · rw [if_pos hd]
        exact State.queueTake_rotation _ _ (s.begin t)
      · rw [if_neg hd]
        exact State.nextSlot_rotation _ _ (s.begin t)
    · rw [if_pos hd, State.queueTake_free (s := s.begin t) ho]
      exact ⟨rfl, State.enqueue_freePort_holds (s := (s.begin t).setScan _) _ hf⟩
    · rw [if_neg hd, State.nextSlot_more slot hl]
      exact State.searchSlot_freePort (s := s.begin t) hf _ _
    · have ends : (if slotState (half ++ d) = 1 then (s.begin t).queueTake slot (half ++ d)
          else (s.begin t).nextSlot slot left) = (s.begin t).endScan := by
        rcases hend with ⟨hd, ho⟩ | ⟨hd, hl⟩
        · rw [if_pos hd, State.queueTake_held (s := s.begin t) ho]
        · rw [if_neg hd, State.nextSlot_last slot hl]
      rw [ends]
      refine ⟨fun hr => ?_, fun hr hp => State.endScan_owed_begun (s := s.begin t) hf hr hp⟩
      rw [State.endScan_none (s := s.begin t) hr]
      exact ⟨rfl, rfl⟩

/-! ### The sweep -/

theorem execSweepStateRead_answered (t : Time) (d : List Byte) {s : State} {slot : Slot}
    (h : s.answering (.sweepState slot)) :
    exec (.sweepStateRead t d) s = .next ((s.begin t).sweepStateRead slot d).freePort :=
  congrArg Host.Outcome.next (State.answer_eq (State.answering_begin t h) rfl)

theorem State.sweepStateRead_eq {s : State} {slot at_ : Slot} {d : List Byte} (hs : s.smi.scan = .sweepRead at_) :
    s.sweepStateRead slot d = if slotState d = 2 then s.sweepTaken slot else s.nextSweep slot := by
  unfold State.sweepStateRead
  rw [hs]

theorem State.nextSweep_more {slot : Slot} (s : State) (h : slot ≠ 15) : s.nextSweep slot = s.sweepSlot (slot + 1) :=
  if_neg h

theorem State.nextSweep_last (s : State) :
    s.nextSweep 15 = { s with smi := { s.smi with sweepPending := false } }.beginSearch := rfl

/-- Settles O15: a slot TAKEN gets its two writes, any other is left, and after slot 15 the search begins. -/
theorem sweepWritesAbandoned : Obligations.SweepWritesAbandoned := by
  refine ⟨fun t d s slot h hs => ?read, fun t s slot h => ?results, fun t s slot h => ?done⟩
  case read =>
    obtain ⟨f, hf, -, -⟩ := State.answering_busy h
    have he := execSweepStateRead_answered t d h
    obtain ⟨blocks, ctl⟩ := exec_interface rfl he
    refine ⟨_, he, blocks, ctl, fun hd => ?_, fun hd hl => ?_, fun hd hl => ?_⟩
    · rw [State.sweepStateRead_eq (s := s.begin t) hs, if_pos hd]
      exact ⟨rfl, rfl, State.enqueue_freePort_holds (s := (s.begin t).setScan (.sweepResults slot)) _ hf⟩
    · rw [State.sweepStateRead_eq (s := s.begin t) hs, if_neg hd, State.nextSweep_more _ hl]
      exact ⟨rfl, rfl, State.enqueue_freePort_holds (s := (s.begin t).setScan (.sweepRead (slot + 1))) _ hf⟩
    · subst hl
      rw [State.sweepStateRead_eq (s := s.begin t) hs, if_neg hd]
      exact ⟨rfl, rfl⟩
  case results =>
    obtain ⟨f, hf, -, -⟩ := State.answering_busy h
    have he : exec (.resultWordsWrite t) s = .next ((s.begin t).sweepDoneWrite slot).freePort :=
      congrArg Host.Outcome.next (State.answer_eq (State.answering_begin t h) rfl)
    obtain ⟨blocks, ctl⟩ := exec_interface rfl he
    exact ⟨_, he, blocks, ctl, rfl, State.enqueue_freePort_holds (s := (s.begin t).setScan (.sweepDone slot)) _ hf⟩
  case done =>
    have he : exec (.doneWrite t) s = .next (((s.begin t).setCause .directive).nextSweep slot).freePort :=
      congrArg Host.Outcome.next (State.answer_eq (act := fun s => (s.setCause .directive).nextSweep slot)
        (State.answering_begin t h) rfl)
    obtain ⟨blocks, ctl⟩ := exec_interface rfl he
    refine ⟨_, he, blocks, ctl, ?_⟩
    by_cases hl : slot = 15
    · subst hl
      exact ⟨rfl, rfl, rfl⟩
    · rw [State.nextSweep_more _ hl, if_neg hl, if_neg hl]
      exact ⟨rfl, rfl, rfl⟩

/-! ### Outcomes written -/

theorem execDoneWrite_answered (t : Time) {s : State} {slot : Slot} (h : s.answering (.doneWord slot)) :
    exec (.doneWrite t) s = .next ((s.begin t).doneWritten slot).freePort :=
  congrArg Host.Outcome.next (State.answer_eq (State.answering_begin t h) rfl)

/-- An outcome that has been written is no longer held, and CAUSE.DIRECTIVE is set. -/
def State.outcomeWritten (o : OutcomeRecord) (s : State) : State :=
  (s.setOutcomes (s.smi.outcomes.erase o)).setCause .directive

theorem State.doneWritten_eq {s : State} {slot : Slot} {o : OutcomeRecord} (h : s.writingOutcome slot = some o) :
    s.doneWritten slot = (s.outcomeWritten o).outcomesSettled := by
  unfold State.doneWritten
  rw [h]
  rfl

theorem State.outcomesSettled_other {s : State} (h : ∀ b, s.smi.scan ≠ .outcomes b) : s.outcomesSettled = s := by
  unfold State.outcomesSettled
  split
  · next b hb => exact absurd hb (h b)
  · rfl

theorem State.outcomesSettled_goes {s : State} (h : s.smi.scan = .outcomes false)
    (hw : ∀ q ∈ s.smi.outcomes, q.writing = false) : s.outcomesSettled = s.scanOutcomes := by
  unfold State.outcomesSettled
  rw [h]
  have settled : s.smi.outcomes.any (·.writing) = false := by
    rw [List.any_eq_false]
    intro q hq
    simp [hw q hq]
  simp [settled]

/-- Settles O16: the result words are followed by DONE, and DONE ends what is held of the outcome. -/
theorem outcomeWrites : Obligations.OutcomeWrites := by
  refine ⟨fun t s slot o h ho => ?results, fun t s slot o h ho hs => ?done⟩
  case results =>
    obtain ⟨f, hf, -, -⟩ := State.answering_busy h
    have he : exec (.resultWordsWrite t) s = .next ((s.begin t).resultsWritten slot).freePort :=
      congrArg Host.Outcome.next (State.answer_eq (State.answering_begin t h) rfl)
    obtain ⟨blocks, ctl⟩ := exec_interface rfl he
    have word : stateWord 3 o.code.code = [3, BitVec.ofNat 8 o.code.code, 0, 0] := rfl
    have queued : (s.begin t).resultsWritten slot = (s.begin t).enqueue
        (.writing (.doneWord slot) (s.slotAddress slot) [3, BitVec.ofNat 8 o.code.code, 0, 0] .urgent) := by
      have ho' : (s.begin t).writingOutcome slot = some o := ho
      unfold State.resultsWritten
      rw [ho', ← word]
      rfl
    refine ⟨_, he, blocks, ctl, ?_⟩
    rw [queued]
    exact ⟨rfl, rfl, State.enqueue_freePort_holds (s := s.begin t) _ hf⟩
  case done =>
    have he := execDoneWrite_answered t h
    obtain ⟨blocks, ctl⟩ := exec_interface rfl he
    refine ⟨_, he, blocks, ctl, ?_⟩
    rw [State.doneWritten_eq (s := s.begin t) ho, State.outcomesSettled_other (s := (s.begin t).outcomeWritten o) hs]
    exact ⟨rfl, rfl, rfl⟩

/-! ### Scans requested, and owed -/

/-- The directive in progress is over and its outcome handed back; a scan owed has not begun yet. -/
def State.completed (p : Progress) (code : OutcomeCode) (ws : List Nat) (s : State) : State :=
  { s with ctl := { s.ctl with progress := none } }.handBack p.slot code ws

theorem State.complete_eq {s : State} {p : Progress} (hp : s.ctl.progress = some p) (code : OutcomeCode)
    (ws : List Nat) : s.complete code ws = (s.completed p code ws).startOwedScan := by
  unfold State.complete
  rw [hp]
  rfl

/-- A directive completed with a scan owed and no scan running: the owed one waits for the outcome it finds. -/
theorem State.complete_owed {s : State} {p : Progress} (hp : s.ctl.progress = some p) (hs : s.smi.scan = .idle)
    (code : OutcomeCode) (ws : List Nat) :
    (s.complete code ws).smi.scanRequest = false ∧
      (s.complete code ws).smi.scan = if s.smi.scanRequest then .outcomes false else .idle := by
  rw [State.complete_eq hp]
  by_cases hr : s.smi.scanRequest = true
  · rw [State.startOwedScan_waits (s := s.completed p code ws) hr ((State.scanFree_iff _).2 ⟨hs, rfl⟩)
      (State.handBack_any _ _ _ _), if_pos hr]
    exact ⟨rfl, rfl⟩
  · have none : s.smi.scanRequest = false := by simpa using hr
    rw [State.startOwedScan_none (s := s.completed p code ws) none, if_neg hr]
    exact ⟨none, hs⟩

theorem execAmendReadComplete_answered (t : Time) (d : List Byte) {s : State} {c : Nat} (h : s.answering .amend)
    (hw : s.amendWork = some c) : exec (.amendReadComplete t d) s = .next ((s.begin t).amendRead c d).freePort := by
  have work : (s.begin t).amendWork = some c := hw
  have answered := State.answer_eq (f := fun
      | .amend => some fun s : State => match s.amendWork with
        | some c => s.amendRead c d
        | none => s
      | _ => none) (State.answering_begin t h) rfl
  rw [work] at answered
  exact congrArg Host.Outcome.next answered

theorem State.amendWork_eq {s : State} {p : Progress} {c : Nat} (hp : s.ctl.progress = some p) (hw : p.work = .amend c) :
    s.amendWork = some c := by
  unfold State.amendWork
  rw [hp]
  dsimp only
  rw [hw]

theorem State.amendRead_refused {s : State} {c : Nat} {d : List Byte} {sc : Script} {f : FaultCode}
    (hs : s.wlk.script = some sc) (hf : checkCue sc.sections sc.bars sc.speakerCount c d = some f) :
    s.amendRead c d = s.complete .refusedParameter [0, 0, f.code] := by
  unfold State.amendRead
  rw [hs]
  dsimp only
  rw [hf]

theorem State.complete_progress (code : OutcomeCode) (ws : List Nat) (s : State) :
    (s.complete code ws).ctl.progress = none := by
  unfold State.complete
  split
  · next h => exact h
  · simp

theorem execUnknownKind_taken (t : Time) {s : State} {slot : Slot} {kind : Nat} {words : List Nat}
    (h : s.taken slot kind words) (hk : kind = 0 ∨ 18 < kind) : exec (.unknownKind t) s =
      .next ((((s.begin t).taking slot kind words).complete .unknownKind []).startOwedScan).freePort :=
  congrArg Host.Outcome.next (State.takeKind_eq t (fun _ _ s => s.complete .unknownKind []) h (by simpa using hk))

/-- Settles O12: a request finds the part free and begins a scan, or is remembered; the scan remembered begins where the
one before ends, or where the directive in progress is done. -/
theorem scanRequested : Obligations.ScanRequested := by
  refine ⟨?scan, ?scanHeld, ?timer, ?timerHeld, ?waits, ?settled, ?ended, ?unknown, ?amend⟩
  case scan =>
    intro t v s hs hp
    have free : (s.begin t).scanFree = true := (State.scanFree_iff _).2 ⟨hs, hp⟩
    have he : exec (.scan t v) s = .next (s.begin t).scanOutcomes :=
      congrArg Host.Outcome.next (State.requestScan_free free)
    obtain ⟨blocks, ctl⟩ := exec_interface rfl he
    exact ⟨_, he, blocks, ctl, (State.scanOutcomes_kept _).1, State.scanOutcomes_begun (s.begin t).closes_id⟩
  case scanHeld =>
    intro t v s h
    exact congrArg Host.Outcome.next (State.requestScan_held (s := s.begin t) (State.scanFree_false h))
  case timer =>
    intro t s ht hs hp
    have free : (s.begin t).rearmScan.scanFree = true := (State.scanFree_iff _).2 ⟨hs, hp⟩
    have he : exec (.scanTimer t) s = .next (s.begin t).rearmScan.scanOutcomes := by
      rw [execScanTimer_expired ht, State.requestScan_free free]
    obtain ⟨blocks, ctl⟩ := exec_interface rfl he
    obtain ⟨request, timer, -⟩ := State.scanOutcomes_kept (s.begin t).rearmScan
    exact ⟨_, he, timer, blocks, ctl, request, State.scanOutcomes_begun (s.begin t).rearmScan.closes_id⟩
  case timerHeld =>
    intro t s ht h
    rw [execScanTimer_expired ht, State.requestScan_held (s := (s.begin t).rearmScan) (State.scanFree_false h)]
    rfl
  case waits =>
    intro t v s hs hp hw
    have free : (s.begin t).scanFree = true := (State.scanFree_iff _).2 ⟨hs, hp⟩
    change Host.Outcome.next (s.begin t).requestScan = _
    rw [State.requestScan_free free, State.scanOutcomes_waits (s := s.begin t) (State.any_writing hw)]
    rfl
  case settled =>
    intro t s slot o h hs ho
    obtain ⟨f, hf, -, -⟩ := State.answering_busy h
    have he := execDoneWrite_answered t h
    obtain ⟨blocks, ctl⟩ := exec_interface rfl he
    have goes (hw : ∀ q ∈ s.smi.outcomes.erase o, q.writing = false) :
        (s.begin t).doneWritten slot = ((s.begin t).outcomeWritten o).scanOutcomes := by
      rw [State.doneWritten_eq (s := s.begin t) ho]
      exact State.outcomesSettled_goes hs hw
    have flag := (State.scanOutcomes_kept ((s.begin t).outcomeWritten o)).2.2.1
    refine ⟨fun hnone => ⟨_, he, blocks, ctl, ?_⟩, fun q qs hq hw => ⟨_, he, blocks, ctl, ?_⟩⟩
    · rw [goes (by simp [hnone])] at *
      rw [State.scanOutcomes_none (s := (s.begin t).outcomeWritten o) hnone] at flag ⊢
      refine ⟨?_, ?_, ?_⟩
      · unfold State.afterOutcomes
        split <;> exact hnone
      · exact congrArg Cause.directive flag
      · have pending : ((s.begin t).outcomeWritten o).smi.sweepPending = s.smi.sweepPending := rfl
        unfold State.afterOutcomes
        rw [pending]
        split <;> rfl
    · rw [goes (by rw [hq]; exact hw)] at *
      rw [State.scanOutcomes_writes (s := (s.begin t).outcomeWritten o) hq hw]
      exact ⟨rfl, rfl, rfl, State.enqueue_freePort_holds (s := (((s.begin t).outcomeWritten o).setOutcomes _).setScan _) _ hf⟩
  case ended =>
    intro t d s slot left h hs hd hl hr hp
    obtain ⟨f, hf, -, -⟩ := State.answering_busy h
    have he := execScanStateRead_answered t d h
    obtain ⟨blocks, ctl⟩ := exec_interface rfl he
    refine ⟨_, he, blocks, ctl, ?_⟩
    rw [State.slotStateRead_other (s := s.begin t) hs hd, State.nextSlot_last slot hl]
    exact State.endScan_owed_begun (s := s.begin t) hf hr hp
  case unknown =>
    intro t s slot kind words h hk hr
    obtain ⟨f, hf⟩ := State.taken_busy h
    have progress : ((s.begin t).taking slot kind words).ctl.progress = some ⟨slot, kind, words, .none⟩ := rfl
    obtain ⟨back, -⟩ := State.complete_added (v := (s.begin t).taking slot kind words) .unknownKind [] progress hf
    obtain ⟨request, scan⟩ := State.complete_owed progress rfl .unknownKind []
    refine ⟨_, execUnknownKind_taken t h hk, back, ?_⟩
    rw [State.startOwedScan_none request]
    exact ⟨request, scan.trans (if_pos hr)⟩
  case amend =>
    intro t d s p c sc f h hp hw hsc hf hs
    have work : s.amendWork = some c := State.amendWork_eq hp hw
    refine ⟨_, execAmendReadComplete_answered t d h work, ?_⟩
    rw [State.amendRead_refused (s := s.begin t) hsc hf]
    exact ⟨State.complete_progress _ _ _, State.complete_owed (s := s.begin t) hp hs _ _⟩

end Sys2Proof.Machine
end

section
/-! The resets (R178, R180): what is left of the state before, the records of the probes and of the engine state, and the
refresh and the sweep that follow. -/

namespace Sys2Proof.Machine

/-! ### A status refresh starts -/

theorem chunks_cons (n k : Nat) {d : List Byte} (h : d ≠ []) : chunks (n + 1) k d = d.take k :: chunks n k (d.drop k) :=
  if_neg (by simpa using h)

/-- The writes of a refresh after the first. -/
def State.refreshRest (tag : Nat) (s : State) : List (Nat × List Byte) := (s.refreshWrites tag).tail

/-- The first write of a refresh is the first 32 bytes of the header, at offset 4 (R193). -/
theorem State.refreshWrites_cons (tag : Nat) (s : State) :
    s.refreshWrites tag = (4, (s.statusHeader tag).take 32) :: s.refreshRest tag := by
  have header : s.statusHeader tag ≠ [] := by
    intro h
    simp only [State.statusHeader, List.append_eq_nil_iff, and_assoc] at h
    exact List.cons_ne_nil _ _ h.1
  unfold State.refreshRest State.refreshWrites
  rw [chunks_cons 7 32 header]
  simp only [pieces, List.cons_append, List.tail_cons]

/-- The snapshot is taken and its first write queued (R193). -/
theorem State.startRefresh_eq (s : State) :
    let tag := (s.smi.refreshTag + 1) % 4294967296
    s.startRefresh = { s with smi := { s.smi with
      refreshTag := tag, refresh := .writing (s.refreshRest tag) false } }.enqueue
        (.writing .status (s.smi.base + 4) ((s.statusHeader tag).take 32) .background) := by
  unfold State.startRefresh
  dsimp only
  rw [State.refreshWrites_cons]
  rfl

theorem State.requestRefresh_idle {s : State} (h : s.smi.refresh = .idle) : s.requestRefresh = s.startRefresh := by
  unfold State.requestRefresh
  rw [h]

/-! ### FREEZE at a reset -/

/-- Nothing fires by a FREEZE level sampled at a reset: the desk and the scheduler's level alone change. -/
theorem State.sampleFreeze_frame (s : State) : s.sampleFreeze = { s with
    desk := s.sampleFreeze.desk, sch := { s.sch with freeze := (s.line .freeze).level || s.sch.freeze } } := by
  rw [State.sampleFreeze_eq]
  split
  · next active => simp [active]
  · next inactive => simp [inactive]

section
variable (s : State)

@[simp] theorem State.sampleFreeze_clock : s.sampleFreeze.clock = s.clock := by rw [State.sampleFreeze_frame]
@[simp] theorem State.sampleFreeze_smi : s.sampleFreeze.smi = s.smi := by rw [State.sampleFreeze_frame]
@[simp] theorem State.sampleFreeze_ctl : s.sampleFreeze.ctl = s.ctl := by rw [State.sampleFreeze_frame]
@[simp] theorem State.sampleFreeze_trk : s.sampleFreeze.trk = s.trk := by rw [State.sampleFreeze_frame]
@[simp] theorem State.sampleFreeze_wlk : s.sampleFreeze.wlk = s.wlk := by rw [State.sampleFreeze_frame]
@[simp] theorem State.sampleFreeze_du : s.sampleFreeze.du = s.du := by rw [State.sampleFreeze_frame]
@[simp] theorem State.sampleFreeze_arb : s.sampleFreeze.arb = s.arb := by rw [State.sampleFreeze_frame]
@[simp] theorem State.sampleFreeze_sent : s.sampleFreeze.sent = s.sent := by rw [State.sampleFreeze_frame]
@[simp] theorem State.sampleFreeze_pending : s.sampleFreeze.pending = s.pending := by rw [State.sampleFreeze_frame]

theorem State.sampleFreeze_sch {s : State} (h : s.sch.freeze = false) :
    s.sampleFreeze.sch = { s.sch with freeze := (s.line .freeze).level } := by
  rw [State.sampleFreeze_frame, h, Bool.or_false]

@[simp] theorem State.probeAll_clock (c) : (s.probeAll c).clock = s.clock := by rw [State.probeAll_frame]
@[simp] theorem State.probeAll_ctl (c) : (s.probeAll c).ctl = s.ctl := by rw [State.probeAll_frame]
@[simp] theorem State.probeAll_desk (c) : (s.probeAll c).desk = s.desk := by rw [State.probeAll_frame]
@[simp] theorem State.probeAll_trk (c) : (s.probeAll c).trk = s.trk := by rw [State.probeAll_frame]
@[simp] theorem State.probeAll_wlk (c) : (s.probeAll c).wlk = s.wlk := by rw [State.probeAll_frame]
@[simp] theorem State.probeAll_sch (c) : (s.probeAll c).sch = s.sch := by rw [State.probeAll_frame]
@[simp] theorem State.probeAll_du (c) : (s.probeAll c).du = s.du := by rw [State.probeAll_frame]
@[simp] theorem State.probeAll_arb (c) : (s.probeAll c).arb = s.arb := by rw [State.probeAll_frame]
@[simp] theorem State.probeAll_pending (c) : (s.probeAll c).pending = s.pending := by rw [State.probeAll_frame]

@[simp] theorem State.probeAll_line (c) (l : Line) : (s.probeAll c).line l = s.line l := by
  unfold State.line
  rw [State.probeAll_desk]

theorem State.probeAll_sent (c) : (s.probeAll c).sent = s.sent ++
    (allScreens.filter fun i => (s.link i).carrier).map fun i => (i, helloFrame ((s.link i).tag + 1)) := by rw [State.probeAll_frame]

end

theorem Desk.resetAt_line (levels : Vector Bool 6) (s : State) (h : s.desk = Desk.resetAt levels) (l : Line) :
    s.line l = LinePort.reset levels[lineIndex l] := by
  unfold State.line
  rw [h]
  simp [Desk.resetAt]

/-! ### The links probe -/

/-- The records of the probes depend on the links that have carrier alone. -/
theorem probeRecords_congr {now : Time} {old new : Screen16 → LinkState} {carrier : Screen16 → Bool} {cause : Nat}
    (h : ∀ i, carrier i = true → old i = new i) :
    probeRecords now old carrier cause = probeRecords now new carrier cause := by
  unfold probeRecords
  refine List.map_congr_left fun p hp => ?_
  have mem := (List.mem_filter.1 (List.fst_mem_of_mem_zipIdx hp)).2
  rw [h _ mem]

theorem probeRecords_length_le (now : Time) (old carrier cause) : (probeRecords now old carrier cause).length ≤ 16 := by
  unfold probeRecords
  rw [List.length_map, List.length_zipIdx]
  exact List.length_filter_le _ _

/-! ### Power on -/

theorem State.powerOnValues_link (lines : BitVec 6) (carriers : BitVec 16) (s : State) (i : Screen16) :
    (s.powerOnValues lines carriers).link i = { Link.reset with carrier := carriers.getLsbD i.val } := by
  simp [State.link, State.powerOnValues]

theorem State.powerOnValues_line (lines : BitVec 6) (carriers : BitVec 16) (s : State) (l : Line) :
    (s.powerOnValues lines carriers).line l = LinePort.reset (lines.getLsbD (lineIndex l).val) := by
  rw [Desk.resetAt_line (Vector.ofFn fun i => lines.getLsbD i.val) _ rfl]
  simp

/-- What the probes at power-on leave of the interface: their records, the first being written. -/
theorem State.powerOn_smi (lines : BitVec 6) (carriers : BitVec 16) (s : State) :
    let records := probeRecords 0 (fun _ => .down) (fun i => carriers.getLsbD i.val) 1
    ((s.powerOnValues lines carriers).probeAll .carrierUp).smi = { Interface.reset with
      journalCount := records.length, journalQueue := records
      journalPhase := if records = [] then .idle else .record
      port := { Port.reset with
        inFlight := records.head?.map fun r => ⟨.writing .journalRecord 8192 r.bytes .urgent, 0, false⟩ } } := by
  intro records
  have probed := State.probeAll_smi .carrierUp (s.powerOnValues lines carriers) rfl rfl rfl
  have same : probeRecords (s.powerOnValues lines carriers).clock
      (fun i => ((s.powerOnValues lines carriers).link i).state)
      (fun i => ((s.powerOnValues lines carriers).link i).carrier) LinkCause.carrierUp.code = records := by
    have clock : (s.powerOnValues lines carriers).clock = 0 := rfl
    have down : Link.reset.state = .down := rfl
    have cause : LinkCause.carrierUp.code = 1 := rfl
    simp only [State.powerOnValues_link, clock, down, cause]
    rfl
  have address : (s.powerOnValues lines carriers).journalAddress 0 = 8192 := by
    have base : (s.powerOnValues lines carriers).smi.base = 0 := rfl
    simp [State.journalAddress, base]
  simp only [same, address] at probed
  rw [probed]
  clear_value records
  cases records <;> rfl

/-- Settles O4: the values, then the probes, then FREEZE; each says what it leaves. -/
theorem powerOnReset : Obligations.PowerOnReset := by
  intro lines carriers s records
  have line := State.powerOnValues_line lines carriers s
  have link := State.powerOnValues_link lines carriers s
  have smi := State.powerOn_smi lines carriers s
  have clock : (s.powerOnValues lines carriers).clock = 0 := rfl
  have sampled := State.sampleFreeze_deskSampled ((s.powerOnValues lines carriers).probeAll .carrierUp)
    (fun l => lines.getLsbD (lineIndex l).val) (by simpa using line) (by simp; rfl) (by simp; rfl)
  refine ⟨_, rfl, ?_⟩
  rw [State.probeAll_clock, clock] at sampled
  simp only [State.sampleFreeze_clock, State.sampleFreeze_ctl, State.sampleFreeze_trk, State.sampleFreeze_wlk,
    State.sampleFreeze_du, State.sampleFreeze_arb, State.sampleFreeze_smi, State.sampleFreeze_pending,
    State.sampleFreeze_sent, State.sampleFreeze_link, smi]
  refine ⟨State.probeAll_clock _ _, State.probeAll_ctl _ _, State.probeAll_trk _ _, State.probeAll_wlk _ _,
    State.probeAll_du _ _, State.probeAll_arb _ _, ?_, rfl, rfl, rfl, rfl, rfl, rfl, rfl, rfl, rfl, rfl, rfl, rfl, rfl,
    rfl, rfl, rfl, rfl, rfl, rfl, rfl, rfl, State.probeAll_pending _ _, sampled, fun i => ?_, ?_⟩
  · rw [State.sampleFreeze_sch (by simp; rfl), State.probeAll_sch, State.probeAll_line, line]
    rfl
  · rw [State.probeAll_link, link, clock]
    by_cases hi : carriers.getLsbD i.val = true
    · rw [hi]
      rfl
    · rw [Bool.eq_false_iff.2 hi]
      rfl
  · rw [State.probeAll_sent]
    simp only [link]
    rfl

/-! ### A soft reset -/

/-- The probes' records and that of the engine state, which is the last (R178). -/
def State.resetRecords (s : State) : List JournalRecord :=
  let probes := probeRecords s.clock (fun i => (s.link i).state) (fun i => (s.link i).carrier) 6
  probes ++ [⟨probes.length, s.clock, .engineState s.ctl.engine.code 1 10 255 0 0⟩]

/-- The interface of a soft reset with its records in the journal, and the first being written. -/
def State.resetJournaled (r : JournalRecord) (s : State) : Interface :=
  { s.smi.softReset s.clock with
    journalCount := s.resetRecords.length, journalQueue := s.resetRecords.take 16, journalPhase := .record
    port := (s.smi.port.softReset.push (.writing .journalRecord (s.smi.base + 8192) r.bytes .urgent)).grant s.clock }

/-- The state of a soft reset before its engine state is journalled. -/
def State.resetProbed (s : State) : State := (s.softValues.probeAll .reset).sampleFreeze

theorem State.softValues_records (s : State) :
    probeRecords s.softValues.clock (fun i => (s.softValues.link i).state) (fun i => (s.softValues.link i).carrier) 6 =
      probeRecords s.clock (fun i => (s.link i).state) (fun i => (s.link i).carrier) 6 := by
  have carrier : (fun i => (s.softValues.link i).carrier) = fun i => (s.link i).carrier := by
    funext i
    rw [State.softValues_link]
    rfl
  rw [carrier]
  refine probeRecords_congr fun i hi => ?_
  rw [State.softValues_link]
  exact if_pos hi

theorem State.softValues_line (s : State) (l : Line) : s.softValues.line l = LinePort.reset (s.line l).level := by
  rw [Desk.resetAt_line (s.desk.lines.map fun x => x.level) _ rfl]
  simp [State.line]

theorem State.softValues_freeze (s : State) : s.softValues.sch.freeze = false := rfl

theorem State.resetProbed_deskSampled (s : State) : s.resetProbed.deskSampled s.clock fun l => (s.line l).level := by
  have clock : (s.softValues.probeAll .reset).clock = s.clock := State.probeAll_clock _ _
  rw [← clock]
  refine State.sampleFreeze_deskSampled _ _ (fun l => ?_) ?_ ?_
  · rw [State.probeAll_line, State.softValues_line]
  · rw [State.probeAll_desk]
    rfl
  · rw [State.probeAll_desk]
    rfl

theorem State.resetProbed_sch (s : State) :
    s.resetProbed.sch = { Scheduler.reset with freeze := (s.line .freeze).level } := by
  unfold State.resetProbed
  rw [State.sampleFreeze_sch (by rw [State.probeAll_sch]; rfl), State.probeAll_sch, State.probeAll_line,
    State.softValues_line]
  rfl

theorem State.resetProbed_link (s : State) (i : Screen16) : s.resetProbed.link i = if (s.link i).carrier
    then { Link.reset with carrier := true, tag := (s.link i).tag }.probe s.clock
    else { Link.reset with tag := (s.link i).tag } := by
  unfold State.resetProbed
  rw [State.sampleFreeze_link, State.probeAll_link, State.softValues_link]
  unfold Link.softReset
  dsimp only
  cases (s.link i).carrier <;> rfl

theorem State.resetProbed_clock (s : State) : s.resetProbed.clock = s.clock :=
  (State.sampleFreeze_clock _).trans (State.probeAll_clock _ _)

theorem State.resetProbed_smi (s : State) : s.resetProbed.smi = (s.softValues.probeAll .reset).smi :=
  State.sampleFreeze_smi _

/-- Show Control at its reset values. -/
def State.resetControl (s : State) : State := { s with ctl := Control.reset }

theorem State.resetControl_clock (s : State) : s.resetControl.clock = s.clock := rfl

theorem State.resetControl_smi (s : State) : s.resetControl.smi = s.smi := rfl

/-- The state in which the engine state of a soft reset is journalled. -/
def State.resetIdle (s : State) : State := s.resetProbed.resetControl

theorem State.resetIdle_clock (s : State) : s.resetIdle.clock = s.clock := by
  unfold State.resetIdle
  rw [State.resetControl_clock, s.resetProbed_clock]

theorem State.resetIdle_smi (s : State) : s.resetIdle.smi = (s.softValues.probeAll .reset).smi := by
  unfold State.resetIdle
  rw [State.resetControl_smi, s.resetProbed_smi]

/-- The journal of a soft reset: ENGINE STATE comes behind the records of the probes, first of all where there are none,
and is lost behind 16 of them (R178, R190). -/
theorem State.resetIdle_journal (s : State) {r : JournalRecord} (hr : s.resetRecords.head? = some r) :
    (s.resetIdle.journal (.engineState s.ctl.engine.code 1 10 255 0 0)).smi = s.resetJournaled r := by
  have clock := s.resetIdle_clock
  have smi : s.softValues.smi = s.smi.softReset s.clock := rfl
  have address : s.softValues.journalAddress 0 = s.smi.base + 8192 := by simp [State.journalAddress, smi, Interface.softReset]
  have probed := State.probeAll_smi .reset s.softValues rfl rfl rfl
  have cause : LinkCause.reset.code = 6 := rfl
  simp only [cause, State.softValues_records] at probed
  rw [← State.resetIdle_smi, address] at probed
  have short := probeRecords_length_le s.clock (fun i => (s.link i).state) (fun i => (s.link i).carrier) 6
  unfold State.resetJournaled
  unfold State.resetRecords at *
  generalize probeRecords s.clock (fun i => (s.link i).state) (fun i => (s.link i).carrier) 6 = probes at *
  cases probes with
  | nil =>
    obtain rfl : _ = r := by simpa using hr
    have address : s.resetIdle.journalAddress s.resetIdle.smi.journalCount = s.smi.base + 8192 := by
      rw [probed]
      unfold State.journalAddress
      rw [probed]
      simp [smi, Interface.softReset, Interface.reset]
    rw [State.journal_first _ (by rw [probed]; rfl) (by rw [probed]; rfl), clock, address, probed]
    rfl
  | cons q qs =>
    obtain rfl : q = r := by simpa using hr
    have phase : s.resetIdle.smi.journalPhase ≠ .idle := by rw [probed]; simp
    have queue : s.resetIdle.smi.journalQueue = q :: qs := by rw [probed]
    have count : s.resetIdle.smi.journalCount = qs.length + 1 := by rw [probed]; rfl
    have wraps : (qs.length + 1 + 1) % 4294967296 = qs.length + 1 + 1 := by
      rw [List.length_cons] at short
      omega
    by_cases room : qs.length + 1 < 16
    · rw [State.journal_behind _ phase (by rw [queue]; exact room), clock, count, queue, wraps, probed]
      rw [List.take_of_length_le (by simp; omega), smi]
      simp only [List.length_append, List.length_cons, List.length_nil]
      rfl
    · rw [State.journal_full _ (by rw [queue]; simpa using room), count, wraps, probed]
      have full : qs.length + 1 = 16 := by
        rw [List.length_cons] at short
        omega
      rw [List.take_append_of_le_length (by simp [full]), List.take_of_length_le (by simp [full]), smi]
      simp only [List.length_append, List.length_cons, List.length_nil]
      rfl

/-! ### The port after a soft reset -/

theorem Port.push_waits_iff (p : Port) (a b : Access) : (p.push a).waits b ↔ p.waits b ∨ b = a := by
  unfold Port.push Port.waits
  cases a.cls <;> simp <;> tauto

theorem Port.waits_of_grant {now : Time} {p : Port} {a : Access} (h : (p.grant now).waits a) : p.waits a := by
  revert h
  unfold Port.grant Port.waits
  repeat' split
  all_goals simp_all
  all_goals tauto

/-- What a soft reset that queues `j` first leaves of the port `old` (R180, R184, R185): an access in flight is abandoned,
what waits is `j` or one that is allowed, and W is 8. -/
structure Port.resetWith (old : Port) (j : Access) (allowed : Access → Prop) (p : Port) : Prop where
  busy : p.inFlight.isSome = true
  abandoned : ∀ f, old.inFlight = some f → p.inFlight = some { f with abandoned := true }
  weight : p.weight = .grants 8
  counter : p.counter = 0
  waiting : ∀ a, p.waits a → a = j ∨ allowed a
  first : p.holds j

theorem Port.holds_push {p : Port} {j : Access} (a : Access) (h : p.holds j) : (p.push a).holds j := by
  rcases h with ⟨f, inFlight, access⟩ | waiting
  · exact .inl ⟨f, by rw [Port.push_inFlight, inFlight], access⟩
  · exact .inr (Port.push_keeps a waiting)

/-- The first access of a soft reset waits behind the one abandoned, or is granted at once. -/
theorem Port.softReset_resetWith (now : Time) (old : Port) (j : Access) (allowed) (hj : j.cls = .urgent) :
    old.resetWith j allowed ((old.softReset.push j).grant now) := by
  have holds := Port.grant_holds now (Port.push_waits old.softReset j)
  cases h : old.inFlight with
  | some f =>
    have reset : (old.softReset.push j).inFlight = some { f with abandoned := true } := by
      rw [Port.push_inFlight]
      simp [Port.softReset, h]
    rw [Port.grant_busy now reset] at holds ⊢
    refine ⟨by simp [reset], by simp [h, reset], ?_, ?_, fun a ha => ?_, holds⟩
    · rw [Port.push_weight]; rfl
    · unfold Port.push; rw [hj]; rfl
    · rcases (Port.push_waits_iff _ j a).1 ha with ha | ha
      · simp [Port.waits, Port.softReset, Port.reset] at ha
      · exact .inl ha
  | none =>
    have granted : (old.softReset.push j).grant now = { Port.reset with inFlight := some ⟨j, now, false⟩ } := by
      simp [Port.softReset, h, Port.push, hj, Port.grant, Port.reset]
    rw [granted] at holds ⊢
    exact ⟨rfl, by simp [h], rfl, rfl, by simp [Port.waits, Port.reset], holds⟩

/-- A further access of the reset waits. -/
theorem Port.resetWith.push {old p : Port} {j : Access} {allowed} (h : old.resetWith j allowed p) (now : Time)
    {a : Access} (ha : allowed a) : old.resetWith j allowed ((p.push a).grant now) := by
  obtain ⟨f, hf⟩ := Option.isSome_iff_exists.1 h.busy
  rw [Port.grant_busy now ((Port.push_inFlight p a).trans hf)]
  refine ⟨by rw [Port.push_inFlight]; exact h.busy, fun f hf => ?_, ?_, ?_, fun b hb => ?_, Port.holds_push a h.first⟩
  · rw [Port.push_inFlight]; exact h.abandoned f hf
  · rw [Port.push_weight]; exact h.weight
  · rw [show (p.push a).counter = p.counter by unfold Port.push; split <;> rfl]; exact h.counter
  · rcases (Port.push_waits_iff p a b).1 hb with hb | rfl
    · exact h.waiting b hb
    · exact .inr ha

/-! ### The interface after a soft reset -/

/-- ENGINE STATE asks for a refresh, which starts with tag 1 (R178, R193). -/
theorem State.softReset_smi (s : State) {r : JournalRecord} (hr : s.resetRecords.head? = some r) :
    ∃ rest data, s.softReset.smi = { s.resetJournaled r with
      refreshTag := 1, refresh := .writing rest false
      port := ((s.resetJournaled r).port.push (.writing .status (s.smi.base + 4) data .background)).grant s.clock } := by
  have engine : s.resetProbed.ctl = { Control.reset with engine := s.ctl.engine } := by
    unfold State.resetProbed
    rw [State.sampleFreeze_ctl, State.probeAll_ctl]
    rfl
  have smi := State.resetIdle_journal s hr
  have clock : (s.resetIdle.journal (.engineState s.ctl.engine.code 1 10 255 0 0)).clock = s.clock := by
    rw [State.journal_clock, s.resetIdle_clock]
  have same : s.softReset = (s.resetIdle.journal (.engineState s.ctl.engine.code 1 10 255 0 0)).requestRefresh := by
    show s.resetProbed.changeEngine .idle .reset none 0 0 = _
    unfold State.changeEngine
    rw [engine]
    rfl
  have idle : (s.resetIdle.journal (.engineState s.ctl.engine.code 1 10 255 0 0)).smi.refresh = .idle := by
    rw [smi]; rfl
  rw [same, State.requestRefresh_idle idle, State.startRefresh_eq]
  generalize s.resetIdle.journal (.engineState s.ctl.engine.code 1 10 255 0 0) = journaled at *
  refine ⟨journaled.refreshRest 1, (journaled.statusHeader 1).take 32, ?_⟩
  have tag : journaled.smi.refreshTag = 0 := by rw [smi]; rfl
  unfold State.enqueue State.setPort
  dsimp only
  rw [clock, tag, smi]
  rfl

/-- After a soft reset nothing holds a scan, and the sweep is pending: a scan starts with slot 0 (R186, R187). -/
theorem State.softReset_requestScan (s : State) {r : JournalRecord} (hr : s.resetRecords.head? = some r) :
    s.softReset.requestScan = s.softReset.sweepSlot 0 := by
  obtain ⟨rest, data, smi⟩ := s.softReset_smi hr
  have free : s.softReset.scanFree = true := by
    rw [State.scanFree_iff, smi]
    exact ⟨rfl, by unfold State.softReset; rw [State.changeEngine_ctl, State.sampleFreeze_ctl, State.probeAll_ctl]; rfl⟩
  rw [State.requestScan_free free, State.scanOutcomes_none (by rw [smi]; rfl)]
  unfold State.afterOutcomes
  rw [smi]
  rfl

/-- The values of a soft reset outside the interface. -/
theorem State.softReset_values (s : State) :
    s.softReset.clock = s.clock ∧ s.softReset.ctl = Control.reset ∧ s.softReset.trk = Tracker.reset ∧
    s.softReset.wlk = Walker.reset ∧ s.softReset.du = Descriptors.reset ∧ s.softReset.arb = Arbiter.reset ∧
    s.softReset.sch = { Scheduler.reset with freeze := (s.line .freeze).level } ∧
    s.softReset.deskSampled s.clock (fun l => (s.line l).level) ∧
    s.softReset.sent = s.sent ++
      ((allScreens.filter fun i => (s.link i).carrier).map fun i => (i, helloFrame ((s.link i).tag + 1))) ∧
    (∀ i, s.softReset.link i = if (s.link i).carrier
      then { Link.reset with carrier := true, tag := (s.link i).tag }.probe s.clock
      else { Link.reset with tag := (s.link i).tag }) ∧
    s.softReset.pending = s.pending := by
  have same : s.softReset = s.resetProbed.changeEngine .idle .reset none 0 0 := rfl
  have probed : s.resetProbed = (s.softValues.probeAll .reset).sampleFreeze := rfl
  rw [same]
  refine ⟨?_, ?_, ?_, ?_, ?_, ?_, ?_, ?_, ?_, fun i => ?_, ?_⟩
  · rw [State.changeEngine_clock, s.resetProbed_clock]
  · rw [State.changeEngine_ctl, probed, State.sampleFreeze_ctl, State.probeAll_ctl]; rfl
  · rw [State.changeEngine_trk, probed, State.sampleFreeze_trk, State.probeAll_trk]; rfl
  · rw [State.changeEngine_wlk, probed, State.sampleFreeze_wlk, State.probeAll_wlk]; rfl
  · rw [State.changeEngine_du, probed, State.sampleFreeze_du, State.probeAll_du]; rfl
  · rw [State.changeEngine_arb, probed, State.sampleFreeze_arb, State.probeAll_arb]; rfl
  · rw [State.changeEngine_sch, s.resetProbed_sch]
  · have sampled := s.resetProbed_deskSampled
    unfold State.deskSampled State.line at *
    rw [State.changeEngine_desk]
    exact sampled
  · rw [State.changeEngine_sent, probed, State.sampleFreeze_sent, State.probeAll_sent]
    have link : ∀ i, (s.softValues.link i).carrier = (s.link i).carrier ∧ (s.softValues.link i).tag = (s.link i).tag :=
      fun i => by rw [State.softValues_link]; exact ⟨rfl, rfl⟩
    simp only [link]
    rfl
  · rw [← s.resetProbed_link]
    unfold State.link
    rw [State.changeEngine_links]
  · rw [State.changeEngine_pending, probed, State.sampleFreeze_pending, State.probeAll_pending]; rfl

/-- An access that a soft reset with or without SCAN queues behind its first record. -/
def Access.ofReset (scan : Bool) (a : Access) : Prop :=
  a.purpose = .status ∨ (scan = true ∧ a.purpose = .sweepState 0)

/-- Settles O5: outside the interface the values stand; in it the journal, the refresh and the scan each add an access. -/
theorem softReset : Obligations.SoftReset := by
  intro t v s probes records
  obtain ⟨r, hr⟩ : ∃ r, (s.begin t).resetRecords.head? = some r :=
    Option.isSome_iff_exists.1 (by unfold State.resetRecords; simp)
  obtain ⟨clock, ctl, trk, wlk, du, arb, sch, desk, sent, link, pending⟩ := (s.begin t).softReset_values
  obtain ⟨rest, data, smi⟩ := (s.begin t).softReset_smi hr
  have port : s.smi.port.resetWith (.writing .journalRecord (s.smi.base + 8192) r.bytes .urgent)
      (Access.ofReset (v.getLsbD 0)) (s.begin t).softReset.smi.port := by
    rw [smi]
    exact (Port.softReset_resetWith _ s.smi.port _ _ rfl).push _ (.inl rfl)
  have first : ∀ q, records.head? = some q → r = q := fun q hq => Option.some.inj (hr.symm.trans hq)
  have waiting : ∀ {p : Port} (a), s.smi.port.resetWith (.writing .journalRecord (s.smi.base + 8192) r.bytes .urgent)
      (Access.ofReset (v.getLsbD 0)) p → p.waits a → a.purpose = .journalRecord ∨ a.purpose = .status ∨
      (v.getLsbD 0 = true ∧ a.purpose = .sweepState 0) := fun a h ha =>
    (h.waiting a ha).imp (fun e => by rw [e]; rfl) id
  have run : exec (.reset t v) s =
      .next (if v.getLsbD 0 then (s.begin t).softReset.sweepSlot 0 else (s.begin t).softReset) := by
    rw [← State.softReset_requestScan _ hr]
    rfl
  rw [run]
  generalize (s.begin t).softReset = u at *
  have base : u.smi.base = s.smi.base := by rw [smi]; rfl
  have enables : u.smi.enables = s.smi.enables := by rw [smi]; rfl
  by_cases scan : v.getLsbD 0 = true
  · have swept := port.push u.clock (a := .read (.sweepState 0) ((u.setScan (.sweepRead 0)).slotAddress 0) 4 .background FaultDetail.none) (.inr ⟨scan, rfl⟩)
    exact ⟨u.sweepSlot 0, by rw [if_pos scan], clock, base, enables,
      congrArg Interface.flags smi, congrArg Interface.outcomes smi, congrArg Interface.sweepPending smi,
      congrArg Interface.rotation smi, congrArg Interface.scanTimer smi, congrArg Interface.statusTimer smi,
      (if_pos scan).symm, swept.abandoned, ctl, trk, wlk, du, arb, sch, desk, congrArg Interface.scanRequest smi,
      swept.weight, swept.counter, congrArg Interface.journalLost smi, fun a => waiting a swept,
      congrArg Interface.journalCount smi, congrArg Interface.journalQueue smi, congrArg Interface.journalPhase smi,
      fun q hq => first q hq ▸ swept.first, congrArg Interface.refreshTag smi,
      ⟨rest, congrArg Interface.refresh smi⟩, sent, link, pending⟩
  · exact ⟨u, congrArg _ (if_neg scan), clock, base, enables,
      congrArg Interface.flags smi, congrArg Interface.outcomes smi, congrArg Interface.sweepPending smi,
      congrArg Interface.rotation smi, congrArg Interface.scanTimer smi, congrArg Interface.statusTimer smi,
      (congrArg Interface.scan smi).trans (if_neg scan).symm, port.abandoned, ctl, trk, wlk, du, arb, sch, desk,
      congrArg Interface.scanRequest smi, port.weight, port.counter, congrArg Interface.journalLost smi,
      fun a => waiting a port, congrArg Interface.journalCount smi, congrArg Interface.journalQueue smi,
      congrArg Interface.journalPhase smi, fun q hq => first q hq ▸ port.first, congrArg Interface.refreshTag smi,
      ⟨rest, congrArg Interface.refresh smi⟩, sent, link, pending⟩

/-- The line of an index. -/
def lineOf : Fin 6 → Line
  | 0 => .beat
  | 1 => .downbeat
  | 2 => .go
  | 3 => .back
  | 4 => .blank
  | 5 => .freeze

theorem lineIndex_lineOf (i : Fin 6) : lineIndex (lineOf i) = i := by
  revert i
  decide

/-- Two states that agree on what a soft reset keeps have the same values after it. -/
theorem State.softValues_congr {s r : State} (clock : s.clock = r.clock) (base : s.smi.base = r.smi.base)
    (enables : s.smi.enables = r.smi.enables) (inFlight : s.smi.port.inFlight = r.smi.port.inFlight)
    (engine : s.ctl.engine = r.ctl.engine) (pending : s.pending = r.pending) (sent : s.sent = r.sent)
    (lines : ∀ l, (s.line l).level = (r.line l).level)
    (links : ∀ i, (s.link i).state = (r.link i).state ∧ (s.link i).carrier = (r.link i).carrier ∧
      (s.link i).tag = (r.link i).tag) : s.softValues = r.softValues := by
  have smi : s.smi.softReset s.clock = r.smi.softReset r.clock := by
    unfold Interface.softReset Port.softReset
    rw [clock, base, enables, inFlight]
  have levels : s.desk.lines.map (fun x => x.level) = r.desk.lines.map fun x => x.level := by
    ext i hi
    have level := lines (lineOf ⟨i, hi⟩)
    unfold State.line at level
    simpa [lineIndex_lineOf] using level
  have reset : s.links.map Link.softReset = r.links.map Link.softReset := by
    ext i hi
    obtain ⟨state, carrier, tag⟩ := links ⟨i, hi⟩
    have same : Link.softReset (s.link ⟨i, hi⟩) = Link.softReset (r.link ⟨i, hi⟩) := by
      unfold Link.softReset
      rw [state, carrier, tag]
    unfold State.link at same
    rw [Vector.getElem_map, Vector.getElem_map]
    exact same
  unfold State.softValues
  rw [smi, levels, reset, clock, engine, pending, sent]

/-- Settles O6: the step is a function of the values a soft reset sets. -/
theorem softResetForgets : Obligations.SoftResetForgets := by
  intro t v s r clock base enables inFlight engine pending lines links
  have values : (s.begin t).softValues = (r.begin t).softValues :=
    State.softValues_congr (by unfold State.begin; dsimp only; rw [clock]) base enables inFlight engine pending rfl
      lines links
  have same : (s.begin t).softReset = (r.begin t).softReset := by
    unfold State.softReset
    rw [values]
  show execReset t v s = execReset t v r
  unfold execReset
  rw [same]

end Sys2Proof.Machine
end

section
/-! The directives that end at once (R166, R167): which parameters are out of range, and what a refusal and a screen's
setting leave. -/

namespace Sys2Proof.Machine

/-! ### Parameters out of range -/

theorem readScreen_eq (i : Screen16) : readScreen i.val = some i := by
  unfold readScreen
  rw [dif_pos i.isLt]

theorem readScreen_none {w : Nat} (h : ¬w ≤ 15) : readScreen w = none := dif_neg (by omega)

theorem readLang_none {w : Nat} (h : ¬w ≤ 7) : readLang w = none := dif_neg (by omega)

theorem readLang_some {w : Nat} (h : w ≤ 7) : ∃ l, readLang w = some l := ⟨_, dif_pos (by omega)⟩

theorem readScreen_some {w : Nat} (h : w ≤ 15) : ∃ i, readScreen w = some i := ⟨_, dif_pos (by omega)⟩

theorem readLayoutSlot_none {w : Nat} (h : ¬(w ≤ 7 ∨ w = 255)) : readLayoutSlot w = none := by
  rw [not_or] at h
  unfold readLayoutSlot
  rw [if_neg h.2, readLang_none h.1]
  rfl

theorem readTransition_none {w : Nat} (h : ¬w ≤ 2) : readTransition w = none := by
  unfold readTransition
  rw [if_neg (by omega), if_neg (by omega), if_neg (by omega)]

theorem readPrefixMode_none {w : Nat} (h : ¬w ≤ 2) : readPrefixMode w = none := by
  unfold readPrefixMode
  rw [if_neg (by omega), if_neg (by omega), if_neg (by omega)]

theorem readSelector_none {w : Nat} (h : ¬w ≤ 6) : readSelector w = none := by
  unfold readSelector
  rw [if_neg (by omega), if_neg (by omega), if_neg (by omega), if_neg (by omega), if_neg (by omega), if_neg (by omega),
    if_neg (by omega)]

theorem readWeight_none {w : Nat} (h : ¬(w = 0 ∨ w = 4 ∨ w = 8 ∨ w = 16)) : readWeight w = none := by
  unfold readWeight
  rw [if_neg (by tauto), if_neg (by tauto)]

/-- A chain of readings has no value once one of them has none. -/
theorem Option.bind_none_of {α β : Type} {o : Option α} {f : α → Option β} (h : o = none ∨ ∀ a, f a = none) :
    o.bind f = none := by
  rcases h with rfl | h
  · rfl
  · cases o with
    | none => rfl
    | some a => exact h a

section
variable {s : State} {ws : List Nat}

theorem readArmFor_none (h : ¬s.parametersInRange 2 ws) : readArmFor ws s = none := by
  unfold readArmFor
  cases armed : readArm ws with
  | none => rfl
  | some a =>
    cases script : s.wlk.script with
    | none => rfl
    | some sc =>
      refine if_neg fun start => h ?_
      unfold readArm at armed
      split at armed
      · next range =>
        obtain ⟨version, low, high, ahead, ahead', late⟩ := range
        refine ⟨version, ⟨sc, script, start⟩, low, high, ahead, ahead', late, ?_⟩
        by_contra weight
        rw [readWeight_none weight] at armed
        cases armed
      · cases armed

theorem readLocate_none (h : ¬s.parametersInRange 6 ws) : readLocate ws s = none := by
  unfold readLocate
  cases sec : s.wlk.sec (word ws 0) with
  | none => rfl
  | some x =>
    by_cases inOrder : word ws 0 ∈ s.wlk.order.getD []
    · have out : ¬(x.mode = .beat → 1 ≤ word ws 1 ∧ word ws 1 ≤ x.barCount) := fun b => h ⟨x, sec, inOrder, b⟩
      rw [Classical.not_imp] at out
      simp only [inOrder, if_true, out.1, out.2, if_false]
    · simp only [inOrder, if_false]

theorem screenMask_ne_zero {w : Nat} : screenMask w ≠ 0 ↔ w % 65536 ≠ 0 := by
  unfold screenMask
  rw [ne_eq, ← BitVec.toNat_inj]
  simp

theorem readNotice_none (h : ¬s.parametersInRange 7 ws) : readNotice ws = none := by
  refine if_neg fun range => h ?_
  rw [screenMask_ne_zero] at range
  exact range

theorem readLayout_none (h : ¬s.parametersInRange 10 ws) : readLayout ws = none := by
  have out : ¬(word ws 0 ≤ 15 ∧ (word ws 1 ≤ 7 ∨ word ws 1 = 255) ∧ (word ws 2 ≤ 7 ∨ word ws 2 = 255) ∧
      (word ws 3 ≤ 7 ∨ word ws 3 = 255) ∧ (word ws 4 ≤ 7 ∨ word ws 4 = 255)) := by
    simpa [State.parametersInRange] using h
  simp only [not_and_or] at out
  unfold readLayout
  rcases out with out | out | out | out | out
  · rw [readScreen_none out]; rfl
  · rw [readLayoutSlot_none (by tauto)]
    exact Option.bind_none_of (.inr fun _ => rfl)
  · rw [readLayoutSlot_none (w := word ws 2) (by tauto)]
    exact Option.bind_none_of (.inr fun _ => Option.bind_none_of (.inr fun _ => rfl))
  · rw [readLayoutSlot_none (w := word ws 3) (by tauto)]
    exact Option.bind_none_of (.inr fun _ => Option.bind_none_of (.inr fun _ => Option.bind_none_of (.inr fun _ => rfl)))
  · rw [readLayoutSlot_none (w := word ws 4) (by tauto)]
    exact Option.bind_none_of (.inr fun _ => Option.bind_none_of (.inr fun _ => Option.bind_none_of
      (.inr fun _ => Option.bind_none_of (.inr fun _ => rfl))))

theorem readSettings_none (h : ¬s.parametersInRange 11 ws) : readSettings ws = none := by
  have out : ¬(word ws 0 ≤ 15 ∧ word ws 1 ≤ 200000 ∧ word ws 2 ≤ 2 ∧ word ws 3 ≤ 2) := h
  simp only [not_and_or] at out
  unfold readSettings
  rcases out with out | out | out | out
  · rw [readScreen_none out]; rfl
  · simp only [out, if_false]
    exact Option.bind_none_of (.inr fun _ => Option.bind_none_of (.inr fun _ => Option.bind_none_of (.inr fun _ => rfl)))
  · rw [readTransition_none out]
    exact Option.bind_none_of (.inr fun _ => rfl)
  · rw [readPrefixMode_none out]
    exact Option.bind_none_of (.inr fun _ => Option.bind_none_of (.inr fun _ => rfl))

theorem readMirror_none (h : ¬s.parametersInRange 12 ws) : readMirror ws = none := by
  have out : ¬(word ws 1 = 255 ∨ (word ws 0 ≤ 15 ∧ word ws 1 ≤ 15 ∧ word ws 0 ≠ word ws 1)) := h
  rw [not_or] at out
  obtain ⟨on, out⟩ := out
  unfold readMirror
  rw [if_neg on]
  by_cases source : word ws 0 ≤ 15
  · by_cases monitor : word ws 1 ≤ 15
    · have same : word ws 0 = word ws 1 := by
        by_contra differ
        exact out ⟨source, monitor, differ⟩
      obtain ⟨i, hi⟩ := readScreen_some monitor
      rw [same, hi]
      exact if_pos rfl
    · rw [readScreen_none monitor]
      exact Option.bind_none_of (.inr fun _ => rfl)
  · rw [readScreen_none source]; rfl

theorem readCueIndex_none (h : ¬s.parametersInRange 14 ws) : readCueIndex ws s = none := by
  refine if_neg fun below => h ?_
  cases script : s.wlk.script with
  | none => simp [script] at below
  | some sc => exact ⟨sc, script, by simpa [script] using below⟩

theorem readInvalidate_none (h : ¬s.parametersInRange 15 ws) : readInvalidate ws = none := by
  have out : ¬(word ws 0 = 1 ∨ (word ws 0 = 0 ∧ word ws 1 ≤ 65535 ∧ word ws 2 ≤ 7)) := h
  rw [not_or] at out
  obtain ⟨one, out⟩ := out
  unfold readInvalidate
  rw [if_neg one]
  split
  · next range =>
    rw [readLang_none fun lang => out ⟨range.1, range.2, lang⟩]
    rfl
  · rfl

theorem mapM_none {α β : Type} {f : α → Option β} : ∀ {l : List α} {a : α}, a ∈ l → f a = none → l.mapM f = none
  | b :: l, a, ha, h => by
    rw [List.mapM_cons]
    rcases List.mem_cons.1 ha with rfl | ha
    · rw [h]; rfl
    · rw [mapM_none ha h]
      exact Option.bind_none_of (.inr fun _ => rfl)

theorem readWarm_none (h : ¬s.parametersInRange 16 ws) : readWarm ws = none := by
  have out : ¬(1 ≤ word ws 0 ∧ word ws 0 ≤ 8 ∧ ∀ i < word ws 0, word ws (i + 1) / 65536 ≤ 7) := h
  unfold readWarm
  split
  · next range =>
    obtain ⟨i, below, lang⟩ : ∃ i < word ws 0, ¬word ws (i + 1) / 65536 ≤ 7 := by
      by_contra all
      exact out ⟨range.1, range.2, fun i hi => by_contra fun lang => all ⟨i, hi, lang⟩⟩
    refine mapM_none (List.mem_range.2 below) ?_
    unfold readWarmKey
    rw [readLang_none lang]
    rfl
  · rfl

theorem readSelectors_none (h : ¬s.parametersInRange 17 ws) : readSelectors ws = none := by
  have out : ¬(word ws 0 ≤ 15 ∧ word ws 1 ≤ 6 ∧ word ws 2 ≤ 6 ∧ word ws 3 ≤ 6) := h
  simp only [not_and_or] at out
  unfold readSelectors
  rcases out with out | out | out | out
  · rw [readScreen_none out]; rfl
  · rw [readSelector_none out]
    exact Option.bind_none_of (.inr fun _ => rfl)
  · rw [readSelector_none (w := word ws 2) out]
    exact Option.bind_none_of (.inr fun _ => Option.bind_none_of (.inr fun _ => rfl))
  · rw [readSelector_none (w := word ws 3) out]
    exact Option.bind_none_of (.inr fun _ => Option.bind_none_of (.inr fun _ => Option.bind_none_of (.inr fun _ => rfl)))

end

/-! ### Refusals -/

/-- Every row of a kind takes its directive, and reads nothing from parameters out of range. -/
theorem directiveRow_takes {t : Time} {kind : Nat} {c : Instr} (row : directiveRow t kind = some c) (s : State) :
    ∃ (α : Type) (read : List Nat → State → Option α) (act : α → State → State),
      exec c s = .next ((s.begin t).takeDirective kind read act) ∧
      ∀ (ws : List Nat) (u : State), ¬u.parametersInRange kind ws → read ws u = none := by
  unfold directiveRow at row
  split at row <;> cases row
  case h_1 => exact ⟨_, _, _, rfl, fun _ _ h => absurd trivial h⟩
  case h_2 => exact ⟨_, _, _, rfl, fun _ _ => readArmFor_none⟩
  case h_3 => exact ⟨_, _, _, rfl, fun _ _ h => absurd trivial h⟩
  case h_4 => exact ⟨_, _, _, rfl, fun _ _ h => absurd trivial h⟩
  case h_5 => exact ⟨_, _, _, rfl, fun _ _ h => absurd trivial h⟩
  case h_6 => exact ⟨_, _, _, rfl, fun _ _ => readLocate_none⟩
  case h_7 => exact ⟨_, _, _, rfl, fun _ _ => readNotice_none⟩
  case h_8 => exact ⟨_, _, _, rfl, fun _ _ h => absurd trivial h⟩
  case h_9 => exact ⟨_, _, _, rfl, fun _ _ h => by rw [readScreen_none h]; rfl⟩
  case h_10 => exact ⟨_, _, _, rfl, fun _ _ => readLayout_none⟩
  case h_11 => exact ⟨_, _, _, rfl, fun _ _ => readSettings_none⟩
  case h_12 => exact ⟨_, _, _, rfl, fun _ _ => readMirror_none⟩
  case h_13 => exact ⟨_, _, _, rfl, fun _ _ => readScreen_none⟩
  case h_14 => exact ⟨_, _, _, rfl, fun _ _ => readCueIndex_none⟩
  case h_15 => exact ⟨_, _, _, rfl, fun _ _ => readInvalidate_none⟩
  case h_16 => exact ⟨_, _, _, rfl, fun _ _ => readWarm_none⟩
  case h_17 => exact ⟨_, _, _, rfl, fun _ _ => readSelectors_none⟩
  case h_18 => exact ⟨_, _, _, rfl, fun _ _ h => absurd trivial h⟩

/-- What a refused directive leaves: its outcome alone. -/
theorem State.outcomeAdded_refused {s u : State} {slot : Slot} {kind : Nat} {words : List Nat} {t : Time}
    {code : OutcomeCode} {ws : List Nat} (h : ((s.begin t).taking slot kind words).outcomeAdded u slot code ws) :
    s.handedBack u slot code ws ∧ u.finished slot ∧ s.sameBlocks u ∧ u.ctl = { s.ctl with progress := none } ∧
      u.smi.journalCount = s.smi.journalCount := by
  obtain ⟨handed, finished, blocks, ctl⟩ := State.outcomeAdded_taking h
  obtain ⟨-, -, -, -, -, -, -, count, -⟩ := h
  exact ⟨handed, finished, blocks, ctl, count⟩

/-- Settles O18: each check ends the directive in the state it was taken in. -/
theorem directivesRefused : Obligations.DirectivesRefused := by
  refine ⟨fun t s slot kind words taken unknown => ?_, fun t c s slot kind words row taken refused => ?_,
    fun t c s slot kind words row taken allowed out => ?_⟩
  · obtain ⟨f, busy⟩ := State.taken_busy taken
    refine ⟨_, rfl, State.outcomeAdded_refused (t := t) (kind := kind) (words := words) ?_⟩
    rw [State.takeKind_eq t _ taken (by simpa using unknown)]
    exact State.complete_added (p := ⟨slot, kind, words, .none⟩) .unknownKind [] rfl busy
  · obtain ⟨α, read, act, step, -⟩ := directiveRow_takes row s
    exact ⟨_, step, State.outcomeAdded_refused (State.takeDirective_refusedState t taken refused read act)⟩
  · obtain ⟨α, read, act, step, none⟩ := directiveRow_takes row s
    exact ⟨_, step, State.outcomeAdded_refused (State.takeDirective_refusedParameter t taken allowed act
      (none words _ out))⟩

/-! ### A screen's settings -/

theorem allowedIn_unlessLoading {kind : Nat} {e : EngineState} (low : 8 ≤ kind) (high : kind ≤ 12) (h : e ≠ .loading) :
    allowedIn kind e = true := by
  unfold allowedIn
  interval_cases kind <;> simpa using h

theorem State.setScreen_onlyScreens (i : Screen16) (x : Screen) (s : State) : s.onlyScreens (s.setScreen i x) :=
  ⟨⟨rfl, rfl, rfl, rfl, rfl⟩, rfl, rfl, rfl, Interface.sameScan_refl _⟩

/-- A directive that puts `y` for one screen, and completes with OK. -/
theorem State.setScreenDirective {s : State} {slot : Slot} {kind : Nat} {words : List Nat} (t : Time)
    (taken : s.taken slot kind words) (allowed : allowedIn kind s.ctl.engine = true) {α : Type}
    {read : List Nat → State → Option α} {act : α → State → State} {a : α} {i : Screen16} {y : Screen}
    (reads : read words ((s.begin t).taking slot kind words) = some a)
    (acts : act a ((s.begin t).taking slot kind words) =
      (((s.begin t).taking slot kind words).setScreen i y).completeOk) :
    let u := (s.begin t).takeDirective kind read act
    s.handedBack u slot .ok [] ∧ u.finished slot ∧ s.sameShow u ∧ u.links = s.links ∧
      u.ctl = { s.ctl with progress := none } ∧ u.screen i = y ∧ ∀ j, j ≠ i → u.screen j = s.screen j := by
  obtain ⟨handed, finished, sameShow, ctl, arb, links, -⟩ := State.screenDirective t taken allowed act reads acts
    (State.setScreen_onlyScreens i y _) fun _ hf => hf
  have screen : ∀ j, ((s.begin t).takeDirective kind read act).screen j =
      (((s.begin t).taking slot kind words).setScreen i y).screen j := fun j => by
    unfold State.screen
    rw [arb]
  exact ⟨handed, finished, sameShow, links, ctl, by rw [screen, State.setScreen_screen_self],
    fun j hj => by rw [screen, State.setScreen_screen_ne _ _ (Ne.symm hj)]; rfl⟩

/-- Settles O28: the screen's stack decides whether the slots are in force or staged. -/
theorem setLayoutCarriedOut : Obligations.SetLayoutCarriedOut := by
  intro t s slot words i l taken loaded reads
  obtain ⟨handed, finished, sameShow, links, ctl, screen⟩ := State.setScreenDirective t taken
    (allowedIn_unlessLoading (by decide) (by decide) loaded) (read := fun ws _ => readLayout ws)
    (act := fun p s => (s.applyLayout p.1 p.2).completeOk) reads rfl
  exact ⟨_, rfl, handed, finished, sameShow, links, ctl, screen⟩

/-- An update of each screen named in a list changes these alone, each once. -/
theorem foldl_screen {f : State → Screen16 → State} {g : Screen16 → Screen → Screen}
    (at_self : ∀ s i, (f s i).screen i = g i (s.screen i)) (others : ∀ s i j, j ≠ i → (f s i).screen j = s.screen j)
    (j : Screen16) : ∀ (l : List Screen16) (s : State), l.Nodup →
      (l.foldl f s).screen j = if j ∈ l then g j (s.screen j) else s.screen j
  | [], s, _ => by simp
  | i :: l, s, nodup => by
    obtain ⟨new, nodup⟩ := List.nodup_cons.1 nodup
    rw [List.foldl_cons, foldl_screen at_self others j l _ nodup]
    by_cases hj : j = i
    · subst hj
      rw [if_neg new, if_pos List.mem_cons_self, at_self]
    · rw [others _ _ _ hj]
      simp [hj]

theorem State.clearCounters_screen (m : BitVec 16) (s : State) (i : Screen16) : (s.clearCounters m).screen i =
    if m.getLsbD i.val then { s.screen i with counters := #v[0, 0, 0] } else s.screen i := by
  unfold State.clearCounters
  rw [foldl_screen (g := fun i x => if m.getLsbD i.val then { x with counters := #v[0, 0, 0] } else x)
    (fun s i => ?_) (fun s i j hj => ?_) i _ _ (by decide), if_pos (mem_allScreens i)]
  · split
    · rw [State.setScreen_screen_self]; rfl
    · rfl
  · split
    · rw [State.setScreen_screen_ne _ _ (Ne.symm hj)]
    · rfl

theorem State.clearCounters_links (m : BitVec 16) (s : State) : (s.clearCounters m).links = s.links :=
  foldl_keeps (P := fun u : State => u.links = s.links) (fun u i h => by split <;> exact h) _ _ rfl

/-- Settles O29: each directive puts one screen after another. -/
theorem screenSettings : Obligations.ScreenSettings := by
  refine ⟨fun t s slot words i n tr m taken loaded reads => ?_, fun t s slot words i sel taken reads => ?_,
    fun t s slot words taken => ?_⟩
  · obtain ⟨handed, finished, sameShow, links, ctl, screen⟩ := State.setScreenDirective t taken
      (allowedIn_unlessLoading (by decide) (by decide) loaded) (read := fun ws _ => readSettings ws)
      (act := fun p s => (s.setScreen p.1 { s.screen p.1 with
        latency := p.2.1, preferred := p.2.2.1, prefixMode := p.2.2.2 }).completeOk) reads rfl
    exact ⟨_, rfl, handed, finished, sameShow, links, ctl, screen⟩
  · obtain ⟨handed, finished, sameShow, links, ctl, screen, others⟩ := State.setScreenDirective t taken rfl
      (read := fun ws _ => readSelectors ws)
      (act := fun p s => (s.setScreen p.1 ((s.screen p.1).select p.2)).completeOk) reads rfl
    refine ⟨_, rfl, handed, finished, sameShow, links, ctl, ?_, fun j => ?_, ?_, others⟩
    all_goals rw [screen]
    · rfl
    · unfold Screen.select
      dsimp only
      rw [Fin.getElem_fin, Vector.getElem_ofFn]
      rfl
    · rfl
  · obtain ⟨f, busy⟩ := State.taken_busy taken
    obtain ⟨handed, finished, sameShow, ctl, arb, links, -⟩ := State.screenDirective t taken rfl
      (read := fun ws _ => some (screenMask (word ws 0))) (fun m s => (s.clearCounters m).completeOk) rfl rfl
      ((Screens.only _).clearCounters _ _ (State.onlyScreens_refl _))
      fun f hf => (Screens.inFlight f).clearCounters _ _ hf
    refine ⟨_, rfl, handed, finished, sameShow, links.trans (State.clearCounters_links _ _), ctl, fun i => ?_⟩
    rw [State.screen_congr arb, State.clearCounters_screen]
    rfl

end Sys2Proof.Machine
end

section
/-! PROBE SCREEN (R152): a link enters PROBING, or the directive ends with the link as it was. -/

namespace Sys2Proof.Machine

theorem State.enterProbing_onlyScreens (i : Screen16) (c : LinkCause) (s : State) : s.onlyScreens (s.enterProbing i c) := by
  unfold State.enterProbing State.journalLink
  exact State.onlyScreens_trans (u := (s.setLink i ((s.link i).probe s.clock)).transmit i (helloFrame ((s.link i).tag + 1)))
    ⟨⟨rfl, rfl, rfl, rfl, rfl⟩, rfl, rfl, rfl, Interface.sameScan_refl _⟩ (State.journalAt_onlyScreens _ _ _)

theorem State.enterProbing_arb (i : Screen16) (c : LinkCause) (s : State) : (s.enterProbing i c).arb = s.arb := by
  rw [State.enterProbing_frame]

theorem State.enterProbing_inFlight {f : InFlight} {s : State} (i : Screen16) (c : LinkCause)
    (h : s.smi.port.inFlight = some f) : (s.enterProbing i c).smi.port.inFlight = some f :=
  (Screens.inFlight f).journalAt _ _ _ h

/-- LINK STATE is the last record while there is room (R142, R190). -/
theorem State.enterProbing_queue (i : Screen16) (c : LinkCause) {s : State} (room : s.smi.journalQueue.length < 16) :
    (s.enterProbing i c).smi.journalQueue = s.smi.journalQueue ++
      [⟨s.smi.journalCount, s.clock, .linkState i (s.link i).state.code 2 c.code 0 0 0 0 0⟩] :=
  (State.journalAt_journal _ _ _).2.trans (if_pos room)

/-- The outcome of PROBE SCREEN on a link that does not enter PROBING. -/
theorem State.probeLink_ended {s : State} {slot : Slot} {words : List Nat} {i : Screen16} (t : Time)
    (taken : s.taken slot 13 words) (screen : word words 0 = i.val) {code : OutcomeCode}
    (ends : ((s.begin t).taking slot 13 words).probeLink i = ((s.begin t).taking slot 13 words).complete code []) :
    ((s.begin t).taking slot 13 words).outcomeAdded ((s.begin t).takeDirective 13 (fun ws _ => readScreen (word ws 0))
      State.probeLink) slot code [] := by
  obtain ⟨f, busy⟩ := State.taken_busy taken
  refine State.takeDirective_completed t taken ?_ rfl busy
  rw [State.checked_act State.probeLink (a := i) rfl (by rw [screen]; exact readScreen_eq i)]
  exact ends

/-- The outcome of PROBE SCREEN on a READY or FAULTED link. -/
theorem State.probeLink_probes {s : State} {slot : Slot} {words : List Nat} {i : Screen16} (t : Time)
    (taken : s.taken slot 13 words) (screen : word words 0 = i.val)
    (state : (s.link i).state = .ready ∨ (s.link i).state = .faulted) :
    (((s.begin t).taking slot 13 words).enterProbing i .probe).outcomeAdded
      ((s.begin t).takeDirective 13 (fun ws _ => readScreen (word ws 0)) State.probeLink) slot .ok [] := by
  obtain ⟨f, busy⟩ := State.taken_busy taken
  refine State.takeDirective_completed (w := .none) t taken ?_ ?_ (State.enterProbing_inFlight i .probe busy)
  · rw [State.checked_act State.probeLink (a := i) rfl (by rw [screen]; exact readScreen_eq i)]
    have state : (((s.begin t).taking slot 13 words).link i).state = .ready ∨
        (((s.begin t).taking slot 13 words).link i).state = .faulted := state
    unfold State.probeLink
    rcases state with state | state <;> rw [state]
  · obtain ⟨-, ctl, -⟩ := State.enterProbing_onlyScreens i .probe ((s.begin t).taking slot 13 words)
    rw [ctl]
    rfl

/-- Settles O31: the state of the link decides between the two ends. -/
theorem probeScreenCarriedOut : Obligations.ProbeScreenCarriedOut := by
  refine ⟨fun t s slot words i taken screen => ?_, fun t s slot words taken out => ?_⟩
  · by_cases probes : (s.link i).state = .ready ∨ (s.link i).state = .faulted
    · have added := State.probeLink_probes t taken screen probes
      have queue : ((s.begin t).takeDirective 13 (fun ws _ => readScreen (word ws 0))
          State.probeLink).smi.journalQueue = _ := added.2.2.2.2.2.2.2.2.1
      obtain ⟨handed, finished, sameShow, ctl, arb, links, sent⟩ := State.outcomeAdded_screens
        (State.enterProbing_onlyScreens i .probe _) added
      refine ⟨_, rfl, finished, sameShow, arb.trans (State.enterProbing_arb _ _ _), ctl, fun j hj => ?_,
        fun _ => ⟨handed, ?_, ?_, fun room => ?_⟩, fun down => ?_, fun state => ?_⟩
      · rw [State.link_congr links, State.enterProbing_link_ne _ _ (Ne.symm hj)]
        rfl
      · rw [State.link_congr links, State.enterProbing_link_self]
        rfl
      · rw [sent, State.enterProbing_frame]
        rfl
      · rw [queue, State.enterProbing_queue i .probe (s := (s.begin t).taking slot 13 words) room]
        rfl
      · rw [down] at probes
        simp at probes
      · rcases state with state | state <;> (rw [state] at probes; simp at probes)
    · have state : (s.link i).state ≠ .ready ∧ (s.link i).state ≠ .faulted := not_or.1 probes
      have ends : ((s.begin t).taking slot 13 words).probeLink i = ((s.begin t).taking slot 13 words).complete
          (if (s.link i).state = .down then .noCarrier else .refusedState) [] := by
        have link : ((s.begin t).taking slot 13 words).link i = s.link i := rfl
        unfold State.probeLink
        rw [link]
        cases h : (s.link i).state <;> simp_all
      have added := State.probeLink_ended t taken screen ends
      obtain ⟨handed, finished, ⟨sameShow, arb, links⟩, ctl, count⟩ := State.outcomeAdded_refused added
      have sent : ((s.begin t).takeDirective 13 (fun ws _ => readScreen (word ws 0)) State.probeLink).sent = [] := by
        rw [added.2.1]
        rfl
      refine ⟨_, rfl, finished, sameShow, arb, ctl, fun j _ => State.link_congr links j, fun h => absurd h probes,
        fun down => ⟨?_, State.link_congr links i, sent, count⟩, fun other => ⟨?_, State.link_congr links i, sent, count⟩⟩
      · rwa [if_pos down] at handed
      · rwa [if_neg (by rcases other with h | h <;> rw [h] <;> simp)] at handed
  · have added := State.takeDirective_refusedParameter t taken rfl State.probeLink
      (read := fun ws _ => readScreen (word ws 0)) (readScreen_none (by omega))
    obtain ⟨handed, finished, blocks, ctl, -⟩ := State.outcomeAdded_refused added
    refine ⟨_, rfl, finished, blocks, ?_, ctl, handed⟩
    show ((s.begin t).takeDirective 13 (fun ws _ => readScreen (word ws 0)) State.probeLink).sent = []
    rw [added.2.1]
    rfl

end Sys2Proof.Machine
end

section
/-! LOAD and ARM (R168, R169): the script held is dropped and the header read, and the show is placed at the start of a
section. -/

namespace Sys2Proof.Machine

/-! ### LOAD -/

theorem regionFits_iff (start length align : Nat) :
    regionFits start length align = true ↔ start % align = 0 ∧ start + length ≤ 16777216 := by
  unfold regionFits
  rw [Bool.and_eq_true, decide_eq_true_iff, decide_eq_true_iff]
  rfl

/-- The state in which LOAD reads the header or ends: LOADING, and the script held is dropped (R168). -/
def State.loadBegun (s : State) : State :=
  let s := (s.changeEngine .loading .load s.progressSlot 0 0).discardRead
  { s with
    wlk := { Walker.reset with reading := s.wlk.reading }, du := s.du.dropped
    arb := { s.arb with dwellBase := 0, dwellPerChar := 0 } }

theorem State.beginLoad_eq (address : Nat) (s : State) : s.beginLoad address =
    if regionFits address 64 4 then s.loadBegun.queueLoad (LoadWork.begin address)
    else s.loadBegun.failLoad .scriptRejected .header 0 FaultCode.extent.code := rfl

/-- A LOAD that begins leaves the tracker, the scheduler, the desk, the links and the screens as they were. -/
theorem State.loadBegun_frame (s : State) : s.loadBegun = { s with
    ctl := { s.ctl with engine := .loading }, smi := s.loadBegun.smi
    wlk := { Walker.reset with reading := s.wlk.reading }, du := s.du.dropped
    arb := { s.arb with dwellBase := 0, dwellPerChar := 0 } } := by
  unfold State.loadBegun State.discardRead State.setPort
  dsimp only
  rw [State.changeEngine_frame]

theorem State.loadBegun_sameScan (s : State) : s.smi.sameScan s.loadBegun.smi :=
  Interface.sameScan_trans (State.changeEngine_sameScan _ _ _ _ _ s) ⟨rfl, rfl, rfl, rfl, rfl, rfl, rfl, rfl, rfl, rfl⟩

theorem State.loadBegun_busy {s : State} (h : s.smi.port.inFlight.isSome = true) :
    s.loadBegun.smi.port.inFlight.isSome = true :=
  Walks.busy.discardRead _ (Walks.busy.changeEngine _ _ _ _ _ _ h)

/-- The read of the header's first half (R16). -/
theorem LoadWork.begin_access (address : Nat) (s : State) : s.queueLoad (LoadWork.begin address) =
    (s.setWork (.load (LoadWork.begin address))).enqueue
      (.read .load address 32 .background { FaultDetail.none with table := 1 }) := by
  unfold State.queueLoad
  have start : (LoadWork.begin address).start + (LoadWork.begin address).next = address := rfl
  have length : (LoadWork.begin address).accessLength = 32 := by
    unfold LoadWork.accessLength
    rfl
  have index : (LoadWork.begin address).index = 0 := Nat.zero_div _
  have table : (LoadWork.begin address).table.code = 1 := rfl
  rw [start, length, index, table]
  rfl

/-- Settles O19: the header is read from the state LOAD has made, or LOAD ends in it. -/
theorem loadTaken : Obligations.LoadTaken := by
  intro t s slot words taken engine
  have allowed : allowedIn 1 s.ctl.engine = true := by
    rcases engine with e | e | e <;> rw [e] <;> rfl
  obtain ⟨f, busy⟩ := State.taken_busy taken
  have checked : ((s.begin t).taking slot 1 words).checked 1 (fun ws _ => some (word ws 0)) State.beginLoad words =
      ((s.begin t).taking slot 1 words).beginLoad (word words 0) := State.checked_act _ allowed rfl
  rw [State.beginLoad_eq] at checked
  have begun := State.loadBegun_frame ((s.begin t).taking slot 1 words)
  have scan := State.loadBegun_sameScan ((s.begin t).taking slot 1 words)
  have loading : (((s.begin t).taking slot 1 words).loadBegun).smi.port.inFlight.isSome = true :=
    State.loadBegun_busy (Option.isSome_iff_exists.2 ⟨f, busy⟩)
  by_cases fits : regionFits (word words 0) 64 4 = true
  · rw [if_pos fits] at checked
    have step : (s.begin t).takeDirective 1 (fun ws _ => some (word ws 0)) State.beginLoad =
        ((((s.begin t).taking slot 1 words).loadBegun).queueLoad (LoadWork.begin (word words 0))).freePort := by
      rw [State.takeDirective_eq t _ _ taken, checked, State.startOwedScan_progress]
      rw [LoadWork.begin_access, State.enqueue_ctl, begun]
      rfl
    obtain ⟨g, inFlight⟩ := Option.isSome_iff_exists.1 loading
    refine ⟨_, congrArg Host.Outcome.next step, ?_⟩
    rw [LoadWork.begin_access]
    have holds := State.enqueue_freePort_holds
      (s := (((s.begin t).taking slot 1 words).loadBegun).setWork (.load (LoadWork.begin (word words 0))))
      (.read .load (word words 0) 32 .background { FaultDetail.none with table := 1 }) inFlight
    generalize ((s.begin t).taking slot 1 words).loadBegun = v at *
    have facts : v.trk = s.trk ∧ v.sch = s.sch ∧ v.desk = s.desk ∧ v.links = s.links ∧ v.arb.screens = s.arb.screens ∧
        v.wlk = { Walker.reset with reading := s.wlk.reading } ∧ v.du = s.du.dropped ∧ v.arb.dwellBase = 0 ∧
        v.arb.dwellPerChar = 0 ∧ (v.setWork (.load (LoadWork.begin (word words 0)))).ctl = { s.ctl with
          engine := .loading, progress := some ⟨slot, 1, words, .load (LoadWork.begin (word words 0))⟩ } := by
      rw [begun]
      exact ⟨rfl, rfl, rfl, rfl, rfl, rfl, rfl, rfl, rfl, rfl⟩
    obtain ⟨trk, sch, desk, links, screens, wlk, du, base, perChar, ctl⟩ := facts
    exact ⟨scan.2.2.2.2.2.2.2.1, trk, sch, desk, links, screens, wlk, du, base, perChar,
      fun _ => ⟨ctl, scan.2.2.2.1, holds⟩, fun misfit => absurd ((regionFits_iff _ _ _).1 fits) misfit⟩
  · rw [if_neg fits] at checked
    have idle := State.changeEngine_sameScan .idle .loadEnd
      (((s.begin t).taking slot 1 words).loadBegun).progressSlot 0 OutcomeCode.scriptRejected.code
      ((s.begin t).taking slot 1 words).loadBegun
    obtain ⟨handed, finished, frame, -, -⟩ := State.takeDirective_ended t taken
      (p := ⟨slot, 1, words, .none⟩) checked (by rw [State.changeEngine_ctl, begun]; rfl) rfl
      (Walks.busy.changeEngine _ _ _ _ _ _ loading) (Interface.sameScan_trans scan idle)
    refine ⟨(s.begin t).takeDirective 1 (fun ws _ => some (word ws 0)) State.beginLoad, rfl, ?_⟩
    rw [State.changeEngine_frame, begun] at frame
    generalize (s.begin t).takeDirective 1 (fun ws _ => some (word ws 0)) State.beginLoad = u at *
    have facts : u.trk = s.trk ∧ u.sch = s.sch ∧ u.desk = s.desk ∧ u.links = s.links ∧ u.arb.screens = s.arb.screens ∧
        u.wlk = { Walker.reset with reading := s.wlk.reading } ∧ u.du = s.du.dropped ∧ u.arb.dwellBase = 0 ∧
        u.arb.dwellPerChar = 0 ∧ u.ctl = { s.ctl with engine := .idle, progress := none } := by
      rw [frame]
      exact ⟨rfl, rfl, rfl, rfl, rfl, rfl, rfl, rfl, rfl, rfl⟩
    obtain ⟨trk, sch, desk, links, screens, wlk, du, base, perChar, ctl⟩ := facts
    exact ⟨finished.2, trk, sch, desk, links, screens, wlk, du, base, perChar,
      fun fit => absurd ((regionFits_iff _ _ _).2 fit) fits, fun _ => ⟨ctl, handed⟩⟩

/-! ### The show is placed at a bar -/

/-- The tracker as ARM and LOCATE place it (R49). -/
def Tracker.placed (w : Walker) (x : Section) (n : Nat) (k : Tracker) : Tracker :=
  { k with
    state := match x.mode with | .beat => .locking | .called => .suspended
    beat := 0, tLast := 0, bReal := 0, tReal := 0
    period := match x.mode with | .beat => w.tempoAt x n | .called => k.period
    ring := [], confidence := .loose, absorb := 0, counted := false, synthetic := 0, bounces := 0
    timeout := none, facts := w.factsAt x n }

/-- The walker and the tracker at bar `n` of section `k` (R49, R71). -/
def State.placed (k n : Nat) (x : Section) (c : EnterCause) (s : State) : State :=
  (s.positionWalker k n x c).positionTracker x n

theorem State.placed_frame (k n : Nat) (x : Section) (c : EnterCause) {s : State} (empty : s.sch.armed = []) :
    (s.placed k n x c = { s with
      wlk := s.wlk.placed k n x, trk := s.trk.placed s.wlk x n
      sch := { s.sch with view := (s.placed k n x c).sch.view }, smi := (s.placed k n x c).smi }) ∧
    s.smi.sameScan (s.placed k n x c).smi := by
  obtain ⟨walker, scan⟩ := State.positionWalker_frame k n x c s
  have tracker := State.trackerChanged_frame (s.positionWalker k n x c).trk.state .directive
    ((s.positionWalker k n x c).setTracker ((s.positionWalker k n x c).trk.placed (s.positionWalker k n x c).wlk x n))
  have same : s.placed k n x c = ((s.positionWalker k n x c).setTracker
      ((s.positionWalker k n x c).trk.placed (s.positionWalker k n x c).wlk x n)).trackerChanged
        (s.positionWalker k n x c).trk.state .directive := rfl
  rw [← same] at tracker
  refine ⟨?_, Interface.sameScan_trans scan tracker.2⟩
  rcases tracker.1 with changed | changed
  · rw [changed, walker]
    rfl
  · rw [walker] at changed
    have gated : s.sch.armed.map gatePosition = s.sch.armed := by rw [empty]; rfl
    rw [changed]
    dsimp only [State.setTracker]
    rw [gated]
    rfl

theorem State.placed_busy {s : State} (k n : Nat) (x : Section) (c : EnterCause)
    (h : s.smi.port.inFlight.isSome = true) : (s.placed k n x c).smi.port.inFlight.isSome = true :=
  Walks.busy.positionTracker _ _ _ (Walks.busy.positionWalker _ _ _ _ _ h)

/-! ### ARM -/

/-- A review leaves the cursor on a cue of its pass (R64, R66). -/
theorem State.reviewOffers_cursor {s : State} {c : Cursor} {x : Section} (cursor : s.wlk.cursor = some c)
    (sec : s.wlk.sec c.sec = some x) (before : c.cue < x.cueEnd) : s.reviewOffers.wlk.cursor = some c := by
  have stays : State.advanceCursor 600 s = s := by
    unfold State.advanceCursor
    rw [cursor]
    dsimp only
    rw [sec]
    exact if_pos before
  unfold State.reviewOffers State.offerAtCursor
  rw [stays]
  split
  · split
    · split
      · exact cursor
      · split
        · exact cursor
        · exact cursor
    · exact cursor
  · exact cursor

/-- ARM's parameters are stored and the armed list is emptied (R169, R95). -/
def State.disarmed (a : Arming) (s : State) : State :=
  let e := { s with ctl := { s.ctl with arming := a } }.emptyArmed
  { e with sch := { e.sch with lateTolerance := a.lateTolerance } }

theorem State.disarmed_frame (a : Arming) (s : State) :
    s.disarmed a = { s with
      ctl := { s.ctl with arming := a }, du := (s.disarmed a).du, smi := (s.disarmed a).smi
      sch := { s.sch with armed := [], fireRecord := none, lateTolerance := a.lateTolerance } } ∧
    s.smi.sameScan (s.disarmed a).smi := by
  obtain ⟨emptied, scan⟩ := State.emptyArmed_frame { s with ctl := { s.ctl with arming := a } }
  refine ⟨?_, scan⟩
  unfold State.disarmed
  dsimp only
  rw [emptied]

/-- The running order and the look-ahead are the walker's (R12, R169). -/
def State.ordered (order : List Nat) (ahead : Nat) (s : State) : State :=
  s.setWalker { s.wlk with order := some order, lookAhead := ahead }

/-- The weights reach their blocks and the engine is ARMED (R169). -/
def State.weighed (a : Arming) (slot : Option Slot) (s : State) : State :=
  let s := s.setTracker { s.trk with weight := a.smoothing }
  (s.setPort { s.smi.port with weight := a.weight }).changeEngine .armed .arm slot 0 0

/-- The running order of the version that ARM names (R12). -/
def State.armOrder (a : Arming) (s : State) : List Nat :=
  (s.wlk.script.map fun sc : Script => runningOrder sc.sections (a.version.getD 0)).getD []

/-- The state in which ARM reviews its offers (R169). -/
def State.armBegun (a : Arming) (order : List Nat) (k : Nat) (x : Section) (s : State) : State :=
  (((s.disarmed a).ordered order a.lookAhead).placed k 1 x .arm).weighed a s.progressSlot

theorem State.armShow_eq {a : Arming} {s : State} {sc : Script} {x : Section} {v k : Nat} (script : s.wlk.script = some sc)
    (sec : s.wlk.sec k = some x) (start : a.start = some k) (version : a.version = some v) :
    s.armShow a = (s.armBegun a (runningOrder sc.sections v) k x).reviewOffers.completeOk := by
  have wlk : (s.disarmed a).wlk = s.wlk := by rw [(State.disarmed_frame a s).1]
  have order : (s.disarmed a).armOrder a = runningOrder sc.sections v := by
    unfold State.armOrder
    rw [wlk, script, version]
    rfl
  have here : ((s.disarmed a).ordered (runningOrder sc.sections v) a.lookAhead).wlk.sec k = some x := by
    rw [← sec, ← wlk]
    rfl
  have shown : ∀ q, (s.disarmed a).ordered ((s.disarmed a).armOrder a) a.lookAhead = q →
      s.armShow a = ((match q.wlk.sec (a.start.getD 0) with
        | some x => q.placed (a.start.getD 0) 1 x .arm
        | none => q).weighed a s.progressSlot).reviewOffers.completeOk := by
    rintro _ rfl
    rfl
  rw [shown _ rfl, order, start, Option.getD_some, here]
  rfl

/-- ARM leaves the desk, the screens and the links as they were (R169). -/
theorem State.armBegun_frame (a : Arming) (order : List Nat) (k : Nat) (x : Section) (s : State) :
    (s.armBegun a order k x = { s with
      ctl := { s.ctl with arming := a, engine := .armed }, du := (s.armBegun a order k x).du
      smi := (s.armBegun a order k x).smi
      wlk := { s.wlk with order := some order, lookAhead := a.lookAhead }.placed k 1 x
      trk := { s.trk.placed s.wlk x 1 with weight := a.smoothing }
      sch := { s.sch with
        armed := [], fireRecord := none, lateTolerance := a.lateTolerance, view := (s.armBegun a order k x).sch.view } }) ∧
    s.smi.sameScan (s.armBegun a order k x).smi ∧ (s.armBegun a order k x).smi.port.weight = a.weight := by
  obtain ⟨disarmed, scan⟩ := State.disarmed_frame a s
  have empty : (s.disarmed a).sch.armed = [] := by rw [disarmed]
  obtain ⟨placed, scan'⟩ := State.placed_frame k 1 x .arm (s := (s.disarmed a).ordered order a.lookAhead) empty
  unfold State.armBegun State.weighed
  rw [State.changeEngine_frame]
  generalize ((s.disarmed a).ordered order a.lookAhead).placed k 1 x .arm = p at *
  refine ⟨?_, ?_, ?_⟩
  · dsimp only [State.setPort, State.setTracker]
    rw [placed, disarmed]
    rfl
  · exact Interface.sameScan_trans scan (Interface.sameScan_trans scan' (Interface.sameScan_trans (n := (p.setPort
      { p.smi.port with weight := a.weight }).smi) ⟨rfl, rfl, rfl, rfl, rfl, rfl, rfl, rfl, rfl, rfl⟩
      (State.changeEngine_sameScan _ _ _ _ _ _)))
  · exact (Bus.weight a.weight).requestRefresh _ ((Bus.weight a.weight).journal _ _ rfl)

theorem State.armBegun_busy {s : State} (a : Arming) (order : List Nat) (k : Nat) (x : Section)
    (h : s.smi.port.inFlight.isSome = true) : (s.armBegun a order k x).smi.port.inFlight.isSome = true := by
  obtain ⟨f, hf⟩ := Option.isSome_iff_exists.1 h
  have emptied := State.emptyArmed_busy (s := { s with ctl := { s.ctl with arming := a } }) hf
  refine Walks.busy.changeEngine _ _ _ _ _ _ ?_
  exact State.placed_busy (s := (s.disarmed a).ordered order a.lookAhead) k 1 x .arm
    (Option.isSome_iff_exists.2 ⟨f, emptied⟩)

/-- ARM's parameters as they are read (R167). -/
theorem readArm_eq {words : List Nat} {a : Arming} (h : readArm words = some a) :
    a.version = some (word words 0) ∧ a.start = some (word words 1) ∧ a.smoothing = word words 2 ∧
      a.lookAhead = word words 3 ∧ a.lateTolerance = word words 4 := by
  unfold readArm at h
  split at h
  · obtain ⟨w, -, rfl⟩ := Option.map_eq_some_iff.1 h
    exact ⟨rfl, rfl, rfl, rfl, rfl⟩
  · cases h

/-- Settles O20: ARM places the show and reviews its offers, which leaves the cursor on the section's first cue. -/
theorem armCarriedOut : Obligations.ArmCarriedOut := by
  intro t s slot words a sc x taken engine reads script sec start
  have allowed : allowedIn 2 s.ctl.engine = true := by
    rcases engine with e | e | e <;> rw [e] <;> rfl
  obtain ⟨f, busy⟩ := State.taken_busy taken
  obtain ⟨version, first, smoothing, ahead, tolerance⟩ := readArm_eq reads
  have readFor : readArmFor words ((s.begin t).taking slot 2 words) = some a := by
    have held : ((s.begin t).taking slot 2 words).wlk.script = some sc := script
    unfold readArmFor
    rw [reads, held]
    exact if_pos start
  have checked : ((s.begin t).taking slot 2 words).checked 2 readArmFor State.armShow words =
      ((s.begin t).taking slot 2 words).armShow a := State.checked_act _ allowed readFor
  rw [State.armShow_eq (s := (s.begin t).taking slot 2 words) script sec first version] at checked
  obtain ⟨armed, scan, weight⟩ := State.armBegun_frame a (runningOrder sc.sections (word words 0)) (word words 1) x
    ((s.begin t).taking slot 2 words)
  have loaded := State.armBegun_busy (s := (s.begin t).taking slot 2 words) a (runningOrder sc.sections (word words 0))
    (word words 1) x (Option.isSome_iff_exists.2 ⟨f, busy⟩)
  generalize ((s.begin t).taking slot 2 words).armBegun a (runningOrder sc.sections (word words 0)) (word words 1) x = v
    at *
  obtain ⟨frame, walk, scan', weight'⟩ := State.reviewOffers_only v
  obtain ⟨g, inFlight⟩ := Option.isSome_iff_exists.1 loaded
  obtain ⟨handed, finished, whole, weight'', -⟩ := State.takeDirective_ended t taken (p := ⟨slot, 2, words, .none⟩)
    checked (by rw [frame, armed]; rfl) rfl (by rw [(Offers.inFlight g).reviewOffers v inFlight]; rfl)
    (Interface.sameScan_trans scan scan')
  have origin : v.wlk.origin = 0 := by
    rw [armed]
    unfold Walker.placed
    dsimp only
    cases x.mode <;> simp [beatsIn]
  have cursor : 0 < x.cueCount → v.reviewOffers.wlk.cursor =
      some { sec := word words 1, pass := 1, origin := some 0, cue := x.firstCue } := fun cues => by
    refine State.reviewOffers_cursor (x := x) ?_ (by rw [armed]; exact sec) (Nat.lt_add_of_pos_right cues)
    rw [← origin, armed]
    rfl
  refine ⟨(s.begin t).takeDirective 2 readArmFor State.armShow, rfl, handed, finished, ?_⟩
  have weighs := weight''.trans (weight'.trans weight)
  generalize v.reviewOffers = r at *
  rw [whole]
  dsimp only
  rw [frame]
  dsimp only
  rw [walk]
  dsimp only
  rw [armed] at origin ⊢
  refine ⟨rfl, rfl, script, rfl, ahead, rfl, rfl, origin, rfl, ?_, rfl, rfl, rfl, cursor, rfl, rfl, tolerance, rfl, rfl,
    smoothing, weighs, fun mode => ⟨?_, ?_, ?_⟩, fun mode => ⟨?_, ?_, ?_⟩, rfl, rfl, rfl⟩
  · unfold Walker.placed
    cases x.mode <;> rfl
  all_goals
    unfold Tracker.placed Walker.placed
    simp only [mode]
  all_goals rfl

end Sys2Proof.Machine
end

section
/-! An evaluation of a screen as a function of what the screen holds (R119 to R123). A `Panel` is the screen, the message that
has left, if one has, and the serial number of the next entry. Each operation of the evaluation has its twin on panels, and
a commuting lemma; the last of them says what an evaluation does to the state. -/

namespace Sys2Proof.Machine

/-! ### A message that leaves -/

/-- A message leaves on link `i`, and its copy on that of the monitor or into the hold (R134, R146). -/
def State.left (i : Screen16) (m : Message) (s : State) : State :=
  match s.arb.mirror with
  | some (src, mon) => if src = i then (s.linkSend i m).sendCopy mon m else s.linkSend i m
  | none => s.linkSend i m

theorem State.sendOn_eq (i : Screen16) (m : Message) (s : State) :
    s.sendOn i m = (s.setScreen i ((s.screen i).sentMessage m)).left i m := by
  unfold State.sendOn State.left State.deliver
  rfl

/-- A screen that is no monitor is not the monitor of its own pair. -/
theorem State.mirror_ne {s : State} {i mon : Screen16} (h : s.isMonitor i = false) (pair : s.arb.mirror = some (i, mon)) :
    mon ≠ i := by
  rintro rfl
  simp [State.isMonitor, pair] at h

theorem State.setScreen_comm {i j : Screen16} (h : i ≠ j) (x y : Screen) (s : State) :
    (s.setScreen i x).setScreen j y = (s.setScreen j y).setScreen i x := by
  have differ : i.val ≠ j.val := fun e => h (Fin.ext e)
  unfold State.setScreen
  dsimp only
  rw [Vector.set_comm _ _ differ]

theorem State.setScreen_setScreen (i : Screen16) (x y : Screen) (s : State) :
    (s.setScreen i x).setScreen i y = s.setScreen i y := by
  unfold State.setScreen
  dsimp only
  rw [Vector.set_set]

theorem State.setScreen_linkSend {i : Screen16} (m : Message) {y : Screen} {s : State}
    (preferred : y.preferred = (s.screen i).preferred) :
    (s.linkSend i m).setScreen i y = (s.setScreen i y).linkSend i m := by
  have resolved : (s.setScreen i y).resolved i m = s.resolved i m := by
    unfold State.resolved
    rw [State.setScreen_screen_self, preferred]
    rfl
  unfold State.linkSend
  dsimp only
  rw [resolved]
  rfl

theorem State.setScreen_sendCopy {i mon : Screen16} (h : mon ≠ i) (m : Message) (y : Screen) (s : State) :
    (s.sendCopy mon m).setScreen i y = (s.setScreen i y).sendCopy mon m := by
  have ready : (s.setScreen i y).linkReady mon = s.linkReady mon := rfl
  unfold State.sendCopy
  rw [ready]
  split
  · unfold State.deliver
    rw [State.setScreen_screen_ne _ _ (Ne.symm h), State.setScreen_comm (Ne.symm h)]
    have resolved : ((s.setScreen mon ((s.screen mon).sentMessage m)).setScreen i y).resolved mon m =
        (s.setScreen mon ((s.screen mon).sentMessage m)).resolved mon m := by
      unfold State.resolved
      rw [State.setScreen_screen_ne _ _ (Ne.symm h)]
      rfl
    unfold State.linkSend
    dsimp only
    rw [resolved]
    rfl
  · rfl

/-- What a message that has left does not touch of its screen may change before it or after. -/
theorem State.setScreen_left {i : Screen16} {s : State} (h : s.isMonitor i = false) (m : Message) {y : Screen}
    (preferred : y.preferred = (s.screen i).preferred) : (s.left i m).setScreen i y = (s.setScreen i y).left i m := by
  have mirror : (s.setScreen i y).arb.mirror = s.arb.mirror := rfl
  unfold State.left
  rw [mirror]
  split
  · next src mon pair =>
    split
    · next e =>
      subst e
      rw [State.setScreen_sendCopy (State.mirror_ne h pair), State.setScreen_linkSend m preferred]
    · exact State.setScreen_linkSend m preferred
  · exact State.setScreen_linkSend m preferred

/-- The serial number of the next entry. -/
def State.setSerial (n : Nat) (s : State) : State := { s with arb := { s.arb with entrySerial := n } }

theorem State.setSerial_left (i : Screen16) (m : Message) (n : Nat) (s : State) :
    (s.left i m).setSerial n = (s.setSerial n).left i m := by
  have mirror : (s.setSerial n).arb.mirror = s.arb.mirror := rfl
  unfold State.left
  rw [mirror]
  split
  · split
    · unfold State.sendCopy
      have ready : ∀ mon, ((s.setSerial n).linkSend i m).linkReady mon = (s.linkSend i m).linkReady mon := fun _ => rfl
      rw [ready]
      split <;> rfl
    · rfl
  · rfl

/-- The fields that a message that leaves on link `i` does not change. -/
theorem State.left_frame (i : Screen16) (m : Message) (s : State) : s.left i m = { s with
    arb := { s.arb with screens := (s.left i m).arb.screens, hold := (s.left i m).arb.hold }
    links := (s.left i m).links, sent := (s.left i m).sent } := by
  unfold State.left
  split
  · split
    · unfold State.sendCopy
      split <;> rfl
    · rfl
  · rfl

theorem State.sendCopy_screen_ne {mon j : Screen16} (h : mon ≠ j) (m : Message) (s : State) :
    (s.sendCopy mon m).screen j = s.screen j := by
  unfold State.sendCopy
  split
  · exact State.setScreen_screen_ne _ _ h
  · rfl

theorem State.sendCopy_link_ne {mon j : Screen16} (h : mon ≠ j) (m : Message) (s : State) :
    (s.sendCopy mon m).link j = s.link j := by
  unfold State.sendCopy
  split
  · exact State.setLink_link_ne _ _ h
  · rfl

theorem State.left_screen_self {i : Screen16} {s : State} (h : s.isMonitor i = false) (m : Message) :
    (s.left i m).screen i = s.screen i := by
  unfold State.left
  split
  · next src mon pair =>
    split
    · next e =>
      subst e
      exact State.sendCopy_screen_ne (State.mirror_ne h pair) _ _
    · rfl
  · rfl

theorem State.linkSend_link_self (i : Screen16) (m : Message) (s : State) :
    (s.linkSend i m).link i = (s.link i).busy s.clock m (s.resolved i m) := State.setLink_link_self _ _ _

theorem State.left_link_self {i : Screen16} {s : State} (h : s.isMonitor i = false) (m : Message) :
    (s.left i m).link i = (s.link i).busy s.clock m (s.resolved i m) := by
  unfold State.left
  split
  · next src mon pair =>
    split
    · next e =>
      subst e
      rw [State.sendCopy_link_ne (State.mirror_ne h pair), State.linkSend_link_self]
    · exact State.linkSend_link_self _ _ _
  · exact State.linkSend_link_self _ _ _

/-! ### Panels -/

/-- What an evaluation has made of a screen: the screen, the message that has left on its link, if one has, and the serial
number that the next entry takes. -/
structure Panel where
  screen : Screen
  message : Option Message
  serial : Nat

/-- A screen before its evaluation. -/
def State.panel (i : Screen16) (s : State) : Panel := ⟨s.screen i, none, s.arb.entrySerial⟩

/-- The state whose screen `i` is what a panel makes of it. -/
def State.realized (i : Screen16) (p : Panel) (s : State) : State :=
  match p.message with
  | none => (s.setScreen i p.screen).setSerial p.serial
  | some m => ((s.setScreen i p.screen).setSerial p.serial).left i m

namespace Panel

/-- The screen replaced. -/
def put (x : Screen) (p : Panel) : Panel := { p with screen := x }

/-- The link is READY still: no message has left. -/
def ready (s : State) (i : Screen16) (p : Panel) : Bool := s.linkReady i && p.message.isNone

/-- Twin of `State.showEntry`. -/
def shown (s : State) (i : Screen16) (l : Level) (e : Entry) (override : TransOverride) (p : Panel) : Panel :=
  let x := p.screen.applyStaged
  let m := showMessage x l e override
  let e := { e with minDwell := some (s.entryDwell i x.layout e m.drawPrefix), visibleSince := some s.clock }
  { p with screen := (x.setEntry l (some e)).sentMessage m, message := some m }

/-- Twin of `State.sendClear`. -/
def cleared (override : TransOverride) (p : Panel) : Panel :=
  { p with screen := p.screen.applyStaged.sentMessage (clearMessage override), message := some (clearMessage override) }

/-- Twin of `State.insertSilently`. -/
def insertSilently (l : Level) (r : Request) (p : Panel) : Panel :=
  { p with
    screen := (p.screen.setPending l none).setEntry l (some (r.toEntry p.serial)), serial := p.serial + 1 }

/-- The screen of a request granted with a SHOW, before it is sent. -/
def granted (s : State) (l : Level) (r : Request) (x : Screen) : Screen :=
  if r.release + s.sch.lateTolerance < s.clock then (x.setPending l none).count .late else x.setPending l none

/-- Twin of `State.grantShow`. -/
def grantShow (s : State) (i : Screen16) (l : Level) (r : Request) (p : Panel) : Panel :=
  shown s i l (r.toEntry p.serial) r.override
    { p with screen := granted s l r p.screen, serial := p.serial + 1 }

/-- Twin of `State.bury`. -/
def bury (m : Level) (e : Entry) (p : Panel) : Panel :=
  p.put ((p.screen.setEntry m (some { e with visibleSince := none })).count .preempted)

/-- Twin of `State.defer`. -/
def defer (s : State) (i : Screen16) (l : Level) (r : Request) (p : Panel) : Panel :=
  if p.ready s i && !r.deferred then
    p.put ((p.screen.setPending l (some { r with deferred := true })).count .deferred)
  else p

/-- Twin of `State.judgeShow`. -/
def judgeShow (s : State) (i : Screen16) (l : Level) (r : Request) (p : Panel) : Panel :=
  match p.screen.visibleTop with
  | none => if p.ready s i then p.grantShow s i l r else p
  | some (m, e) =>
    if l < m then (if p.ready s i then (p.bury m e).grantShow s i l r else p)
    else if m < l then p.insertSilently l r
    else if e.visibleSince.isNone then p.insertSilently l r
    else if r.operator || e.dwellPassed s.clock then (if p.ready s i then p.grantShow s i l r else p)
    else p.defer s i l r

/-- Twin of `State.refreshScreen`. -/
def refreshed (s : State) (i : Screen16) (override : TransOverride) (p : Panel) : Panel :=
  if p.ready s i && p.screen.onScreen != .unknown then
    match p.screen.visibleTop with
    | some (l, e) => if p.screen.onScreen = .entry l e.serial then p else p.shown s i l e e.override
    | none => if p.screen.onScreen = .blank then p else p.cleared override
  else p

/-- Twin of `State.judgeBlank`. -/
def judgeBlank (s : State) (i : Screen16) (l : Level) (r : Request) (p : Panel) : Panel :=
  match p.screen.stack[l] with
  | none => p.put (p.screen.setPending l none)
  | some e =>
    if p.screen.isShownTop l then
      if e.dwellPassed s.clock then
        if p.ready s i then (p.put ((p.screen.setPending l none).setEntry l none)).refreshed s i r.override else p
      else p.defer s i l r
    else p.put ((p.screen.setPending l none).setEntry l none)

/-- Twin of `State.judge`. -/
def judge (s : State) (i : Screen16) (p : Panel) (l : Level) : Panel :=
  match p.screen.pendingAt[l] with
  | none => p
  | some r =>
    if p.screen.eligible s.clock r then
      match r.kind with
      | .blank => p.judgeBlank s i l r
      | .title => p.judgeShow s i l r
      | .notice => p.judgeShow s i l r
    else p

/-- Twin of steps 1 and 2 of an evaluation. -/
def opened (s : State) (i : Screen16) (p : Panel) : Panel :=
  p.put ((p.screen.endNotices s.clock (p.ready s i)).carryOutBlank (p.ready s i))

/-- Twin of `State.judgeRequests`. -/
def judged (s : State) (i : Screen16) (p : Panel) : Panel := allLevels.foldl (judge s i) (p.opened s i)

/-- Twin of `State.endEvaluation`. -/
def ended (s : State) (i : Screen16) (p : Panel) : Panel :=
  (p.refreshed s i .default).put ((p.refreshed s i .default).screen.retime s.clock)

/-- Twin of `State.evaluate`. -/
def evaluated (s : State) (i : Screen16) (p : Panel) : Panel := (p.judged s i).ended s i

end Panel

/-! ### What a realized panel is read as -/

section
variable {s : State} {i : Screen16} (h : s.isMonitor i = false) (p : Panel)

theorem State.realized_frame : s.realized i p = { s with
    arb := { s.arb with
      screens := (s.realized i p).arb.screens, hold := (s.realized i p).arb.hold, entrySerial := p.serial }
    links := (s.realized i p).links, sent := (s.realized i p).sent } := by
  unfold State.realized
  split
  · rfl
  · rw [State.left_frame]
    rfl

theorem State.realized_clock : (s.realized i p).clock = s.clock := by rw [State.realized_frame]
theorem State.realized_sch : (s.realized i p).sch = s.sch := by rw [State.realized_frame]
theorem State.realized_serial : (s.realized i p).arb.entrySerial = p.serial := by rw [State.realized_frame]
theorem State.realized_mirror : (s.realized i p).arb.mirror = s.arb.mirror := by rw [State.realized_frame]

include h in
theorem State.realized_screen : (s.realized i p).screen i = p.screen := by
  unfold State.realized
  split
  · exact State.setScreen_screen_self _ _ _
  · rw [State.left_screen_self (s := (s.setScreen i p.screen).setSerial p.serial) h]
    exact State.setScreen_screen_self _ _ _

theorem State.resolved_setScreen {m : Message} {x : Screen} {n : Nat} (preferred : x.preferred = (s.screen i).preferred) :
    ((s.setScreen i x).setSerial n).resolved i m = s.resolved i m := by
  have screen : ((s.setScreen i x).setSerial n).screen i = x := State.setScreen_screen_self _ _ _
  unfold State.resolved
  rw [screen, preferred]
  rfl

include h in
theorem State.realized_link : (s.realized i p).link i = match p.message with
    | none => s.link i
    | some m => (s.link i).busy s.clock m (((s.setScreen i p.screen).setSerial p.serial).resolved i m) := by
  unfold State.realized
  split
  · rfl
  · rw [State.left_link_self (s := (s.setScreen i p.screen).setSerial p.serial) h]
    rfl

include h in
theorem State.realized_caps : ((s.realized i p).link i).caps = (s.link i).caps := by
  rw [State.realized_link h]
  split <;> rfl

include h in
theorem State.realized_ready : (s.realized i p).linkReady i = p.ready s i := by
  unfold State.linkReady Panel.ready
  rw [State.realized_link h]
  cases hp : p.message with
  | none => simp [State.linkReady]
  | some m => simp [Link.busy]

include h in
theorem State.realized_dwell (layout : Layout) (e : Entry) (drawn : Bool) :
    (s.realized i p).entryDwell i layout e drawn = s.entryDwell i layout e drawn := by
  unfold State.entryDwell State.prefixLength
  rw [State.realized_caps h, State.realized_frame]

theorem State.realized_panel : s.realized i (s.panel i) = s := by
  unfold State.realized State.panel State.setScreen State.setSerial State.screen
  dsimp only
  rw [Fin.getElem_fin, Vector.set_getElem_self]

/-! ### Each operation on a realized panel -/

include h in
theorem State.realized_setScreen {x : Screen} (preferred : x.preferred = p.screen.preferred) :
    (s.realized i p).setScreen i x = s.realized i (p.put x) := by
  have same : ((s.setScreen i p.screen).setSerial p.serial).setScreen i x = (s.setScreen i x).setSerial p.serial := by
    rw [← State.setScreen_setScreen i p.screen x s]
    rfl
  unfold State.realized Panel.put
  dsimp only
  split
  · exact same
  · rw [State.setScreen_left (s := (s.setScreen i p.screen).setSerial p.serial) h, same]
    rw [preferred]
    exact congrArg Screen.preferred (State.setScreen_screen_self _ _ _).symm

theorem State.realized_nextSerial : (s.realized i p).nextSerial = s.realized i { p with serial := p.serial + 1 } := by
  have step : (s.realized i p).nextSerial = (s.realized i p).setSerial (p.serial + 1) := by
    unfold State.nextSerial State.setSerial
    rw [State.realized_serial]
  rw [step]
  unfold State.realized
  dsimp only
  split
  · rfl
  · rw [State.setSerial_left]
    rfl

include h in
theorem State.realized_sendOn (m : Message) (unsent : p.message = none) : (s.realized i p).sendOn i m =
    s.realized i { p with screen := p.screen.sentMessage m, message := some m } := by
  rw [State.sendOn_eq, State.realized_screen h, State.realized_setScreen h]
  · unfold State.realized Panel.put
    dsimp only
    rw [unsent]
  · exact (Screen.sentMessage_settings p.screen m).2.2.1

include h in
theorem State.realized_showEntry (l : Level) (e : Entry) (override : TransOverride) (unsent : p.message = none) :
    (s.realized i p).showEntry i l e override = s.realized i (p.shown s i l e override) := by
  unfold State.showEntry
  dsimp only
  rw [State.realized_screen h, State.realized_clock, State.realized_dwell h, State.realized_setScreen h,
    State.realized_sendOn h]
  · rfl
  · exact unsent
  · exact p.screen.applyStaged_settings.2.2.1

include h in
theorem State.realized_sendClear (override : TransOverride) (unsent : p.message = none) :
    (s.realized i p).sendClear i override = s.realized i (p.cleared override) := by
  unfold State.sendClear
  rw [State.realized_screen h, State.realized_setScreen h, State.realized_sendOn h]
  · rfl
  · exact unsent
  · exact p.screen.applyStaged_settings.2.2.1

include h in
theorem State.realized_countOn (ev : CountEvent) :
    (s.realized i p).countOn i ev = s.realized i (p.put (p.screen.count ev)) := by
  unfold State.countOn
  rw [State.realized_screen h, State.realized_setScreen h]
  rfl

include h in
theorem State.realized_insertSilently (l : Level) (r : Request) :
    (s.realized i p).insertSilently i l r = s.realized i (p.insertSilently l r) := by
  unfold State.insertSilently
  rw [State.realized_screen h, State.realized_serial, State.realized_setScreen h, State.realized_nextSerial]
  · rfl
  · rfl

theorem Panel.unsent {p : Panel} (ready : p.ready s i = true) : p.message = none := by
  unfold Panel.ready at ready
  rw [Bool.and_eq_true, Option.isNone_iff_eq_none] at ready
  exact ready.2

include h in
theorem State.realized_grantShow (l : Level) (r : Request) (unsent : p.message = none) :
    (s.realized i p).grantShow i l r = s.realized i (p.grantShow s i l r) := by
  unfold State.grantShow Panel.grantShow Panel.granted
  dsimp only
  rw [State.realized_screen h, State.realized_serial, State.realized_setScreen h p, State.realized_nextSerial,
    State.realized_sch, State.realized_clock]
  · split
    · rw [State.realized_countOn h, State.realized_showEntry h]
      · rfl
      · exact unsent
    · rw [State.realized_showEntry h]
      · rfl
      · exact unsent
  · rfl

include h in
theorem State.realized_bury (m : Level) (e : Entry) : (s.realized i p).bury i m e = s.realized i (p.bury m e) := by
  unfold State.bury
  rw [State.realized_screen h, State.realized_setScreen h]
  · rfl
  · rfl

include h in
theorem State.realized_defer (l : Level) (r : Request) : (s.realized i p).defer i l r = s.realized i (p.defer s i l r) := by
  unfold State.defer Panel.defer
  rw [State.realized_screen h, State.realized_ready h]
  split
  · rw [State.realized_setScreen h]
    rfl
  · rfl

include h in
theorem State.realized_judgeShow (l : Level) (r : Request) :
    (s.realized i p).judgeShow i l r = s.realized i (p.judgeShow s i l r) := by
  have grant : (p.ready s i = true → (s.realized i p).grantShow i l r = s.realized i (p.grantShow s i l r)) :=
    fun ready => State.realized_grantShow h p l r (Panel.unsent ready)
  unfold State.judgeShow Panel.judgeShow
  rw [State.realized_screen h, State.realized_ready h, State.realized_clock]
  cases p.screen.visibleTop with
  | none =>
    dsimp only
    split
    · next ready => exact grant ready
    · rfl
  | some top =>
    obtain ⟨m, e⟩ := top
    dsimp only
    split
    · split
      · next ready =>
        rw [State.realized_bury h, State.realized_grantShow h (p.bury m e) l r (Panel.unsent ready)]
      · rfl
    · split
      · exact State.realized_insertSilently h p l r
      · split
        · exact State.realized_insertSilently h p l r
        · split
          · split
            · next ready => exact grant ready
            · rfl
          · exact State.realized_defer h p l r

include h in
theorem State.realized_refreshScreen (override : TransOverride) :
    (s.realized i p).refreshScreen i override = s.realized i (p.refreshed s i override) := by
  unfold State.refreshScreen Panel.refreshed
  dsimp only
  rw [State.realized_screen h, State.realized_ready h]
  split
  · next ready =>
    have unsent : p.message = none := Panel.unsent (s := s) (i := i) (by simp at ready; exact ready.1)
    cases p.screen.visibleTop with
    | none =>
      dsimp only
      split
      · rfl
      · exact State.realized_sendClear h p override unsent
    | some top =>
      dsimp only
      split
      · rfl
      · exact State.realized_showEntry h p _ _ _ unsent
  · rfl

include h in
theorem State.realized_judgeBlank (l : Level) (r : Request) :
    (s.realized i p).judgeBlank i l r = s.realized i (p.judgeBlank s i l r) := by
  unfold State.judgeBlank Panel.judgeBlank
  dsimp only
  rw [State.realized_screen h, State.realized_ready h, State.realized_clock]
  cases p.screen.stack[l] with
  | none => exact State.realized_setScreen h p rfl
  | some e =>
    dsimp only
    split
    · split
      · split
        · rw [State.realized_setScreen h p, State.realized_refreshScreen h]
          rfl
        · rfl
      · exact State.realized_defer h p l r
    · exact State.realized_setScreen h p rfl

include h in
theorem State.realized_judge (l : Level) : State.judge i (s.realized i p) l = s.realized i (p.judge s i l) := by
  unfold State.judge Panel.judge
  rw [State.realized_screen h, State.realized_clock]
  cases p.screen.pendingAt[l] with
  | none => rfl
  | some r =>
    dsimp only
    split
    · cases r.kind
      · exact State.realized_judgeShow h p l r
      · exact State.realized_judgeShow h p l r
      · exact State.realized_judgeBlank h p l r
    · rfl

include h in
theorem State.realized_judgeEach (ls : List Level) :
    ls.foldl (State.judge i) (s.realized i p) = s.realized i (ls.foldl (Panel.judge s i) p) := by
  induction ls generalizing p with
  | nil => rfl
  | cons l ls ih =>
    rw [List.foldl_cons, List.foldl_cons, State.realized_judge h, ih]

include h in
theorem State.realized_judgeRequests : (s.realized i p).judgeRequests i = s.realized i (p.judged s i) := by
  unfold State.judgeRequests Panel.judged Panel.opened
  dsimp only
  rw [State.realized_screen h, State.realized_ready h, State.realized_clock, State.realized_setScreen h,
    State.realized_judgeEach h]
  exact (Screen.sameSettings_trans (Screen.endNotices_settings _ _ _) (Screen.carryOutBlank_settings _ _)).2.2.1

include h in
theorem State.realized_endEvaluation : (s.realized i p).endEvaluation i = s.realized i (p.ended s i) := by
  unfold State.endEvaluation State.retimeScreen Panel.ended
  rw [State.realized_refreshScreen h, State.realized_screen h, State.realized_clock, State.realized_setScreen h]
  rfl

include h in
/-- An evaluation realizes the panel of the screen evaluated (R119). -/
theorem State.evaluate_eq : s.evaluate i = s.realized i ((s.panel i).evaluated s i) := by
  unfold State.evaluate
  rw [if_neg (by simp [h])]
  conv_lhs => rw [← State.realized_panel (s := s) (i := i)]
  rw [State.realized_judgeRequests h, State.realized_endEvaluation h]
  rfl

end

end Sys2Proof.Machine
end

section
/-! What a SHOW or a CLEAR that leaves on a screen is (R114, R123 to R125, R134, R136, R146): its frame and its copy, the
entry shown, its minimum dwell and the counters. -/

namespace Sys2Proof.Machine

/-! ### Counters (R136) -/

theorem Screen.counted_refl {x y : Screen} (ev : CountEvent) (same : y.counters = x.counters) : x.counted y ev 0 := by
  intro j _ _
  rw [same]
  rfl

theorem Screen.counted_trans {x y z : Screen} {ev : CountEvent} {m n : Nat} (selectors : y.selectors = x.selectors)
    (h : x.counted y ev m) (g : y.counted z ev n) : x.counted z ev (m + n) := by
  intro j sel low
  have first := h j sel (by omega)
  have second := g j (by rw [selectors]; exact sel) (by omega)
  omega

theorem Screen.count_counters (ev : CountEvent) (x : Screen) (j : Fin 3) :
    (x.count ev).counters[j] = if x.selectors[j] = ev then bump x.counters[j] else x.counters[j] := by
  unfold Screen.count
  dsimp only
  rw [Fin.getElem_fin, Vector.getElem_ofFn]

theorem Screen.counted_count_self (ev : CountEvent) (x : Screen) : x.counted (x.count ev) ev 1 := by
  intro j sel low
  rw [Screen.count_counters, if_pos sel, bump_eq]
  exact min_eq_right low

theorem Screen.counted_count_other {ev other : CountEvent} (h : other ≠ ev) (x : Screen) :
    x.counted (x.count other) ev 0 := by
  intro j sel _
  rw [Screen.count_counters, if_neg (by rw [sel]; exact Ne.symm h)]
  rfl

/-! ### What decides how a SHOW looks -/

/-- The same layouts, settings and last speaker. -/
def Screen.sameFace (x y : Screen) : Prop :=
  y.layout = x.layout ∧ y.staged = x.staged ∧ y.lastSpeaker = x.lastSpeaker ∧ y.preferred = x.preferred ∧
    y.prefixMode = x.prefixMode

theorem Screen.sameFace_refl (x : Screen) : x.sameFace x := ⟨rfl, rfl, rfl, rfl, rfl⟩

theorem Screen.sameFace_trans {x y z : Screen} (h : x.sameFace y) (g : y.sameFace z) : x.sameFace z := by
  obtain ⟨a1, a2, a3, a4, a5⟩ := h
  obtain ⟨b1, b2, b3, b4, b5⟩ := g
  exact ⟨b1.trans a1, b2.trans a2, b3.trans a3, b4.trans a4, b5.trans a5⟩

theorem Screen.applyStaged_layout (x : Screen) : x.applyStaged.layout = x.staged.getD x.layout := by
  unfold Screen.applyStaged
  cases x.staged <;> rfl

theorem Screen.applyStaged_frame (x : Screen) :
    x.applyStaged = { x with layout := x.staged.getD x.layout, staged := none } := by
  obtain ⟨layout, staged⟩ := x
  cases staged <;> rfl

theorem prefixDrawn_iff (mode : PrefixMode) (last speaker : Option Nat) : prefixDrawn mode last speaker = true ↔
    ∃ n, speaker = some n ∧ (mode = .on ∨ (mode = .change ∧ last ≠ some n)) := by
  cases speaker with
  | none => simp [prefixDrawn]
  | some n => cases mode <;> simp [prefixDrawn]

section
variable {s : State} {i : Screen16} {x : Screen} (face : (s.screen i).sameFace x)
include face

/-- The message of a SHOW is the one R123 and R124 describe. -/
theorem State.showMessage_showWith (l : Level) (e : Entry) (override : TransOverride) :
    s.showWith i l e override (showMessage x.applyStaged l e override) := by
  obtain ⟨layout, staged, last, -, mode⟩ := face
  refine ⟨⟨rfl, rfl, rfl, ?_, rfl⟩, ?_⟩
  · unfold showMessage
    dsimp only
    rw [Screen.applyStaged_layout, layout, staged]
  · unfold showMessage
    dsimp only
    rw [prefixDrawn_iff, Screen.applyStaged_frame]
    dsimp only
    rw [last, mode]
    cases e.isNotice <;> simp

end

/-! ### The minimum dwell (R125) -/

theorem maxOf_le {n : Nat} : ∀ {l : List Nat}, (∀ v ∈ l, v ≤ n) → maxOf l ≤ n
  | [], _ => Nat.zero_le n
  | a :: l, h => by
    unfold maxOf
    exact max_le (h a List.mem_cons_self) (maxOf_le fun v hv => h v (List.mem_cons_of_mem a hv))

theorem le_maxOf {v : Nat} : ∀ {l : List Nat}, v ∈ l → v ≤ maxOf l
  | a :: l, h => by
    unfold maxOf
    rcases List.mem_cons.1 h with rfl | h
    · exact le_max_left _ _
    · exact (le_maxOf h).trans (le_max_right _ _)

theorem maxOf_mem : ∀ {l : List Nat}, l ≠ [] → maxOf l ∈ l
  | [a], _ => by simp [maxOf]
  | a :: b :: l, _ => by
    have rest : maxOf (b :: l) ∈ b :: l := maxOf_mem (by simp)
    unfold maxOf
    rcases max_choice a (maxOf (b :: l)) with h | h
    · rw [h]; exact List.mem_cons_self
    · rw [h]; exact List.mem_cons_of_mem a rest

/-- The slot values are those of the slots that carry a handle within the capacity. -/
theorem mem_slotValues {l : Layout} {ts : List Tuple} {capacity pre v : Nat} : v ∈ slotValues l ts capacity pre ↔
    ∃ (k : Fin 4) (g : Lang) (p : Tuple), k.val < capacity ∧ l[k] = some g ∧ tupleFor ts g = some p ∧ v = p.chars + pre := by
  have length : l.toList.length = 4 := by simp
  unfold slotValues
  simp only [List.mem_map, List.mem_filterMap, List.mem_take_iff_getElem, Option.bind_eq_some_iff]
  constructor
  · rintro ⟨p, ⟨slot, ⟨k, bound, rfl⟩, g, lang, tuple⟩, rfl⟩
    obtain ⟨below, size⟩ := lt_min_iff.1 bound
    exact ⟨⟨k, length ▸ size⟩, g, p, below, by simpa using lang, tuple, rfl⟩
  · rintro ⟨k, g, p, bound, lang, tuple, rfl⟩
    exact ⟨p, ⟨some g, ⟨k.val, lt_min bound (by omega), by simpa using lang⟩, g, rfl, tuple⟩, rfl⟩

section
variable {s : State} {i : Screen16} {x : Screen} (face : (s.screen i).sameFace x)
include face

/-- What a SHOW of a TITLE entry adds to its length for the speaker (R125). -/
theorem State.prefix_added (l : Level) {e : Entry} (override : TransOverride) (title : e.isNotice = false) :
    (if (showMessage x.applyStaged l e override).drawPrefix then s.prefixLength e.speaker else 0) = s.prefixFor i e := by
  have drawn := (State.showMessage_showWith face l e override).2
  unfold State.prefixLength State.prefixFor
  cases speaker : e.speaker with
  | none => simp
  | some n =>
    rw [title, speaker] at drawn
    cases s.wlk.script with
    | none => simp
    | some sc =>
      by_cases draws : (s.screen i).drawsPrefix n
      · rw [if_pos (drawn.2 ⟨rfl, n, rfl, draws⟩)]
        simp [draws]
      · rw [if_neg fun h => draws (by obtain ⟨-, m, hm, d⟩ := drawn.1 h; cases hm; exact d)]
        simp [draws]

/-- The minimum dwell of an entry as it is shown is that of R125. -/
theorem State.entryDwell_dwellIs (l : Level) (e : Entry) (override : TransOverride) : s.dwellIs i e
    (s.entryDwell i x.applyStaged.layout e (showMessage x.applyStaged l e override).drawPrefix) := by
  have layout : x.applyStaged.layout = (s.screen i).staged.getD (s.screen i).layout := by
    rw [Screen.applyStaged_layout, face.1, face.2.1]
  refine ⟨fun notice => ?_, fun title => ?_⟩
  · unfold State.entryDwell
    rw [if_pos notice]
  · unfold State.entryDwell
    rw [if_neg (by simp [title]), State.prefix_added face l override title, layout]
    refine ⟨fun o given => ?_, fun given => ?_⟩
    · unfold minimumDwell
      rw [given]
      rfl
    · have values : ∀ v, v ∈ slotValues ((s.screen i).staged.getD (s.screen i).layout) e.tuples
          (capacityOf (s.link i).caps) (s.prefixFor i e) ↔ s.slotHolds i e v := fun v => mem_slotValues
      generalize slotValues ((s.screen i).staged.getD (s.screen i).layout) e.tuples
          (capacityOf (s.link i).caps) (s.prefixFor i e) = vs at *
      refine ⟨maxOf vs, fun v hv => le_maxOf ((values v).2 hv), ?_, ?_⟩
      · by_cases empty : vs = []
        · subst empty
          exact .inr ⟨rfl, fun v hv => by simpa using (values v).2 hv⟩
        · exact .inl ((values _).1 (maxOf_mem empty))
      · unfold minimumDwell
        rw [given]
        rfl

end

end Sys2Proof.Machine
end

section
/-! What a realized panel leaves on the links: the frames, the copy, and everything else as it was (R134, R146, R147). -/

namespace Sys2Proof.Machine

/-! ### The line of a link -/

/-- What decides the frame of a message on link `i` is the same. -/
def State.sameLine (s b : State) (i : Screen16) : Prop :=
  (b.link i).tag = (s.link i).tag ∧ (b.link i).caps = (s.link i).caps ∧
    (b.screen i).preferred = (s.screen i).preferred

theorem State.sameLine_refl (s : State) (i : Screen16) : s.sameLine s i := ⟨rfl, rfl, rfl⟩

section
variable {s b u : State} {i : Screen16} (line : s.sameLine b i)
include line

theorem State.resolved_congr (m : Message) : b.resolved i m = s.resolved i m := by
  unfold State.resolved
  rw [line.2.1, line.2.2]

theorem State.nextFrame_congr (m : Message) : b.nextFrame i m = s.nextFrame i m := by
  unfold State.nextFrame
  rw [State.resolved_congr line, line.1, line.2.1]

theorem State.messageSent_congr (m : Message) : b.messageSent u i m ↔ s.messageSent u i m := by
  unfold State.messageSent
  rw [State.resolved_congr line, State.nextFrame_congr line, line.1, line.2.1]

end

/-- The on-screen record that a message leaves (R113, R123). -/
def Message.record (m : Message) : OnScreen :=
  match m.subject with
  | some (l, _, n) => .entry l n
  | none => .blank

theorem Screen.sentMessage_onScreen (x : Screen) (m : Message) : (x.sentMessage m).onScreen = m.record := by
  unfold Screen.sentMessage Message.record
  rcases m.subject with _ | ⟨l, _, n⟩ <;> rfl

/-! ### The frames of a message and its copy -/

/-- The frame of the copy for the monitor of screen `i`, when it leaves (R134). -/
def State.copyFrames (i : Screen16) (m : Message) (s : State) : List (Screen16 × List Byte) :=
  match s.arb.mirror with
  | some (src, mon) => if src = i ∧ (s.link mon).state = .ready then [(mon, s.nextFrame mon m)] else []
  | none => []

theorem State.linkSend_sent (i : Screen16) (m : Message) (s : State) :
    (s.linkSend i m).sent = s.sent ++ [(i, s.nextFrame i m)] := rfl

theorem State.sendCopy_held {mon : Screen16} {s : State} (m : Message) (h : (s.link mon).state ≠ .ready) :
    s.sendCopy mon m = { s with arb := { s.arb with hold := some m } } := by
  unfold State.sendCopy
  exact if_neg (by simpa [State.linkReady] using h)

theorem State.sendCopy_ready {mon : Screen16} {s : State} (m : Message) (h : (s.link mon).state = .ready) :
    s.sendCopy mon m = (s.setScreen mon ((s.screen mon).sentMessage m)).linkSend mon m := by
  unfold State.sendCopy
  exact if_pos (by simpa [State.linkReady] using h)

theorem State.setScreen_sameLine {s : State} (i : Screen16) {x : Screen} (preferred : x.preferred = (s.screen i).preferred)
    (j : Screen16) : s.sameLine (s.setScreen i x) j := by
  refine ⟨rfl, rfl, ?_⟩
  by_cases hj : i = j
  · subst hj
    rw [State.setScreen_screen_self, preferred]
  · rw [State.setScreen_screen_ne _ _ hj]

theorem State.linkSend_sameLine (i : Screen16) (m : Message) {j : Screen16} (h : i ≠ j) (s : State) :
    s.sameLine (s.linkSend i m) j := by
  have link : (s.linkSend i m).link j = s.link j := State.setLink_link_ne _ _ h
  exact ⟨by rw [link], by rw [link], rfl⟩

theorem State.linkSend_messageSent (i : Screen16) (m : Message) (s : State) : s.messageSent (s.linkSend i m) i m := by
  unfold State.messageSent
  rw [State.linkSend_link_self, State.linkSend_sent]
  exact ⟨by simp, rfl, rfl, rfl, rfl⟩

/-- What is still true of a message sent on link `i` once others have left elsewhere. -/
theorem State.messageSent_later {s u v : State} {i : Screen16} {m : Message} (sent : s.messageSent u i m)
    (link : v.link i = u.link i) (clock : v.clock = u.clock) (frames : ∀ p ∈ u.sent, p ∈ v.sent) :
    s.messageSent v i m := by
  obtain ⟨frame, rest⟩ := sent
  refine ⟨frames _ frame, ?_⟩
  rw [link, clock]
  exact rest

section
variable {s : State} {i : Screen16} (h : s.isMonitor i = false) {m : Message}
include h

theorem State.left_sent : (s.left i m).sent = s.sent ++ (i, s.nextFrame i m) :: s.copyFrames i m := by
  unfold State.left State.copyFrames
  cases pair : s.arb.mirror with
  | none => exact State.linkSend_sent _ _ _
  | some q =>
    obtain ⟨src, mon⟩ := q
    dsimp only
    by_cases e : src = i
    · subst e
      have ne := State.mirror_ne h pair
      have line := State.linkSend_sameLine src m (Ne.symm ne) s
      have link : (s.linkSend src m).link mon = s.link mon := State.setLink_link_ne _ _ (Ne.symm ne)
      rw [if_pos rfl]
      by_cases ready : (s.link mon).state = .ready
      · rw [State.sendCopy_ready m (by rw [link]; exact ready), if_pos ⟨rfl, ready⟩, State.linkSend_sent,
          State.nextFrame_congr (State.setScreen_sameLine mon (Screen.sentMessage_settings _ m).2.2.1 mon),
          State.nextFrame_congr line]
        show (s.linkSend src m).sent ++ _ = _
        rw [State.linkSend_sent, List.append_assoc]
        rfl
      · rw [State.sendCopy_held m (by rw [link]; exact ready), if_neg fun e => ready e.2]
        exact State.linkSend_sent _ _ _
    · rw [if_neg e, if_neg fun both => e both.1]
      exact State.linkSend_sent _ _ _

theorem State.left_messageSent : s.messageSent (s.left i m) i m := by
  have sent := State.left_sent h (m := m)
  refine State.messageSent_later (State.linkSend_messageSent i m s) ?_ (by rw [State.left_frame]; rfl) ?_
  · rw [State.left_link_self h, State.linkSend_link_self]
  · intro p hp
    rw [sent]
    rw [State.linkSend_sent] at hp
    simp only [List.mem_append, List.mem_cons, List.not_mem_nil, or_false] at hp ⊢
    tauto

/-- The copy that leaves on the link of a READY monitor (R134). -/
theorem State.left_copy {mon : Screen16} (pair : s.arb.mirror = some (i, mon)) (ready : (s.link mon).state = .ready) :
    (s.left i m).screen mon = (s.screen mon).sentMessage m ∧ s.messageSent (s.left i m) mon m ∧
      (s.left i m).arb.hold = s.arb.hold := by
  have ne := State.mirror_ne h pair
  have link : (s.linkSend i m).link mon = s.link mon := State.setLink_link_ne _ _ (Ne.symm ne)
  have here : s.left i m = ((s.linkSend i m).setScreen mon ((s.screen mon).sentMessage m)).linkSend mon m := by
    unfold State.left
    rw [pair]
    dsimp only
    rw [if_pos rfl, State.sendCopy_ready m (by rw [link]; exact ready)]
    rfl
  have line := State.linkSend_sameLine i m (Ne.symm ne) s
  rw [here]
  refine ⟨State.setScreen_screen_self _ _ _, ?_, rfl⟩
  rw [← State.messageSent_congr line]
  rw [← State.messageSent_congr (State.setScreen_sameLine mon (x := (s.screen mon).sentMessage m)
    (s := s.linkSend i m) (Screen.sentMessage_settings _ m).2.2.1 mon)]
  exact State.linkSend_messageSent _ _ _

/-- The copy that is put into the hold (R134). -/
theorem State.left_held {mon : Screen16} (pair : s.arb.mirror = some (i, mon)) (busy : (s.link mon).state ≠ .ready) :
    (s.left i m).screen mon = s.screen mon ∧ (s.left i m).link mon = s.link mon ∧
      (s.left i m).arb.hold = some m := by
  have ne := State.mirror_ne h pair
  have link : (s.linkSend i m).link mon = s.link mon := State.setLink_link_ne _ _ (Ne.symm ne)
  unfold State.left
  rw [pair]
  dsimp only
  rw [if_pos rfl, State.sendCopy_held m (by rw [link]; exact busy)]
  exact ⟨rfl, link, rfl⟩

omit h in
/-- A message touches no screen or link but its own and the monitor's (R134). -/
theorem State.left_other {j : Screen16} (hj : j ≠ i) (pair : s.arb.mirror ≠ some (i, j)) :
    (s.left i m).screen j = s.screen j ∧ (s.left i m).link j = s.link j := by
  have link : (s.linkSend i m).link j = s.link j := State.setLink_link_ne _ _ (Ne.symm hj)
  unfold State.left
  split
  · next src mon mirror =>
    split
    · next e =>
      subst e
      have ne : mon ≠ j := fun e => pair (by rw [mirror, e])
      exact ⟨State.sendCopy_screen_ne ne _ _, (State.sendCopy_link_ne ne _ _).trans link⟩
    · exact ⟨rfl, link⟩
  · exact ⟨rfl, link⟩

end

end Sys2Proof.Machine
end

section
/-! A message that has left on a screen, seen from a state before it in which its look is decided alike: its frame, its copy,
and the entry shown (R123 to R125, R134, R146). -/

namespace Sys2Proof.Machine

/-! ### States that decide a message alike -/

/-- What decides how a message on screen `i`, and its copy, look and whether the copy leaves is the same. -/
structure State.Alike (i : Screen16) (s b : State) : Prop where
  mirror : b.arb.mirror = s.arb.mirror
  dwellBase : b.arb.dwellBase = s.arb.dwellBase
  dwellPerChar : b.arb.dwellPerChar = s.arb.dwellPerChar
  script : b.wlk.script = s.wlk.script
  line : s.sameLine b i
  copy : ∀ mon, s.arb.mirror = some (i, mon) → s.sameLine b mon ∧ b.link mon = s.link mon

theorem State.Alike.refl (i : Screen16) (s : State) : State.Alike i s s :=
  ⟨rfl, rfl, rfl, rfl, s.sameLine_refl i, fun mon _ => ⟨s.sameLine_refl mon, rfl⟩⟩

theorem State.sameLine_trans {s b c : State} {i : Screen16} (h : s.sameLine b i) (g : b.sameLine c i) : s.sameLine c i :=
  ⟨g.1.trans h.1, g.2.1.trans h.2.1, g.2.2.trans h.2.2⟩

theorem State.Alike.trans {i : Screen16} {s b c : State} (h : State.Alike i s b) (g : State.Alike i b c) :
    State.Alike i s c where
  mirror := g.mirror.trans h.mirror
  dwellBase := g.dwellBase.trans h.dwellBase
  dwellPerChar := g.dwellPerChar.trans h.dwellPerChar
  script := g.script.trans h.script
  line := State.sameLine_trans h.line g.line
  copy mon pair := by
    obtain ⟨line, link⟩ := h.copy mon pair
    obtain ⟨line', link'⟩ := g.copy mon (h.mirror.trans pair)
    exact ⟨State.sameLine_trans line line', link'.trans link⟩

section
variable {s b u : State} {i : Screen16} (alike : State.Alike i s b)
include alike

theorem State.isMonitor_alike (j : Screen16) : b.isMonitor j = s.isMonitor j := by
  unfold State.isMonitor
  rw [alike.mirror]

theorem State.entryDwell_alike (layout : Layout) (e : Entry) (drawn : Bool) :
    b.entryDwell i layout e drawn = s.entryDwell i layout e drawn := by
  unfold State.entryDwell State.prefixLength
  rw [alike.dwellBase, alike.dwellPerChar, alike.script, alike.line.2.1]

theorem State.copyFrames_alike (m : Message) : b.copyFrames i m = s.copyFrames i m := by
  unfold State.copyFrames
  rw [alike.mirror]
  cases pair : s.arb.mirror with
  | none => rfl
  | some q =>
    obtain ⟨src, mon⟩ := q
    dsimp only
    by_cases e : src = i
    · subst e
      obtain ⟨line, link⟩ := alike.copy mon pair
      rw [link, State.nextFrame_congr line]
    · rw [if_neg fun both => e both.1, if_neg fun both => e both.1]

end

theorem State.setScreen_alike {s : State} {i : Screen16} {x : Screen} (preferred : x.preferred = (s.screen i).preferred)
    (n : Nat) : State.Alike i s ((s.setScreen i x).setSerial n) :=
  ⟨rfl, rfl, rfl, rfl, State.setScreen_sameLine i preferred i, fun mon _ => ⟨State.setScreen_sameLine i preferred mon, rfl⟩⟩

/-! ### The frames on a link -/

theorem State.mem_framesOn {u : State} {i : Screen16} {f : List Byte} : f ∈ u.framesOn i ↔ (i, f) ∈ u.sent := by
  unfold State.framesOn
  simp

/-- The frames of a message, and of its copy, on link `j`. -/
def State.framesOf (i : Screen16) (m : Message) (j : Screen16) (s : State) : List (List Byte) :=
  (((i, s.nextFrame i m) :: s.copyFrames i m).filter fun p => p.1 == j).map (·.2)

theorem State.copyFrames_none {s : State} {i : Screen16} (m : Message)
    (h : ∀ mon, s.arb.mirror = some (i, mon) → (s.link mon).state ≠ .ready) : s.copyFrames i m = [] := by
  unfold State.copyFrames
  split
  · next src mon pair => exact if_neg (by rintro ⟨rfl, ready⟩; exact h mon pair ready)
  · rfl

theorem State.copyFrames_ready {s : State} {i mon : Screen16} (m : Message) (pair : s.arb.mirror = some (i, mon))
    (ready : (s.link mon).state = .ready) : s.copyFrames i m = [(mon, s.nextFrame mon m)] := by
  unfold State.copyFrames
  rw [pair]
  exact if_pos ⟨rfl, ready⟩

section
variable {s : State} {i : Screen16} (h : s.isMonitor i = false) (m : Message)
include h

theorem State.framesOf_self : s.framesOf i m i = [s.nextFrame i m] := by
  unfold State.framesOf
  have copies : (s.copyFrames i m).filter (fun p => p.1 == i) = [] := by
    unfold State.copyFrames
    split
    · next src mon pair =>
      split
      · next e =>
        obtain ⟨rfl, -⟩ := e
        simp [State.mirror_ne h pair]
      · rfl
    · rfl
  simp [copies]

theorem State.framesOf_monitor {mon : Screen16} (pair : s.arb.mirror = some (i, mon)) :
    s.framesOf i m mon = if (s.link mon).state = .ready then [s.nextFrame mon m] else [] := by
  unfold State.framesOf
  have ne : (i == mon) = false := by simpa using (State.mirror_ne h pair).symm
  by_cases ready : (s.link mon).state = .ready
  · rw [State.copyFrames_ready m pair ready, if_pos ready]
    simp [ne]
  · rw [State.copyFrames_none m (by rintro mon' pair'; rw [pair] at pair'; cases pair'; exact ready), if_neg ready]
    simp [ne]

omit h in
theorem State.framesOf_other {j : Screen16} (hj : j ≠ i) (pair : s.arb.mirror ≠ some (i, j)) : s.framesOf i m j = [] := by
  unfold State.framesOf
  have ne : (i == j) = false := by simpa using hj.symm
  have copies : (s.copyFrames i m).filter (fun p => p.1 == j) = [] := by
    unfold State.copyFrames
    split
    · next src mon mirror =>
      split
      · next e =>
        obtain ⟨rfl, -⟩ := e
        have : mon ≠ j := fun e => pair (by rw [mirror, e])
        simp [this]
      · rfl
    · rfl
  simp [ne, copies]

theorem State.left_framesOn (j : Screen16) : (s.left i m).framesOn j = s.framesOn j ++ s.framesOf i m j := by
  unfold State.framesOn State.framesOf
  rw [State.left_sent h, List.filter_append, List.map_append]

end

/-! ### One message and its copy -/

/-- The message has left on screen `i` and has been copied, and no other has since been put into the hold. -/
structure State.Sent (s u : State) (i : Screen16) (m : Message) : Prop where
  message : s.messageSent u i m
  record : (u.screen i).onScreen = m.record
  copy : ∀ mon, s.arb.mirror = some (i, mon) →
    ((s.link mon).state = .ready → s.messageSent u mon m ∧ (u.screen mon).onScreen = m.record) ∧
      ((s.link mon).state ≠ .ready → u.link mon = s.link mon ∧ u.arb.hold = some m)

/-- The frames that have left since those in `before` are that of the message and that of its copy. -/
def State.framesLeft (s u : State) (i : Screen16) (m : Message) (before : List (Screen16 × List Byte)) : Prop :=
  u.sent = before ++ (i, s.nextFrame i m) :: s.copyFrames i m

section
variable {s u : State} {i : Screen16} {m : Message} {before : List (Screen16 × List Byte)}

theorem State.Sent.copied (h : s.Sent u i m) : s.copied u i m := by
  intro mon pair
  obtain ⟨leaves, held⟩ := h.copy mon pair
  refine ⟨fun ready => ?_, held⟩
  obtain ⟨sent, record⟩ := leaves ready
  exact ⟨sent, record.trans h.record.symm⟩

theorem State.Sent.sentAndCopied {kind : Message → Prop} (h : s.Sent u i m) (frames : s.framesLeft u i m [])
    (of : kind m) : s.sentAndCopied u i kind := by
  refine ⟨m, of, h.copied, fun mon pair ready => ?_, fun held => ?_⟩
  · rw [frames, State.copyFrames_ready m pair ready, List.nil_append]
  · rw [frames, State.copyFrames_none m held, List.nil_append]

theorem State.framesLeft_framesOn (h : s.framesLeft u i m before) (j : Screen16) :
    u.framesOn j = (before.filter fun p => p.1 == j).map (·.2) ++ s.framesOf i m j := by
  unfold State.framesOn State.framesOf
  rw [h, List.filter_append, List.map_append]

theorem State.Sent.onlySent (h : s.Sent u i m) (plain : s.isMonitor i = false) (frames : s.framesLeft u i m before)
    (here : before.filter (fun p => p.1 == i) = [])
    (copy : ∀ mon, s.arb.mirror = some (i, mon) → before.filter (fun p => p.1 == mon) = []) : s.onlySent u i m := by
  refine ⟨h.copied, ?_, fun mon pair => ?_⟩
  · rw [State.framesLeft_framesOn frames, here, State.framesOf_self plain]
    rfl
  · rw [State.framesLeft_framesOn frames, copy mon pair, State.framesOf_monitor plain m pair]
    rfl

/-- The message seen from an earlier state that decides it alike. -/
theorem State.Sent.of_alike {b : State} (alike : State.Alike i s b) (h : b.Sent u i m) : s.Sent u i m where
  message := (State.messageSent_congr alike.line m).1 h.message
  record := h.record
  copy mon pair := by
    obtain ⟨line, link⟩ := alike.copy mon pair
    obtain ⟨leaves, held⟩ := h.copy mon (alike.mirror.trans pair)
    rw [link] at leaves held
    exact ⟨fun ready => ⟨(State.messageSent_congr line m).1 (leaves ready).1, (leaves ready).2⟩, held⟩

theorem State.framesLeft_alike {b : State} (alike : State.Alike i s b) (h : b.framesLeft u i m before) :
    s.framesLeft u i m before := by
  unfold State.framesLeft at h ⊢
  rw [h, State.nextFrame_congr alike.line, State.copyFrames_alike alike]

end

section
variable {s : State} {i : Screen16} (h : s.isMonitor i = false) {p : Panel} {m : Message} (sends : p.message = some m)
  (record : p.screen.onScreen = m.record) (preferred : p.screen.preferred = (s.screen i).preferred)
include h sends record preferred

/-- A panel with a message has sent it. -/
theorem State.realized_sent : s.Sent (s.realized i p) i m := by
  have alike := State.setScreen_alike preferred p.serial
  have here : s.realized i p = ((s.setScreen i p.screen).setSerial p.serial).left i m := by
    unfold State.realized
    rw [sends]
  refine State.Sent.of_alike alike ?_
  have plain : ((s.setScreen i p.screen).setSerial p.serial).isMonitor i = false := h
  rw [here]
  refine ⟨State.left_messageSent plain, ?_, fun mon pair => ⟨fun ready => ?_, fun busy => ?_⟩⟩
  · rw [State.left_screen_self plain]
    exact (congrArg Screen.onScreen (State.setScreen_screen_self _ _ _)).trans record
  · obtain ⟨screen, sent, -⟩ := State.left_copy plain pair ready (m := m)
    exact ⟨sent, by rw [screen, Screen.sentMessage_onScreen]⟩
  · obtain ⟨-, link, hold⟩ := State.left_held plain pair busy (m := m)
    exact ⟨link, hold⟩

omit record in
theorem State.realized_framesLeft : s.framesLeft (s.realized i p) i m s.sent := by
  have alike := State.setScreen_alike preferred p.serial
  have here : s.realized i p = ((s.setScreen i p.screen).setSerial p.serial).left i m := by
    unfold State.realized
    rw [sends]
  have plain : ((s.setScreen i p.screen).setSerial p.serial).isMonitor i = false := h
  rw [here]
  exact State.framesLeft_alike alike (State.left_sent plain)

end

/-- Nothing but screen `i` and, when it is the source, its monitor changes as a panel is realized. -/
theorem State.realized_othersStand {s : State} {i : Screen16} (p : Panel) : s.othersStand (s.realized i p) i := by
  intro j hj pair
  have screen : ((s.setScreen i p.screen).setSerial p.serial).screen j = s.screen j :=
    State.setScreen_screen_ne _ _ (Ne.symm hj)
  unfold State.realized
  split
  · exact ⟨screen, rfl⟩
  · obtain ⟨left, link⟩ := State.left_other (s := (s.setScreen i p.screen).setSerial p.serial) hj pair
    exact ⟨left.trans screen, link⟩

/-- A panel without a message has sent nothing. -/
theorem State.realized_silent {s : State} {i : Screen16} {p : Panel} (silent : p.message = none) :
    s.realized i p = (s.setScreen i p.screen).setSerial p.serial := by
  unfold State.realized
  rw [silent]

/-! ### An entry shown -/

/-- An entry as a SHOW of it leaves (R120, R125). -/
def Entry.onAir (e : Entry) (dwell : Nat) (now : Time) : Entry :=
  { e with minDwell := some dwell, visibleSince := some now }

/-- A SHOW of the entry at level `l` has left on screen `i` and has been copied. -/
structure State.Showed (s u : State) (i : Screen16) (l : Level) (e : Entry) (override : TransOverride) (m : Message) : Prop
    where
  sent : s.Sent u i m
  shows : s.showWith i l e override m
  entry : ∃ d, s.dwellIs i e d ∧ (u.screen i).stack[l] = some (e.onAir d u.clock)

/-- A CLEAR has left on screen `i` and has been copied. -/
structure State.Cleared (s u : State) (i : Screen16) (override : TransOverride) (m : Message) : Prop where
  sent : s.Sent u i m
  clears : m.isClear override

section
variable {s u : State} {i : Screen16} {l : Level} {e : Entry} {override : TransOverride} {m : Message}

theorem State.Showed.onScreen (h : s.Showed u i l e override m) : (u.screen i).onScreen = .entry l e.serial := by
  rw [h.sent.record]
  unfold Message.record
  rw [h.shows.1.2.2.1]

/-- The entry shown, as the stack holds it. -/
theorem State.Showed.showSent (h : s.Showed u i l e e.override m) :
    ∃ d, s.showSent u i l (e.onAir d u.clock) ∧ s.showOf i l (e.onAir d u.clock) m := by
  obtain ⟨d, dwell, entry⟩ := h.entry
  exact ⟨d, ⟨entry, rfl, h.onScreen, ⟨m, h.shows, h.sent.message⟩, d, rfl, dwell⟩, h.shows⟩

theorem State.Cleared.clearSent (h : s.Cleared u i override m) : s.clearSent u i override := by
  refine ⟨?_, m, h.clears, h.sent.message⟩
  rw [h.sent.record]
  unfold Message.record
  rw [h.clears.2.2]

end

/-! ### What is left alone elsewhere -/

/-- Screen `i`, its link and its line are as they were, and so is all that its copy has left on the monitor. -/
structure State.Untouched (i : Screen16) (s u : State) : Prop where
  clock : u.clock = s.clock
  mirror : u.arb.mirror = s.arb.mirror
  dwellBase : u.arb.dwellBase = s.arb.dwellBase
  dwellPerChar : u.arb.dwellPerChar = s.arb.dwellPerChar
  script : u.wlk.script = s.wlk.script
  tolerance : u.sch.lateTolerance = s.sch.lateTolerance
  screen : u.screen i = s.screen i
  link : u.link i = s.link i
  frames : u.framesOn i = s.framesOn i
  copy : ∀ mon, s.arb.mirror = some (i, mon) → u.link mon = s.link mon ∧ u.framesOn mon = s.framesOn mon ∧
    (u.screen mon).onScreen = (s.screen mon).onScreen ∧ (u.screen mon).preferred = (s.screen mon).preferred ∧
    u.arb.hold = s.arb.hold

theorem State.Untouched.refl (i : Screen16) (s : State) : State.Untouched i s s :=
  ⟨rfl, rfl, rfl, rfl, rfl, rfl, rfl, rfl, rfl, fun _ _ => ⟨rfl, rfl, rfl, rfl, rfl⟩⟩

theorem State.Untouched.trans {i : Screen16} {s u v : State} (h : State.Untouched i s u) (g : State.Untouched i u v) :
    State.Untouched i s v where
  clock := g.clock.trans h.clock
  mirror := g.mirror.trans h.mirror
  dwellBase := g.dwellBase.trans h.dwellBase
  dwellPerChar := g.dwellPerChar.trans h.dwellPerChar
  script := g.script.trans h.script
  tolerance := g.tolerance.trans h.tolerance
  screen := g.screen.trans h.screen
  link := g.link.trans h.link
  frames := g.frames.trans h.frames
  copy mon pair := by
    obtain ⟨a1, a2, a3, a4, a5⟩ := h.copy mon pair
    obtain ⟨b1, b2, b3, b4, b5⟩ := g.copy mon (h.mirror.trans pair)
    exact ⟨b1.trans a1, b2.trans a2, b3.trans a3, b4.trans a4, b5.trans a5⟩

/-- What leaves a screen alone decides its messages alike. -/
theorem State.Untouched.alike {i : Screen16} {s u : State} (h : State.Untouched i s u) : State.Alike i s u where
  mirror := h.mirror
  dwellBase := h.dwellBase
  dwellPerChar := h.dwellPerChar
  script := h.script
  line := ⟨by rw [h.link], by rw [h.link], by rw [h.screen]⟩
  copy mon pair := by
    obtain ⟨link, -, -, preferred, -⟩ := h.copy mon pair
    exact ⟨⟨by rw [link], by rw [link], preferred⟩, link⟩

section
variable {s u v : State} {i : Screen16} (rest : State.Untouched i u v)
include rest

theorem State.Untouched.messageSent {j : Screen16} {m : Message} (link : v.link j = u.link j)
    (frames : v.framesOn j = u.framesOn j) (h : s.messageSent u j m) : s.messageSent v j m := by
  obtain ⟨frame, operation⟩ := h
  refine ⟨?_, ?_⟩
  · rw [← State.mem_framesOn] at frame ⊢
    rw [frames]
    exact frame
  · rw [link, rest.clock]
    exact operation

theorem State.Sent.later (mirror : u.arb.mirror = s.arb.mirror) {m : Message} (h : s.Sent u i m) : s.Sent v i m where
  message := rest.messageSent rest.link rest.frames h.message
  record := by rw [rest.screen]; exact h.record
  copy mon pair := by
    obtain ⟨link, frames, record, -, hold⟩ := rest.copy mon (mirror.trans pair)
    obtain ⟨leaves, held⟩ := h.copy mon pair
    refine ⟨fun ready => ?_, fun busy => ?_⟩
    · obtain ⟨sent, shown⟩ := leaves ready
      exact ⟨rest.messageSent link frames sent, record.trans shown⟩
    · obtain ⟨stands, kept⟩ := held busy
      exact ⟨link.trans stands, hold.trans kept⟩

theorem State.Showed.later (mirror : u.arb.mirror = s.arb.mirror) {l : Level} {e : Entry} {override : TransOverride}
    {m : Message} (h : s.Showed u i l e override m) : s.Showed v i l e override m where
  sent := h.sent.later rest mirror
  shows := h.shows
  entry := by
    rw [rest.screen, rest.clock]
    exact h.entry

theorem State.Cleared.later (mirror : u.arb.mirror = s.arb.mirror) {override : TransOverride} {m : Message}
    (h : s.Cleared u i override m) : s.Cleared v i override m where
  sent := h.sent.later rest mirror
  clears := h.clears

end

end Sys2Proof.Machine
end

section
/-! What each step of an evaluation makes of a panel: the notice ends and the desk BLANK, the requests that are judged, and
the refresh that ends it (R119 to R123, R128, R129). -/

namespace Sys2Proof.Machine

/-! ### The visible top (R118) -/

theorem mem_allLevels (l : Level) : l ∈ allLevels := by
  revert l
  decide

/-- Nothing is visible: no unmasked level holds an entry. -/
theorem Screen.visibleTop_none {x : Screen} : x.visibleTop = none ↔ ∀ l : Level, x.masked l = false → x.stack[l] = none := by
  unfold Screen.visibleTop
  rw [List.findSome?_eq_none_iff]
  constructor
  · intro h l unmasked
    have := h l (mem_allLevels l)
    rw [unmasked] at this
    simpa using this
  · intro h l _
    cases masked : x.masked l with
    | true => rfl
    | false => simpa using h l masked

/-- At no level below the visible top is there an unmasked entry. -/
theorem Screen.visibleTop_least {x : Screen} {l k : Level} {e : Entry} (top : x.visibleTop = some (l, e)) (lower : k < l)
    (unmasked : x.masked k = false) : x.stack[k] = none := by
  unfold Screen.visibleTop at top
  obtain ⟨before, m, after, walk, here, none⟩ := List.findSome?_eq_some_iff.1 top
  have here : m = l := by
    split at here
    · cases here
    · obtain ⟨y, -, pair⟩ := Option.map_eq_some_iff.1 here
      exact congrArg Prod.fst pair
  subst here
  have sorted : (before ++ m :: after).Pairwise (· < ·) := by rw [← walk]; decide
  have mem : k ∈ before := by
    have : k ∈ before ++ m :: after := by rw [← walk]; exact mem_allLevels k
    rcases List.mem_append.1 this with h | h
    · exact h
    · rcases List.mem_cons.1 h with rfl | h
      · exact absurd lower (lt_irrefl _)
      · have := List.rel_of_pairwise_cons (List.pairwise_append.1 sorted).2.1 h
        exact absurd lower (not_lt_of_gt this)
  have := none k mem
  rw [unmasked] at this
  simpa using this

/-- The visible top is the unmasked entry at the lowest level number (R118). -/
theorem Screen.visibleTop_iff {x : Screen} {l : Level} {e : Entry} : x.visibleTop = some (l, e) ↔
    x.stack[l] = some e ∧ x.masked l = false ∧ ∀ k : Level, k < l → x.masked k = false → x.stack[k] = none := by
  refine ⟨fun top => ?_, fun ⟨entry, unmasked, least⟩ => ?_⟩
  · obtain ⟨entry, unmasked⟩ := Screen.visibleTop_some top
    exact ⟨entry, unmasked, fun k lower => Screen.visibleTop_least top lower⟩
  · cases top : x.visibleTop with
    | none =>
      rw [Screen.visibleTop_none.1 top l unmasked] at entry
      cases entry
    | some q =>
      obtain ⟨m, y⟩ := q
      obtain ⟨entry', unmasked'⟩ := Screen.visibleTop_some top
      rcases lt_trichotomy m l with lower | same | higher
      · rw [least m lower unmasked'] at entry'
        cases entry'
      · subst same
        rw [entry] at entry'
        cases entry'
        rfl
      · rw [Screen.visibleTop_least top higher unmasked] at entry
        cases entry

theorem Screen.masked_congr {x y : Screen} (mask : y.mask = x.mask) (l : Level) : y.masked l = x.masked l := by
  unfold Screen.masked
  rw [mask]

/-- An entry put or removed below the visible top leaves it. -/
theorem Screen.visibleTop_beneath {x y : Screen} {m l : Level} {e : Entry} (top : x.visibleTop = some (m, e)) (lower : m < l)
    (mask : y.mask = x.mask) (others : ∀ k : Level, k ≠ l → y.stack[k] = x.stack[k]) : y.visibleTop = some (m, e) := by
  obtain ⟨entry, unmasked, least⟩ := Screen.visibleTop_iff.1 top
  refine Screen.visibleTop_iff.2 ⟨(others m (ne_of_lt lower)).trans entry, (Screen.masked_congr mask m).trans unmasked,
    fun k below unmasked' => ?_⟩
  rw [others k (ne_of_lt (below.trans lower))]
  exact least k below ((Screen.masked_congr mask k).symm.trans unmasked')

/-- The visible top is decided by the mask and the stack. -/
theorem Screen.visibleTop_congr {x y : Screen} (mask : y.mask = x.mask) (stack : y.stack = x.stack) :
    y.visibleTop = x.visibleTop := by
  unfold Screen.visibleTop Screen.masked
  rw [mask, stack]

theorem Screen.shownTop_eq {x : Screen} {l : Level} {e : Entry} (top : x.visibleTop = some (l, e)) :
    x.shownTop = if e.visibleSince.isSome then some (l, e) else none := by
  unfold Screen.shownTop
  rw [top]
  cases since : e.visibleSince <;> simp [since]

theorem Screen.isShownTop_iff {x : Screen} {l : Level} :
    x.isShownTop l = true ↔ ∃ e v, x.visibleTop = some (l, e) ∧ e.visibleSince = some v := by
  unfold Screen.isShownTop Screen.shownTop
  cases top : x.visibleTop with
  | none => simp
  | some q =>
    obtain ⟨m, y⟩ := q
    cases since : y.visibleSince with
    | none => simp [since]
    | some v => simp [since]

/-! ### Steps 1 and 2 -/

/-- No notice of the screen has reached its end (R128). -/
def Screen.noneEnded (x : Screen) (now : Time) : Prop :=
  ∀ (l : Level) (T : Time), x.stack[l].bind (·.endTime) = some T ∨ x.pendingAt[l].bind (·.endTime) = some T → now < T

theorem Screen.endNoticeAt_stands {x : Screen} {now : Time} (ready : Bool) (l : Level) (h : x.noneEnded now) :
    x.endNoticeAt now ready l = x := by
  have pending : x.pendingAt[l].any (fun r => r.endTime.any fun t => decide (t ≤ now)) = false := by
    rw [← Bool.not_eq_true, Option.any_eq_true]
    rintro ⟨r, hr, ended⟩
    obtain ⟨T, hT, late⟩ := Option.any_eq_true _ _ |>.1 ended
    exact absurd (of_decide_eq_true late) (Nat.not_le_of_lt (h l T (.inr (by rw [hr]; exact hT))))
  have entry : x.stack[l].any (fun e => e.endTime.any fun t => decide (t ≤ now)) = false := by
    rw [← Bool.not_eq_true, Option.any_eq_true]
    rintro ⟨r, hr, ended⟩
    obtain ⟨T, hT, late⟩ := Option.any_eq_true _ _ |>.1 ended
    exact absurd (of_decide_eq_true late) (Nat.not_le_of_lt (h l T (.inl (by rw [hr]; exact hT))))
  unfold Screen.endNoticeAt
  dsimp only
  simp only [pending, entry, Bool.false_eq_true, if_false, Bool.false_and]

/-- Where no notice has reached its end, step 1 changes nothing. -/
theorem Screen.endNotices_stands {x : Screen} {now : Time} (ready : Bool) (h : x.noneEnded now) :
    x.endNotices now ready = x := by
  have each : ∀ ls : List Level, ls.foldl (Screen.endNoticeAt now ready) x = x := by
    intro ls
    induction ls with
    | nil => rfl
    | cons l ls ih => rw [List.foldl_cons, Screen.endNoticeAt_stands ready l h, ih]
  exact each allLevels

theorem Screen.carryOutBlank_stands {x : Screen} {ready : Bool} (h : x.blankPending = false ∨ ready = false) :
    x.carryOutBlank ready = x := by
  unfold Screen.carryOutBlank
  rw [if_neg (by rcases h with h | h <;> simp [h])]

/-- Steps 1 and 2 change nothing where no notice has reached its end and no desk BLANK can be carried out. -/
theorem Panel.opened_stands {s : State} {i : Screen16} {p : Panel} (none : p.screen.noneEnded s.clock)
    (blank : p.screen.blankPending = false ∨ p.ready s i = false) : p.opened s i = p := by
  unfold Panel.opened
  rw [Screen.endNotices_stands _ none, Screen.carryOutBlank_stands blank]
  rfl

/-! ### Step 3 -/

/-- A level whose request is not eligible is passed. -/
theorem Panel.judge_idle {s : State} {i : Screen16} {p : Panel} {l : Level}
    (h : ∀ r, p.screen.pendingAt[l] = some r → p.screen.eligible s.clock r = false) : p.judge s i l = p := by
  unfold Panel.judge
  cases pending : p.screen.pendingAt[l] with
  | none => rfl
  | some r =>
    dsimp only
    rw [if_neg (by simp [h r pending])]

theorem Screen.eligible_iff {x : Screen} {now : Time} {r : Request} :
    x.eligible now r = true ↔ r.release ≤ now ∧ x.masked r.level = false := by
  unfold Screen.eligible
  simp

theorem Panel.judgeEach_idle {s : State} {i : Screen16} {p : Panel} (ls : List Level)
    (h : ∀ l ∈ ls, ∀ r, p.screen.pendingAt[l] = some r → p.screen.eligible s.clock r = false) :
    ls.foldl (Panel.judge s i) p = p := by
  induction ls with
  | nil => rfl
  | cons l ls ih =>
    rw [List.foldl_cons, Panel.judge_idle (h l List.mem_cons_self), ih fun m hm => h m (List.mem_cons_of_mem l hm)]

/-- Where no request is released nothing is judged (R117). -/
theorem Panel.judgeEach_released {s : State} {i : Screen16} {p : Panel} (ls : List Level)
    (h : p.screen.nothingReleased s.clock) : ls.foldl (Panel.judge s i) p = p :=
  Panel.judgeEach_idle ls fun l _ r pending => by
    rw [← Bool.not_eq_true, Screen.eligible_iff]
    rintro ⟨released, unmasked⟩
    rcases h l r pending with late | masked
    · exact absurd released (Nat.not_le_of_lt late)
    · rw [unmasked] at masked
      cases masked

/-! ### What the operations leave of the requests and the settings -/

theorem Screen.applyStaged_stack (x : Screen) : x.applyStaged.stack = x.stack := by rw [Screen.applyStaged_frame]
theorem Screen.applyStaged_pendingAt (x : Screen) : x.applyStaged.pendingAt = x.pendingAt := by
  rw [Screen.applyStaged_frame]
theorem Screen.applyStaged_mask (x : Screen) : x.applyStaged.mask = x.mask := by rw [Screen.applyStaged_frame]

/-- The fields that a message sent does not change. -/
theorem Screen.sentMessage_frame (x : Screen) (m : Message) : x.sentMessage m = { x with
    layout := (x.sentMessage m).layout, staged := (x.sentMessage m).staged
    onScreen := m.record, lastSpeaker := (x.sentMessage m).lastSpeaker, counters := (x.sentMessage m).counters } := by
  have record := Screen.sentMessage_onScreen x m
  unfold Screen.sentMessage at record ⊢
  dsimp only at record ⊢
  rw [← record]
  split
  · unfold Screen.count
    dsimp only
    rw [Screen.applyStaged_frame]
  · rw [Screen.applyStaged_frame]

/-- A SHOW is counted once (R136). -/
theorem Screen.sentMessage_counted {x : Screen} {m : Message} (shows : m.isShow = true) :
    x.counted (x.sentMessage m) .shown 1 := by
  have step : x.counted (x.applyStaged.count .shown) .shown (0 + 1) :=
    Screen.counted_trans (by rw [Screen.applyStaged_frame])
      (Screen.counted_refl .shown (by rw [Screen.applyStaged_frame])) (Screen.counted_count_self .shown x.applyStaged)
  intro j sel low
  have := step j sel low
  unfold Screen.sentMessage
  rw [shows]
  exact this

/-- A SHOW raises no other counter. -/
theorem Screen.sentMessage_uncounted {x : Screen} {m : Message} {ev : CountEvent} (other : ev ≠ .shown) :
    x.counted (x.sentMessage m) ev 0 := by
  have staged : x.counted x.applyStaged ev 0 := Screen.counted_refl ev (by rw [Screen.applyStaged_frame])
  have step : x.counted (x.applyStaged.count .shown) ev (0 + 0) :=
    Screen.counted_trans (by rw [Screen.applyStaged_frame]) staged (Screen.counted_count_other (Ne.symm other) x.applyStaged)
  intro j sel low
  unfold Screen.sentMessage
  split
  · exact step j sel low
  · exact staged j sel low

section
variable {s : State} {i : Screen16} {l : Level} {e : Entry} {override : TransOverride} {p : Panel}

/-- The SHOW of an entry from a panel. -/
def Panel.showOf (l : Level) (e : Entry) (override : TransOverride) (p : Panel) : Message :=
  showMessage p.screen.applyStaged l e override

/-- The minimum dwell that a SHOW of an entry from a panel gives it. -/
def Panel.dwellOf (s : State) (i : Screen16) (l : Level) (e : Entry) (override : TransOverride) (p : Panel) : Nat :=
  s.entryDwell i p.screen.applyStaged.layout e (p.showOf l e override).drawPrefix

theorem Panel.shown_message : (p.shown s i l e override).message = some (p.showOf l e override) := rfl

theorem Panel.shown_serial : (p.shown s i l e override).serial = p.serial := rfl

/-- The fields that a SHOW from a panel does not change, and the entry shown. -/
theorem Panel.shown_screen : (p.shown s i l e override).screen = { p.screen with
    stack := p.screen.stack.set l (some (e.onAir (p.dwellOf s i l e override) s.clock))
    onScreen := .entry l e.serial
    layout := (p.shown s i l e override).screen.layout, staged := (p.shown s i l e override).screen.staged
    lastSpeaker := (p.shown s i l e override).screen.lastSpeaker
    counters := (p.shown s i l e override).screen.counters } := by
  obtain ⟨⟨layout, staged⟩, message, serial⟩ := p
  cases staged <;> rfl

theorem Panel.shown_counted : p.screen.counted (p.shown s i l e override).screen .shown 1 := by
  have staged : p.screen.counted p.screen.applyStaged .shown 0 :=
    Screen.counted_refl _ (by rw [Screen.applyStaged_frame])
  have step := Screen.sentMessage_counted (x := p.screen.applyStaged.setEntry l
    (some (e.onAir (p.dwellOf s i l e override) s.clock))) (m := p.showOf l e override) rfl
  have := Screen.counted_trans (by rw [Screen.applyStaged_frame]) staged step
  exact this

theorem Panel.shown_uncounted {ev : CountEvent} (other : ev ≠ .shown) :
    p.screen.counted (p.shown s i l e override).screen ev 0 := by
  have staged : p.screen.counted p.screen.applyStaged ev 0 :=
    Screen.counted_refl _ (by rw [Screen.applyStaged_frame])
  have step := Screen.sentMessage_uncounted (x := p.screen.applyStaged.setEntry l
    (some (e.onAir (p.dwellOf s i l e override) s.clock))) (m := p.showOf l e override) other
  have := Screen.counted_trans (by rw [Screen.applyStaged_frame]) staged step
  exact this

theorem Panel.cleared_message : (p.cleared override).message = some (clearMessage override) := rfl

/-- The fields that a CLEAR from a panel does not change. -/
theorem Panel.cleared_screen : (p.cleared override).screen = { p.screen with
    onScreen := .blank
    layout := (p.cleared override).screen.layout, staged := (p.cleared override).screen.staged
    lastSpeaker := (p.cleared override).screen.lastSpeaker, counters := (p.cleared override).screen.counters } := by
  obtain ⟨⟨layout, staged⟩, message, serial⟩ := p
  cases staged <;> rfl

end

/-! ### Step 4 -/

section
variable {s : State} {i : Screen16} {p : Panel} (override : TransOverride)

theorem Panel.ready_of_sent {m : Message} (sent : p.message = some m) : p.ready s i = false := by
  unfold Panel.ready
  rw [sent]
  simp

theorem Panel.ready_of_unsent (unsent : p.message = none) : p.ready s i = s.linkReady i := by
  unfold Panel.ready
  rw [unsent]
  simp

/-- Nothing is sent twice. -/
theorem Panel.refreshed_of_unready (h : p.ready s i = false) : p.refreshed s i override = p := by
  unfold Panel.refreshed
  rw [h]
  rfl

/-- Nothing leaves where the visible top agrees with the on-screen record (R119). -/
theorem Panel.refreshed_stands (h : p.ready s i = false ∨ p.screen.onScreen = .unknown ∨ p.screen.agrees) :
    p.refreshed s i override = p := by
  unfold Panel.refreshed
  rcases h with h | h | h
  · rw [h]
    rfl
  · rw [h]
    simp
  · rcases h with ⟨top, record⟩ | ⟨l, e, top, record⟩ <;> simp [top, record]

theorem Panel.refreshed_show {l : Level} {e : Entry} (ready : p.ready s i = true) (known : p.screen.onScreen ≠ .unknown)
    (top : p.screen.visibleTop = some (l, e)) (differs : p.screen.onScreen ≠ .entry l e.serial) :
    p.refreshed s i override = p.shown s i l e e.override := by
  unfold Panel.refreshed
  rw [ready, top]
  simp [known, differs]

theorem Panel.refreshed_clear (ready : p.ready s i = true) (known : p.screen.onScreen ≠ .unknown)
    (top : p.screen.visibleTop = none) (differs : p.screen.onScreen ≠ .blank) :
    p.refreshed s i override = p.cleared override := by
  unfold Panel.refreshed
  rw [ready, top]
  simp [known, differs]

end

/-- Only the three timers differ. -/
def Screen.retimed (x y : Screen) : Prop :=
  y = { x with releaseTimer := y.releaseTimer, dwellTimer := y.dwellTimer, noticeTimer := y.noticeTimer }

theorem Screen.retime_retimed (x : Screen) (now : Time) : x.retimed (x.retime now) := rfl

end Sys2Proof.Machine
end

section
/-! How an evaluation ends: nothing leaves, a SHOW leaves, or a CLEAR leaves (R119, R123, R134). -/

namespace Sys2Proof.Machine

section
variable {s b : State} {i : Screen16} (alike : State.Alike i s b) (plain : s.isMonitor i = false) {p : Panel}
  (face : (s.screen i).sameFace p.screen)
include alike plain face

omit plain in
theorem State.face_preferred : p.screen.preferred = (b.screen i).preferred :=
  face.2.2.2.1.trans alike.line.2.2.symm

/-- A SHOW from a panel has left, with its copy, whatever else has then changed of the timers and below the entry. -/
theorem State.shown_showed (l : Level) (e : Entry) (override : TransOverride) {x : Screen}
    (record : x.onScreen = .entry l e.serial) (preferred : x.preferred = p.screen.preferred)
    (entry : x.stack[l] = some (e.onAir (p.dwellOf b i l e override) b.clock)) :
    s.Showed (b.realized i ((p.shown b i l e override).put x)) i l e override (p.showOf l e override) := by
  have here : b.isMonitor i = false := (State.isMonitor_alike alike i).trans plain
  have clock : (b.realized i ((p.shown b i l e override).put x)).clock = b.clock := State.realized_clock _
  refine ⟨State.Sent.of_alike alike (State.realized_sent here rfl record ?_), State.showMessage_showWith face l e override,
    p.dwellOf b i l e override, ?_, ?_⟩
  · exact preferred.trans (State.face_preferred alike face)
  · unfold Panel.dwellOf
    rw [State.entryDwell_alike alike]
    exact State.entryDwell_dwellIs face l e override
  · rw [State.realized_screen here, clock]
    exact entry

/-- The frames of a panel that has sent a message. -/
theorem State.panel_framesLeft {m : Message} {q : Panel} (sends : q.message = some m)
    (preferred : q.screen.preferred = p.screen.preferred) : s.framesLeft (b.realized i q) i m b.sent := by
  have here : b.isMonitor i = false := (State.isMonitor_alike alike i).trans plain
  exact State.framesLeft_alike alike (State.realized_framesLeft here sends
    (preferred.trans (State.face_preferred alike face)))

/-- A CLEAR from a panel has left, with its copy. -/
theorem State.cleared_cleared (override : TransOverride) {x : Screen} (record : x.onScreen = .blank)
    (preferred : x.preferred = p.screen.preferred) :
    s.Cleared (b.realized i ((p.cleared override).put x)) i override (clearMessage override) := by
  have here : b.isMonitor i = false := (State.isMonitor_alike alike i).trans plain
  refine ⟨State.Sent.of_alike alike (State.realized_sent here rfl record ?_), rfl, rfl, rfl⟩
  exact preferred.trans (State.face_preferred alike face)

end

/-! ### The end of an evaluation -/

/-- The shown entry is as the SHOW left it, and no level, request or setting else of screen `x` has changed. -/
structure Screen.ShownOver (x y : Screen) (l : Level) (e : Entry) (dwell : Nat) (now : Time) : Prop where
  entry : y.stack[l] = some (e.onAir dwell now)
  others : ∀ k : Level, k ≠ l → y.stack[k] = x.stack[k]
  pending : y.pendingAt = x.pendingAt
  flags : y.blankPending = x.blankPending ∧ y.clearOwed = x.clearOwed
  mask : y.mask = x.mask
  shown : x.counted y .shown 1
  uncounted : ∀ ev, ev ≠ .shown → x.counted y ev 0

theorem Screen.ShownOver.stack_eq {x y : Screen} {l : Level} {e : Entry} {dwell now : Nat}
    (h : x.ShownOver y l e dwell now) : y.stack = x.stack.set l (some (e.onAir dwell now)) := by
  refine Vector.ext fun k hk => ?_
  by_cases same : l.val = k
  · subst same
    rw [Vector.getElem_set_self]
    exact h.entry
  · rw [Vector.getElem_set_ne _ _ same]
    exact h.others ⟨k, hk⟩ fun e => same (congrArg Fin.val e).symm

theorem Panel.shown_over {s : State} {i : Screen16} {l : Level} {e : Entry} {override : TransOverride} {p : Panel} {y : Screen}
    (timers : (p.shown s i l e override).screen.retimed y) :
    p.screen.ShownOver y l e (p.dwellOf s i l e override) s.clock := by
  have stack : y.stack = p.screen.stack.set l (some (e.onAir (p.dwellOf s i l e override) s.clock)) := by
    rw [timers, Panel.shown_screen]
  refine ⟨?_, ?_, ?_, ?_, ?_, ?_, ?_⟩
  · rw [stack]
    exact Vector.getElem_set_self _
  · intro k hk
    rw [stack]
    exact Vector.getElem_set_ne _ _ fun same => hk (Fin.ext same).symm
  · rw [timers, Panel.shown_screen]
  · rw [timers, Panel.shown_screen]
    exact ⟨rfl, rfl⟩
  · rw [timers, Panel.shown_screen]
  · have := Panel.shown_counted (s := s) (i := i) (l := l) (e := e) (override := override) (p := p)
    rw [timers]
    exact this
  · intro ev other
    have := Panel.shown_uncounted (s := s) (i := i) (l := l) (e := e) (override := override) (p := p) other
    rw [timers]
    exact this

section
variable {s b : State} {i : Screen16} (alike : State.Alike i s b) (plain : s.isMonitor i = false) {p : Panel}
  (face : (s.screen i).sameFace p.screen)
include alike plain face

/-- The SHOW that step 4 sends. -/
theorem State.ended_show {override : TransOverride} {l : Level} {e : Entry} (ready : p.ready b i = true)
    (known : p.screen.onScreen ≠ .unknown) (top : p.screen.visibleTop = some (l, e))
    (differs : p.screen.onScreen ≠ .entry l e.serial) {x : Screen}
    (timers : (p.refreshed b i override).screen.retimed x) :
    s.Showed (b.realized i ((p.refreshed b i override).put x)) i l e e.override (p.showOf l e e.override) ∧
      ∃ d, p.screen.ShownOver x l e d b.clock := by
  rw [Panel.refreshed_show override ready known top differs] at timers ⊢
  have kept := Panel.shown_over timers
  refine ⟨State.shown_showed alike plain face l e e.override ?_ ?_ kept.entry, _, kept⟩
  · rw [timers, Panel.shown_screen]
  · rw [timers, Panel.shown_screen]

/-- The CLEAR that step 4 sends. -/
theorem State.ended_clear {override : TransOverride} (ready : p.ready b i = true)
    (known : p.screen.onScreen ≠ .unknown) (top : p.screen.visibleTop = none) (differs : p.screen.onScreen ≠ .blank)
    {x : Screen} (timers : (p.refreshed b i override).screen.retimed x) :
    s.Cleared (b.realized i ((p.refreshed b i override).put x)) i override (clearMessage override) ∧
      x.stack = p.screen.stack ∧ x.pendingAt = p.screen.pendingAt ∧ x.blankPending = p.screen.blankPending ∧
      x.clearOwed = p.screen.clearOwed := by
  rw [Panel.refreshed_clear override ready known top differs] at timers ⊢
  refine ⟨State.cleared_cleared alike plain face override ?_ ?_, ?_⟩
  · rw [timers, Panel.cleared_screen]
  · rw [timers, Panel.cleared_screen]
  · rw [timers, Panel.cleared_screen]
    exact ⟨rfl, rfl, rfl, rfl⟩

end

end Sys2Proof.Machine
end

section
/-! What an evaluation leaves alone elsewhere, what a walk over all screens does to one of them, and an evaluation with nothing
to judge (R119). -/

namespace Sys2Proof.Machine

/-! ### The other screens -/

theorem State.Untouched.isMonitor {i : Screen16} {s u : State} (h : State.Untouched i s u) (j : Screen16) :
    u.isMonitor j = s.isMonitor j := by
  unfold State.isMonitor
  rw [h.mirror]

section
variable {s : State} {i j : Screen16} (apart : j ≠ i) (notCopy : s.arb.mirror ≠ some (j, i))
include apart

/-- A screen written elsewhere leaves screen `i` alone, and its monitor when its record and preference stand. -/
theorem State.setScreen_untouched {x : Screen}
    (monitor : s.arb.mirror = some (i, j) → x.onScreen = (s.screen j).onScreen ∧ x.preferred = (s.screen j).preferred)
    (n : Nat) : State.Untouched i s ((s.setScreen j x).setSerial n) where
  clock := rfl
  mirror := rfl
  dwellBase := rfl
  dwellPerChar := rfl
  script := rfl
  tolerance := rfl
  screen := State.setScreen_screen_ne _ _ apart
  link := rfl
  frames := rfl
  copy mon pair := by
    by_cases same : j = mon
    · subst same
      obtain ⟨record, preferred⟩ := monitor pair
      have screen : ((s.setScreen j x).setSerial n).screen j = x := State.setScreen_screen_self _ _ _
      rw [screen]
      exact ⟨rfl, rfl, record, preferred, rfl⟩
    · have screen : ((s.setScreen j x).setSerial n).screen mon = s.screen mon := State.setScreen_screen_ne _ _ same
      rw [screen]
      exact ⟨rfl, rfl, rfl, rfl, rfl⟩

theorem State.setScreen_untouched_plain {x : Screen}
    (monitor : s.arb.mirror = some (i, j) → x.onScreen = (s.screen j).onScreen ∧ x.preferred = (s.screen j).preferred) :
    State.Untouched i s (s.setScreen j x) := State.setScreen_untouched apart monitor s.arb.entrySerial

include notCopy

/-- A message on another screen, no monitor, leaves screen `i` alone unless that is its copy's. -/
theorem State.left_untouched (source : s.isMonitor j = false) (m : Message) : State.Untouched i s (s.left j m) := by
  obtain ⟨screen, link⟩ := State.left_other (s := s) (m := m) (Ne.symm apart) notCopy
  have frame := State.left_frame j m s
  have frames : (s.left j m).framesOn i = s.framesOn i := by
    rw [State.left_framesOn source, State.framesOf_other m (Ne.symm apart) notCopy, List.append_nil]
  have copy : ∀ mon, s.arb.mirror = some (i, mon) → (s.left j m).link mon = s.link mon ∧
      (s.left j m).framesOn mon = s.framesOn mon ∧ (s.left j m).screen mon = s.screen mon ∧
      (s.left j m).arb.hold = s.arb.hold := by
    intro mon pair
    have ne : mon ≠ j := fun e => by subst e; simp [State.isMonitor, pair] at source
    have other : s.arb.mirror ≠ some (j, mon) := by
      rw [pair]
      exact fun e => apart (congrArg Prod.fst (Option.some.inj e)).symm
    obtain ⟨screen, link⟩ := State.left_other (s := s) (m := m) ne other
    refine ⟨link, ?_, screen, ?_⟩
    · rw [State.left_framesOn source, State.framesOf_other m ne other, List.append_nil]
    · have here : s.left j m = s.linkSend j m := by
        unfold State.left
        rw [pair]
        exact if_neg (Ne.symm apart)
      rw [here]
      rfl
  generalize s.left j m = u at *
  refine ⟨?_, ?_, ?_, ?_, ?_, ?_, screen, link, frames, fun mon pair => ?_⟩
  · rw [frame]
  · rw [frame]
  · rw [frame]
  · rw [frame]
  · rw [frame]
  · rw [frame]
  · obtain ⟨a, b, c, d⟩ := copy mon pair
    exact ⟨a, b, by rw [c], by rw [c], d⟩

theorem State.realized_untouched (source : s.isMonitor j = false) (p : Panel) :
    State.Untouched i s (s.realized j p) := by
  have put : State.Untouched i s ((s.setScreen j p.screen).setSerial p.serial) :=
    State.setScreen_untouched apart (fun pair => absurd source (by simp [State.isMonitor, pair])) _
  unfold State.realized
  split
  · exact put
  · refine put.trans (State.left_untouched apart ?_ ?_ _)
    · rw [put.mirror]
      exact notCopy
    · exact (put.isMonitor j).trans source

/-- The evaluation of another screen leaves screen `i` alone unless that is its monitor. -/
theorem State.evaluate_untouched : State.Untouched i s (s.evaluate j) := by
  by_cases source : s.isMonitor j = false
  · rw [State.evaluate_eq source]
    exact State.realized_untouched apart notCopy source _
  · unfold State.evaluate
    rw [if_pos (by simpa using source)]
    exact State.Untouched.refl i s

end

/-- What the journal holds is nothing to a screen. -/
theorem State.journalAt_untouched (i : Screen16) (t : Time) (b : Journal) (s : State) :
    State.Untouched i s (s.journalAt t b) := by
  have h := State.journalAt_onlyBus t b s.onlyBus_refl
  generalize s.journalAt t b = u at *
  rw [h]
  exact ⟨rfl, rfl, rfl, rfl, rfl, rfl, rfl, rfl, rfl, fun _ _ => ⟨rfl, rfl, rfl, rfl, rfl⟩⟩

theorem State.evaluate_mirror (i : Screen16) (s : State) : (s.evaluate i).arb.mirror = s.arb.mirror := by
  by_cases plain : s.isMonitor i = false
  · rw [State.evaluate_eq plain]
    exact State.realized_mirror _
  · unfold State.evaluate
    rw [if_pos (by simpa using plain)]

/-! ### A walk over the screens -/

/-- A screen that is no monitor is not that of any pair. -/
theorem State.plain_mirror {s : State} {i : Screen16} (plain : s.isMonitor i = false) (j : Screen16) :
    s.arb.mirror ≠ some (j, i) := fun pair => by simp [State.isMonitor, pair] at plain

section
variable {σ : Type} (st : σ → State) {f : σ → Screen16 → σ} {i : Screen16} {pair : Option (Screen16 × Screen16)}
  (elsewhere : ∀ z j, j ≠ i → (st z).arb.mirror = pair → State.Untouched i (st z) (st (f z j)))
include elsewhere

theorem foldl_untouched : ∀ (l : List Screen16) (z : σ), i ∉ l → (st z).arb.mirror = pair →
    State.Untouched i (st z) (st (l.foldl f z))
  | [], z, _, _ => State.Untouched.refl i _
  | j :: l, z, new, mirror => by
    have apart : j ≠ i := fun e => new (by rw [e]; exact List.mem_cons_self)
    have step := elsewhere z j apart mirror
    rw [List.foldl_cons]
    exact step.trans (foldl_untouched l _ (fun h => new (List.mem_cons_of_mem j h)) (step.mirror.trans mirror))

/-- A walk over the screens comes to screen `i` with all of it as it was, and leaves it as that step has left it. -/
theorem foldl_around (own : ∀ z, (st z).arb.mirror = pair → (st (f z i)).arb.mirror = pair) (z : σ)
    (mirror : (st z).arb.mirror = pair) : ∃ before after, allScreens = before ++ i :: after ∧
      State.Untouched i (st z) (st (before.foldl f z)) ∧
      State.Untouched i (st (f (before.foldl f z) i)) (st (allScreens.foldl f z)) := by
  obtain ⟨before, after, walk⟩ := List.append_of_mem (mem_allScreens i)
  have nodup : (before ++ i :: after).Nodup := by rw [← walk]; decide
  obtain ⟨-, tail, apart⟩ := List.nodup_append.1 nodup
  have first := foldl_untouched st elsewhere before z (fun h => apart i h i List.mem_cons_self rfl) mirror
  refine ⟨before, after, walk, first, ?_⟩
  rw [walk, List.foldl_append, List.foldl_cons]
  exact foldl_untouched st elsewhere after _ (List.nodup_cons.1 tail).1 (own _ (first.mirror.trans mirror))

end

/-! ### An evaluation with nothing to judge -/

/-- With no notice ended, no desk BLANK to carry out and no request released, step 4 alone is left (R119). -/
theorem Panel.judged_quiet {s : State} {i : Screen16} {p : Panel} (ends : p.screen.noneEnded s.clock)
    (blank : p.screen.blankPending = false ∨ p.ready s i = false) (released : p.screen.nothingReleased s.clock) :
    p.judged s i = p := by
  unfold Panel.judged
  rw [Panel.opened_stands ends blank, Panel.judgeEach_released _ released]

theorem State.panel_ready {s : State} {i : Screen16} : (s.panel i).ready s i = true ↔ (s.link i).state = .ready := by
  rw [Panel.ready_of_unsent rfl]
  unfold State.linkReady
  simp

/-- An evaluation realizes what step 4 and the timers make of the panel that step 3 leaves. -/
theorem State.evaluate_judged {s : State} {i : Screen16} {p : Panel} (plain : s.isMonitor i = false)
    (judged : (s.panel i).judged s i = p) : s.evaluate i =
      s.realized i ((p.refreshed s i .default).put ((p.refreshed s i .default).screen.retime s.clock)) := by
  rw [State.evaluate_eq plain]
  unfold Panel.evaluated
  rw [judged]
  rfl

/-- Where nothing leaves in step 4 either, the screen alone changes. -/
theorem State.evaluate_stands {s : State} {i : Screen16} {p : Panel} (plain : s.isMonitor i = false)
    (judged : (s.panel i).judged s i = p) (unsent : p.message = none)
    (stands : p.ready s i = false ∨ p.screen.onScreen = .unknown ∨ p.screen.agrees) :
    s.evaluate i = (s.setScreen i (p.screen.retime s.clock)).setSerial p.serial := by
  rw [State.evaluate_judged plain judged, Panel.refreshed_stands _ stands, State.realized_silent]
  · rfl
  · exact unsent

section
variable {s b : State} {i : Screen16} (alike : State.Alike i s b) (plain : s.isMonitor i = false) {p : Panel}
  (judged : (b.panel i).judged b i = p) (face : (s.screen i).sameFace p.screen) (ready : p.ready b i = true)
  (known : p.screen.onScreen ≠ .unknown)
include alike plain judged face ready known

/-- Step 4 sends the visible top that the on-screen record does not name. -/
theorem State.evaluate_shows {l : Level} {e : Entry} (top : p.screen.visibleTop = some (l, e))
    (differs : p.screen.onScreen ≠ .entry l e.serial) :
    s.Showed (b.evaluate i) i l e e.override (p.showOf l e e.override) ∧
      s.framesLeft (b.evaluate i) i (p.showOf l e e.override) b.sent ∧
      ∃ d, p.screen.ShownOver ((b.evaluate i).screen i) l e d b.clock := by
  have here : b.isMonitor i = false := (State.isMonitor_alike alike i).trans plain
  rw [State.evaluate_judged here judged]
  obtain ⟨showed, d, kept⟩ := State.ended_show (override := .default) alike plain face ready known top differs
    (Screen.retime_retimed _ b.clock)
  refine ⟨showed, State.panel_framesLeft alike plain face ?_ ?_, d, ?_⟩
  · rw [Panel.refreshed_show _ ready known top differs]
    rfl
  · rw [Panel.refreshed_show _ ready known top differs]
    show (Panel.shown b i l e e.override p).screen.preferred = _
    rw [Panel.shown_screen]
  · rw [State.realized_screen here]
    exact kept

/-- Step 4 sends CLEAR where nothing is visible. -/
theorem State.evaluate_clears (top : p.screen.visibleTop = none) (differs : p.screen.onScreen ≠ .blank) :
    s.Cleared (b.evaluate i) i .default (clearMessage .default) ∧
      s.framesLeft (b.evaluate i) i (clearMessage .default) b.sent ∧
      ((b.evaluate i).screen i).stack = p.screen.stack ∧ ((b.evaluate i).screen i).pendingAt = p.screen.pendingAt ∧
      ((b.evaluate i).screen i).blankPending = p.screen.blankPending ∧
      ((b.evaluate i).screen i).clearOwed = p.screen.clearOwed := by
  have here : b.isMonitor i = false := (State.isMonitor_alike alike i).trans plain
  rw [State.evaluate_judged here judged]
  obtain ⟨cleared, kept⟩ := State.ended_clear (override := .default) alike plain face ready known top differs
    (Screen.retime_retimed _ b.clock)
  refine ⟨cleared, State.panel_framesLeft alike plain face ?_ ?_, ?_⟩
  · rw [Panel.refreshed_clear _ ready known top differs]
    rfl
  · rw [Panel.refreshed_clear _ ready known top differs]
    show (Panel.cleared .default p).screen.preferred = _
    rw [Panel.cleared_screen]
  · rw [State.realized_screen here]
    exact kept

end

/-- The only message on a screen, seen after what has happened elsewhere. -/
theorem State.Sent.onlySent_later {s b v u : State} {i : Screen16} {m : Message} (sent : s.Sent u i m)
    (plain : s.isMonitor i = false) (left : s.framesLeft v i m b.sent) (rest : State.Untouched i v u)
    (mirror : v.arb.mirror = s.arb.mirror) (frames : b.framesOn i = [])
    (copy : ∀ mon, s.arb.mirror = some (i, mon) → b.framesOn mon = []) : s.onlySent u i m := by
  refine ⟨sent.copied, ?_, fun mon pair => ?_⟩
  · rw [rest.frames, State.framesLeft_framesOn left, State.framesOf_self plain]
    show b.framesOn i ++ _ = _
    rw [frames]
    rfl
  · obtain ⟨-, framesMon, -⟩ := rest.copy mon (mirror.trans pair)
    rw [framesMon, State.framesLeft_framesOn left, State.framesOf_monitor plain m pair]
    show b.framesOn mon ++ _ = _
    rw [copy mon pair]
    rfl

section
variable {s b u : State} {i : Screen16} (alike : State.Alike i s b) (plain : s.isMonitor i = false)
  (face : (s.screen i).sameFace (b.screen i)) (link : b.link i = s.link i) (frames : b.framesOn i = [])
  (copy : ∀ mon, s.arb.mirror = some (i, mon) → b.framesOn mon = [] ∧ b.arb.hold = s.arb.hold)
  (rest : State.Untouched i (b.evaluate i) u)
include alike plain face link frames copy rest

/-- The evaluation of a screen with nothing to judge, whatever happens elsewhere after it. -/
theorem State.evaluate_quietly : s.evaluatedQuietly u i (b.screen i) := by
  intro blank released ends
  have here : b.isMonitor i = false := (State.isMonitor_alike alike i).trans plain
  have clock : u.clock = b.clock := by
    rw [rest.clock, State.evaluate_eq here]
    exact State.realized_clock _
  have mirror : (b.evaluate i).arb.mirror = s.arb.mirror := (State.evaluate_mirror i b).trans alike.mirror
  have unready : ∀ x : Prop, (s.link i).state ≠ .ready ∨ x → (b.panel i).ready b i = false ∨ x := by
    rintro x (h | h)
    · rw [← link] at h
      exact .inl (by rw [← Bool.not_eq_true, State.panel_ready]; exact h)
    · exact .inr h
  have judged : (b.panel i).judged b i = b.panel i := by
    rw [clock] at ends released
    exact Panel.judged_quiet ends ((unready _ blank.symm).symm) released
  have sends : (s.link i).state = .ready → (b.panel i).ready b i = true := by
    intro ready
    rw [State.panel_ready, link]
    exact ready
  have shows : ∀ l e, (s.link i).state = .ready → (b.screen i).onScreen ≠ .unknown →
      (b.screen i).visibleTop = some (l, e) → (b.screen i).onScreen ≠ .entry l e.serial →
      ∃ m, s.Showed u i l e e.override m ∧ s.framesLeft (b.evaluate i) i m b.sent ∧
        ∃ d, (b.screen i).ShownOver (u.screen i) l e d b.clock := by
    intro l e ready known top differs
    obtain ⟨showed, left, kept⟩ := State.evaluate_shows alike plain judged face (sends ready) known top differs
    exact ⟨_, showed.later rest mirror, left, by rw [rest.screen]; exact kept⟩
  have clears : (s.link i).state = .ready → (b.screen i).onScreen ≠ .unknown → (b.screen i).visibleTop = none →
      (b.screen i).onScreen ≠ .blank → ∃ m, s.Cleared u i .default m ∧ s.framesLeft (b.evaluate i) i m b.sent ∧
        (u.screen i).stack = (b.screen i).stack ∧ (u.screen i).pendingAt = (b.screen i).pendingAt := by
    intro ready known top differs
    obtain ⟨cleared, left, stack, pending, -⟩ := State.evaluate_clears alike plain judged face (sends ready) known top
      differs
    rw [← rest.screen] at stack pending
    exact ⟨_, cleared.later rest mirror, left, stack, pending⟩
  refine ⟨?_, fun stands => ?_, fun ready known => ⟨fun l e top differs => ?_, fun top differs => ?_⟩⟩
  · by_cases stands : (s.link i).state ≠ .ready ∨ (b.screen i).onScreen = .unknown ∨ (b.screen i).agrees
    · rw [rest.screen, State.evaluate_stands here judged rfl (unready _ stands)]
      show ((b.setScreen i ((b.screen i).retime b.clock)).screen i).pendingAt = _
      rw [State.setScreen_screen_self]
      rfl
    · rw [not_or, not_or, not_ne_iff] at stands
      obtain ⟨ready, known, differs⟩ := stands
      cases top : (b.screen i).visibleTop with
      | none =>
        obtain ⟨m, -, -, -, pending⟩ := clears ready known top fun blank => differs (.inl ⟨top, blank⟩)
        exact pending
      | some q =>
        obtain ⟨l, e⟩ := q
        obtain ⟨m, -, -, d, kept⟩ := shows l e ready known top fun same => differs (.inr ⟨l, e, top, same⟩)
        exact kept.pending
  · have evaluated := State.evaluate_stands here judged rfl (unready _ stands)
    have screen : u.screen i = (b.screen i).retime b.clock := by
      rw [rest.screen, evaluated]
      exact State.setScreen_screen_self _ _ _
    refine ⟨?_, ?_, ?_, fun mon pair => ?_⟩
    · rw [screen]
      rfl
    · rw [rest.link, evaluated, ← link]
      rfl
    · rw [rest.frames, evaluated]
      exact frames
    · obtain ⟨linkMon, framesMon, -, -, hold⟩ := rest.copy mon (mirror.trans pair)
      obtain ⟨none, held⟩ := copy mon pair
      rw [linkMon, framesMon, hold, evaluated]
      exact ⟨(alike.copy mon pair).2, none, held⟩
  · obtain ⟨m, showed, left, d, kept⟩ := shows l e ready known top differs
    obtain ⟨d', sent, show'⟩ := showed.showSent
    exact ⟨_, m, sent, rfl, kept.others, kept.shown, show',
      showed.sent.onlySent_later plain left rest mirror frames fun mon pair => (copy mon pair).1⟩
  · obtain ⟨m, cleared, left, stack, -⟩ := clears ready known top differs
    exact ⟨cleared.clearSent, stack, m, cleared.clears,
      cleared.sent.onlySent_later plain left rest mirror frames fun mon pair => (copy mon pair).1⟩

end

end Sys2Proof.Machine
end

section
/-! Facts about screens that no evaluation changes, and the directive CLEAR (R119, R130, R136). -/

namespace Sys2Proof.Machine

/-! ### What every evaluation keeps of a screen -/

/-- A property of a screen that each update an evaluation makes of it keeps. -/
structure Screen.Kept (Q : Screen → Prop) : Prop where
  stack : ∀ x l e, Q x → Q (Screen.setEntry x l e)
  pending : ∀ x l r, Q x → Q (Screen.setPending x l r)
  count : ∀ x ev, ev ≠ .skipped → ev ≠ .refused → ev ≠ .faults → Q x → Q (Screen.count ev x)
  sent : ∀ x m, Q x → Q (Screen.sentMessage x m)
  staged : ∀ x, Q x → Q (Screen.applyStaged x)
  pressed : ∀ x, Q x → Q { x with blankPending := false }
  retimed : ∀ x now, Q x → Q (Screen.retime now x)

namespace Screen.Kept

variable {Q : Screen → Prop} (k : Screen.Kept Q) {s : State} {i : Screen16}
include k

theorem endNotices (now : Time) (ready : Bool) {x : Screen} (h : Q x) : Q (x.endNotices now ready) := by
  refine foldl_keeps (P := Q) (fun x l hx => ?_) allLevels x h
  unfold Screen.endNoticeAt
  extract_lets y
  have hy : Q y := by
    unfold y
    split
    · exact k.pending _ _ _ hx
    · exact hx
  split
  · exact k.stack _ _ _ hy
  · exact hy

theorem carryOutBlank (ready : Bool) {x : Screen} (h : Q x) : Q (x.carryOutBlank ready) := by
  unfold Screen.carryOutBlank
  split
  · extract_lets y
    have hy : Q y := k.pressed x h
    split
    · split
      · exact hy
      · exact k.stack _ _ _ hy
    · exact hy
  · exact h

theorem shown {l : Level} {e : Entry} {o : TransOverride} {p : Panel} (h : Q p.screen) :
    Q (p.shown s i l e o).screen := k.sent _ _ (k.stack _ _ _ (k.staged _ h))

theorem cleared {o : TransOverride} {p : Panel} (h : Q p.screen) : Q (p.cleared o).screen :=
  k.sent _ _ (k.staged _ h)

theorem insertSilently {l : Level} {r : Request} {p : Panel} (h : Q p.screen) : Q (p.insertSilently l r).screen :=
  k.stack _ _ _ (k.pending _ _ _ h)

theorem grantShow {l : Level} {r : Request} {p : Panel} (h : Q p.screen) : Q (p.grantShow s i l r).screen := by
  refine k.shown ?_
  show Q (Panel.granted s l r p.screen)
  unfold Panel.granted
  split
  · exact k.count _ _ (by decide) (by decide) (by decide) (k.pending _ _ _ h)
  · exact k.pending _ _ _ h

theorem bury {m : Level} {e : Entry} {p : Panel} (h : Q p.screen) : Q (p.bury m e).screen :=
  k.count _ _ (by decide) (by decide) (by decide) (k.stack _ _ _ h)

theorem defer {l : Level} {r : Request} {p : Panel} (h : Q p.screen) : Q (p.defer s i l r).screen := by
  unfold Panel.defer
  split
  · exact k.count _ _ (by decide) (by decide) (by decide) (k.pending _ _ _ h)
  · exact h

theorem judgeShow {l : Level} {r : Request} {p : Panel} (h : Q p.screen) : Q (p.judgeShow s i l r).screen := by
  unfold Panel.judgeShow
  split
  · split
    · exact k.grantShow h
    · exact h
  · split
    · split
      · exact k.grantShow (k.bury h)
      · exact h
    · split
      · exact k.insertSilently h
      · split
        · exact k.insertSilently h
        · split
          · split
            · exact k.grantShow h
            · exact h
          · exact k.defer h

theorem refreshed {o : TransOverride} {p : Panel} (h : Q p.screen) : Q (p.refreshed s i o).screen := by
  unfold Panel.refreshed
  split
  · split
    · split
      · exact h
      · exact k.shown h
    · split
      · exact h
      · exact k.cleared h
  · exact h

theorem judgeBlank {l : Level} {r : Request} {p : Panel} (h : Q p.screen) : Q (p.judgeBlank s i l r).screen := by
  unfold Panel.judgeBlank
  split
  · exact k.pending _ _ _ h
  · split
    · split
      · split
        · exact k.refreshed (k.stack _ _ _ (k.pending _ _ _ h))
        · exact h
      · exact k.defer h
    · exact k.stack _ _ _ (k.pending _ _ _ h)

theorem judge {l : Level} {p : Panel} (h : Q p.screen) : Q (p.judge s i l).screen := by
  unfold Panel.judge
  split
  · exact h
  · split
    · split
      · exact k.judgeBlank h
      · exact k.judgeShow h
      · exact k.judgeShow h
    · exact h

theorem opened {p : Panel} (h : Q p.screen) : Q (p.opened s i).screen := by
  unfold Panel.opened Panel.put
  dsimp only
  exact k.carryOutBlank _ (k.endNotices _ _ h)

theorem judgedFrom {p : Panel} (opened : Q (p.opened s i).screen) : Q (p.judged s i).screen := by
  unfold Panel.judged
  generalize p.opened s i = q at opened
  exact foldl_keeps (P := fun p : Panel => Q p.screen) (fun _ _ hp => k.judge hp) allLevels _ opened

theorem evaluatedFrom {p : Panel} (opened : Q (p.opened s i).screen) : Q (p.evaluated s i).screen := by
  have judged : Q (p.judged s i).screen := k.judgedFrom opened
  unfold Panel.evaluated
  generalize p.judged s i = q at judged
  exact k.retimed _ _ (k.refreshed judged)

theorem evaluated {p : Panel} (h : Q p.screen) : Q (p.evaluated s i).screen := k.evaluatedFrom (k.opened h)

end Screen.Kept

/-- No evaluation counts an event that is none of its own (R136). -/
theorem Screen.kept_uncounted (x : Screen) {ev : CountEvent} (other : ev = .skipped ∨ ev = .refused ∨ ev = .faults) :
    Screen.Kept fun y => y.selectors = x.selectors ∧ x.counted y ev 0 where
  stack _ _ _ h := h
  pending _ _ _ h := h
  count y kind a b c h := by
    refine ⟨h.1, Screen.counted_trans (m := 0) h.1 h.2 (Screen.counted_count_other ?_ y)⟩
    rcases other with rfl | rfl | rfl
    · exact a
    · exact b
    · exact c
  sent y m h := by
    refine ⟨?_, Screen.counted_trans (m := 0) h.1 h.2 (Screen.sentMessage_uncounted ?_)⟩
    · rw [(Screen.sentMessage_settings y m).2.2.2.2, h.1]
    · rcases other with rfl | rfl | rfl <;> decide
  staged y h := by
    rw [Screen.applyStaged_frame]
    exact h
  pressed _ h := h
  retimed _ _ h := h

/-! ### The other screens of an evaluation -/

/-- A screen other than that of the panel is as it was, or has been sent a copy. -/
theorem State.realized_elsewhere {s : State} {i j : Screen16} {p : Panel} (plain : s.isMonitor i = false) (apart : j ≠ i) :
    (s.realized i p).screen j = s.screen j ∨ ∃ m, (s.realized i p).screen j = (s.screen j).sentMessage m := by
  have put : ((s.setScreen i p.screen).setSerial p.serial).screen j = s.screen j :=
    State.setScreen_screen_ne _ _ (Ne.symm apart)
  unfold State.realized
  split
  · exact .inl put
  · next m _ =>
    have here : ((s.setScreen i p.screen).setSerial p.serial).isMonitor i = false := plain
    by_cases pair : s.arb.mirror = some (i, j)
    · by_cases ready : (s.link j).state = .ready
      · obtain ⟨screen, -⟩ := State.left_copy (s := (s.setScreen i p.screen).setSerial p.serial) here pair ready (m := m)
        exact .inr ⟨m, by rw [screen, put]⟩
      · obtain ⟨screen, -⟩ := State.left_held (s := (s.setScreen i p.screen).setSerial p.serial) here pair ready (m := m)
        exact .inl (screen.trans put)
    · exact .inl ((State.left_other (s := (s.setScreen i p.screen).setSerial p.serial) apart pair).1.trans put)

/-- A screen that is not evaluated is as it was, or has been sent a copy. -/
theorem State.evaluate_elsewhere {s : State} {i j : Screen16} (apart : j ≠ i) :
    (s.evaluate i).screen j = s.screen j ∨ ∃ m, (s.evaluate i).screen j = (s.screen j).sentMessage m := by
  by_cases plain : s.isMonitor i = false
  · rw [State.evaluate_eq plain]
    exact State.realized_elsewhere plain apart
  · left
    unfold State.evaluate
    rw [if_pos (by simpa using plain)]

theorem State.evaluate_monitor {s : State} {i : Screen16} (monitor : s.isMonitor i = true) : s.evaluate i = s := by
  unfold State.evaluate
  rw [if_pos monitor]

/-- What is kept of a screen by the updates of an evaluation is kept of every screen. -/
theorem State.evaluate_keeps {Q : Screen → Prop} (k : Screen.Kept Q) {s : State} (i : Screen16) {j : Screen16}
    (h : Q (s.screen j)) : Q ((s.evaluate i).screen j) := by
  by_cases same : j = i
  · subst same
    by_cases plain : s.isMonitor j = false
    · rw [State.evaluate_eq plain, State.realized_screen plain]
      exact k.evaluated h
    · rw [State.evaluate_monitor (by simpa using plain)]
      exact h
  · rcases State.evaluate_elsewhere (s := s) same with stands | ⟨m, sent⟩
    · rw [stands]
      exact h
    · rw [sent]
      exact k.sent _ _ h

/-- The evaluation of a screen other than the source leaves the hold alone. -/
theorem State.evaluate_hold {s : State} {i : Screen16} (source : ∀ mon, s.arb.mirror ≠ some (i, mon)) :
    (s.evaluate i).arb.hold = s.arb.hold := by
  by_cases plain : s.isMonitor i = false
  · rw [State.evaluate_eq plain]
    unfold State.realized
    split
    · rfl
    · next m _ =>
      unfold State.left
      split
      · next src mon pair => rw [if_neg fun e => source mon (by rw [← e]; exact pair)]; rfl
      · rfl
  · rw [State.evaluate_monitor (by simpa using plain)]

/-- The stack and the requests of a screen that is not evaluated stand. -/
theorem State.evaluate_stack {s : State} {i j : Screen16} (apart : j ≠ i) :
    ((s.evaluate i).screen j).stack = (s.screen j).stack ∧
      ((s.evaluate i).screen j).pendingAt = (s.screen j).pendingAt := by
  rcases State.evaluate_elsewhere (s := s) apart with stands | ⟨m, sent⟩
  · rw [stands]
    exact ⟨rfl, rfl⟩
  · rw [sent, Screen.sentMessage_frame]
    exact ⟨rfl, rfl⟩

/-- No evaluation journals. -/
theorem State.evaluate_smi (s : State) (i : Screen16) : (s.evaluate i).smi = s.smi := by
  by_cases plain : s.isMonitor i = false
  · rw [State.evaluate_eq plain, State.realized_frame]
  · rw [State.evaluate_monitor (by simpa using plain)]

/-! ### CLEAR (R130) -/

/-- The levels of a list that a mask names are emptied, and nothing else changes. -/
theorem Screen.clearEach (m : BitVec 8) : ∀ (ls : List Level) (x : Screen), ls.foldl (fun x l =>
    if m.getLsbD l.val then (x.setPending l none).setEntry l none else x) x = { x with
      stack := Vector.ofFn fun l : Level => if l ∈ ls ∧ m.getLsbD l.val = true then none else x.stack[l]
      pendingAt := Vector.ofFn fun l : Level => if l ∈ ls ∧ m.getLsbD l.val = true then none else x.pendingAt[l] } := by
  intro ls
  induction ls with
  | nil =>
    intro x
    simp only [List.foldl_nil, List.not_mem_nil, false_and, if_false]
    have stack : (Vector.ofFn fun l : Level => x.stack[l]) = x.stack := Vector.ext fun k hk => by simp
    have pending : (Vector.ofFn fun l : Level => x.pendingAt[l]) = x.pendingAt := Vector.ext fun k hk => by simp
    rw [stack, pending]
  | cons l ls ih =>
    intro x
    rw [List.foldl_cons, ih]
    by_cases named : m.getLsbD l.val = true
    · rw [if_pos named]
      have emptied : ∀ {α : Type} (v : Vector (Option α) 8), (Vector.ofFn fun k : Level =>
          if k ∈ ls ∧ m.getLsbD k.val = true then none else (v.set l none)[k]) =
          Vector.ofFn fun k : Level => if k ∈ l :: ls ∧ m.getLsbD k.val = true then none else v[k] := by
        intro α v
        refine Vector.ext fun k hk => ?_
        rw [Vector.getElem_ofFn, Vector.getElem_ofFn]
        by_cases same : (⟨k, hk⟩ : Level) = l
        · subst same
          have : m.getLsbD k = true := named
          simp [this]
        · have ne : l.val ≠ k := fun e => same (Fin.ext e.symm)
          simp [same, ne]
      unfold Screen.setEntry Screen.setPending
      dsimp only
      rw [emptied, emptied]
    · rw [if_neg named]
      have same : ∀ k : Level, (k ∈ l :: ls ∧ m.getLsbD k.val = true) ↔ (k ∈ ls ∧ m.getLsbD k.val = true) := by
        intro k
        rw [List.mem_cons]
        constructor
        · rintro ⟨rfl | h, bit⟩
          · exact absurd bit named
          · exact ⟨h, bit⟩
        · rintro ⟨h, bit⟩
          exact ⟨.inr h, bit⟩
      simp only [same]

theorem Screen.clearLevels_eq (m : BitVec 8) (x : Screen) : x.clearLevels m = x.without m := by
  unfold Screen.clearLevels Screen.without
  rw [Screen.clearEach]
  simp [mem_allLevels]

/-- CLEAR at one screen of the walk. -/
def State.clearAt (screens : BitVec 16) (levels : BitVec 8) (s : State) (i : Screen16) : State :=
  if screens.getLsbD i.val then (s.setScreen i ((s.screen i).clearLevels levels)).evaluate i else s

theorem State.hostClear_eq (screens : BitVec 16) (levels : BitVec 8) (s : State) :
    s.hostClear screens levels = allScreens.foldl (State.clearAt screens levels) s := rfl

section
variable {screens : BitVec 16} {levels : BitVec 8}

theorem State.clearAt_mirror (s : State) (i : Screen16) : (s.clearAt screens levels i).arb.mirror = s.arb.mirror := by
  unfold State.clearAt
  split
  · exact State.evaluate_mirror _ _
  · rfl

theorem State.clearAt_smi (s : State) (i : Screen16) : (s.clearAt screens levels i).smi = s.smi := by
  unfold State.clearAt
  split
  · exact State.evaluate_smi _ _
  · rfl

theorem State.clearAt_untouched {s : State} {i j : Screen16} (apart : j ≠ i) (notCopy : s.arb.mirror ≠ some (j, i)) :
    State.Untouched i s (s.clearAt screens levels j) := by
  unfold State.clearAt
  split
  · have put : State.Untouched i s (s.setScreen j ((s.screen j).clearLevels levels)) := by
      refine State.setScreen_untouched_plain apart fun _ => ?_
      rw [Screen.clearLevels_eq]
      exact ⟨rfl, rfl⟩
    exact put.trans (State.evaluate_untouched apart (by rw [put.mirror]; exact notCopy))
  · exact State.Untouched.refl i s

/-- CLEAR counts nothing as SKIPPED. -/
theorem State.clearAt_uncounted {s z : State} (i j : Screen16)
    (h : (z.screen j).selectors = (s.screen j).selectors ∧ (s.screen j).counted (z.screen j) .skipped 0) :
    ((z.clearAt screens levels i).screen j).selectors = (s.screen j).selectors ∧
      (s.screen j).counted ((z.clearAt screens levels i).screen j) .skipped 0 := by
  unfold State.clearAt
  split
  · refine State.evaluate_keeps (Screen.kept_uncounted (s.screen j) (.inl rfl)) i ?_
    by_cases same : i = j
    · subst same
      rw [State.setScreen_screen_self, Screen.clearLevels_eq]
      exact h
    · rw [State.setScreen_screen_ne _ _ same]
      exact h
  · exact h

/-- A host CLEAR leaves the stack and the requests of a monitor but for the levels named. -/
theorem State.clearAt_stack {s : State} {i j : Screen16} (apart : j ≠ i) :
    ((s.clearAt screens levels i).screen j).stack = (s.screen j).stack ∧
      ((s.clearAt screens levels i).screen j).pendingAt = (s.screen j).pendingAt := by
  unfold State.clearAt
  split
  · obtain ⟨stack, pending⟩ := State.evaluate_stack (s := s.setScreen i ((s.screen i).clearLevels levels)) apart
    rw [State.setScreen_screen_ne _ _ (Ne.symm apart)] at stack pending
    exact ⟨stack, pending⟩
  · exact ⟨rfl, rfl⟩

end

end Sys2Proof.Machine
end

section
/-! Directives of the screens read from the state before them: CLEAR (R130). -/

namespace Sys2Proof.Machine

/-- A directive that acts on screens and links alone leaves them as it has made them; its outcome is handed back. -/
theorem State.screenDirective_rest {s : State} {slot : Slot} {kind : Nat} {words : List Nat} (t : Time)
    (h : s.taken slot kind words) (hk : allowedIn kind s.ctl.engine = true) {α : Type}
    {read : List Nat → State → Option α} (act : α → State → State) {a : α} {v : State}
    (hr : read words ((s.begin t).taking slot kind words) = some a)
    (ha : act a ((s.begin t).taking slot kind words) = v.completeOk)
    (hv : ((s.begin t).taking slot kind words).onlyScreens v)
    (hf : ∀ f, s.smi.port.inFlight = some f → v.smi.port.inFlight = some f) :
    let u := (s.begin t).takeDirective kind read act
    u.clock = max s.clock t ∧ u.smi.journalCount = v.smi.journalCount ∧ u.smi.journalQueue = v.smi.journalQueue ∧
      ∀ i, State.Untouched i v u := by
  obtain ⟨f, hf'⟩ := State.taken_busy h
  have hp : v.ctl.progress = some ⟨slot, kind, words, .none⟩ := by rw [hv.2.1]; rfl
  have hc : ((s.begin t).taking slot kind words).checked kind read act words = v.complete .ok [] := by
    rw [State.checked_act act (by exact hk) hr]
    exact ha
  obtain ⟨-, whole, -, -, -, -, -, count, queue, -⟩ := State.takeDirective_completed t h hc hp (hf f hf')
  have clock : v.clock = max s.clock t := hv.2.2.1
  intro u
  have frame : u = { v with ctl := { v.ctl with progress := none }, smi := u.smi } := whole
  refine ⟨by rw [frame]; exact clock, count, queue, fun i => ?_⟩
  rw [frame]
  exact ⟨rfl, rfl, rfl, rfl, rfl, rfl, rfl, rfl, rfl, fun _ _ => ⟨rfl, rfl, rfl, rfl, rfl⟩⟩

/-- The state a directive is taken in decides the messages of every screen as the state before it. -/
theorem State.taking_alike (s : State) (t : Time) (slot : Slot) (kind : Nat) (words : List Nat) (i : Screen16) :
    State.Alike i s ((s.begin t).taking slot kind words) :=
  ⟨rfl, rfl, rfl, rfl, ⟨rfl, rfl, rfl⟩, fun _ _ => ⟨⟨rfl, rfl, rfl⟩, rfl⟩⟩

theorem State.begin_alike (s : State) (t : Time) (i : Screen16) : State.Alike i s (s.begin t) :=
  ⟨rfl, rfl, rfl, rfl, ⟨rfl, rfl, rfl⟩, fun _ _ => ⟨⟨rfl, rfl, rfl⟩, rfl⟩⟩

/-- Only the stack and the requests of a screen are written: its messages are decided alike. -/
theorem State.setScreen_plain_alike {s : State} {i : Screen16} {x : Screen}
    (preferred : x.preferred = (s.screen i).preferred) : State.Alike i s (s.setScreen i x) :=
  State.setScreen_alike preferred s.arb.entrySerial

theorem Screen.without_face (x : Screen) (m : BitVec 8) : x.sameFace (x.without m) := ⟨rfl, rfl, rfl, rfl, rfl⟩

/-- A walk over the screens comes to screen `i` with what only its own step changes as it was, and leaves it as that step has
left it. -/
theorem foldl_once {σ β : Type} {f : σ → Screen16 → σ} {i : Screen16} (view : σ → β) {P : σ → Prop}
    (keeps : ∀ z j, P z → P (f z j)) (others : ∀ z j, P z → j ≠ i → view (f z j) = view z) (z : σ) (h : P z) :
    ∃ y, P y ∧ view y = view z ∧ view (allScreens.foldl f z) = view (f y i) := by
  obtain ⟨before, after, walk⟩ := List.append_of_mem (mem_allScreens i)
  have nodup : (before ++ i :: after).Nodup := by rw [← walk]; decide
  obtain ⟨-, tail, apart⟩ := List.nodup_append.1 nodup
  have each : ∀ (l : List Screen16) (z : σ), i ∉ l → P z → P (l.foldl f z) ∧ view (l.foldl f z) = view z := by
    intro l
    induction l with
    | nil => exact fun z _ h => ⟨h, rfl⟩
    | cons j l ih =>
      intro z new h
      obtain ⟨kept, same⟩ := ih (f z j) (fun h => new (List.mem_cons_of_mem j h)) (keeps z j h)
      exact ⟨kept, same.trans (others z j h fun e => new (by rw [e]; exact List.mem_cons_self))⟩
  obtain ⟨kept, same⟩ := each before z (fun h => apart i h i List.mem_cons_self rfl) h
  refine ⟨_, kept, same, ?_⟩
  rw [walk, List.foldl_append, List.foldl_cons]
  exact (each after _ (List.nodup_cons.1 tail).1 (keeps _ i kept)).2

section
variable {z : State} {screens : BitVec 16} {levels : BitVec 8}

/-- A walk of CLEAR as it comes to a screen and leaves it. -/
theorem State.hostClear_around (i : Screen16) (notCopy : ∀ j, j ≠ i → screens.getLsbD j.val = true →
    z.arb.mirror ≠ some (j, i)) : ∃ y, State.Untouched i z y ∧ y.smi = z.smi ∧
      State.Untouched i (y.clearAt screens levels i) (z.hostClear screens levels) := by
  obtain ⟨before, after, -, first, last⟩ := foldl_around (st := id) (f := State.clearAt screens levels) (i := i)
    (pair := z.arb.mirror) (fun y j apart mirror => by
      by_cases named : screens.getLsbD j.val = true
      · refine State.clearAt_untouched apart ?_
        rw [mirror]
        exact notCopy j apart named
      · have stands : y.clearAt screens levels j = y := if_neg named
        show State.Untouched i y (y.clearAt screens levels j)
        rw [stands]
        exact State.Untouched.refl i y)
    (fun y mirror => (State.clearAt_mirror y i).trans mirror) z rfl
  exact ⟨_, first, foldl_keeps (P := fun y : State => y.smi = z.smi)
    (fun y j hy => (State.clearAt_smi y j).trans hy) before z rfl, last⟩

theorem State.hostClear_mirror : (z.hostClear screens levels).arb.mirror = z.arb.mirror :=
  foldl_keeps (P := fun y : State => y.arb.mirror = z.arb.mirror)
    (fun y j hy => (State.clearAt_mirror y j).trans hy) allScreens z rfl

theorem State.hostClear_smi : (z.hostClear screens levels).smi = z.smi :=
  foldl_keeps (P := fun y : State => y.smi = z.smi) (fun y j hy => (State.clearAt_smi y j).trans hy) allScreens z rfl

theorem State.hostClear_onlyScreens : z.onlyScreens (z.hostClear screens levels) :=
  (Screens.only z).hostClear screens levels z z.onlyScreens_refl

theorem State.hostClear_uncounted (i : Screen16) :
    (z.screen i).counted ((z.hostClear screens levels).screen i) .skipped 0 :=
  (foldl_keeps (P := fun y : State => (y.screen i).selectors = (z.screen i).selectors ∧
      (z.screen i).counted (y.screen i) .skipped 0) (fun _ j hy => State.clearAt_uncounted j i hy) allScreens z
    ⟨rfl, Screen.counted_refl _ rfl⟩).2

/-- CLEAR at a named screen, no monitor, evaluates it without the levels named. -/
theorem State.hostClear_quietly {s u : State} {i : Screen16} (alike : State.Alike i s z) (plain : s.isMonitor i = false)
    (screen : z.screen i = s.screen i) (link : z.link i = s.link i) (unsent : z.sent = []) (hold : z.arb.hold = s.arb.hold)
    (named : screens.getLsbD i.val = true) (rest : State.Untouched i (z.hostClear screens levels) u) :
    s.evaluatedQuietly u i ((s.screen i).without levels) := by
  have here : z.isMonitor i = false := (State.isMonitor_alike alike i).trans plain
  obtain ⟨y, first, -, last⟩ := State.hostClear_around (z := z) (screens := screens) (levels := levels) i
    fun j _ _ => State.plain_mirror here j
  have cleared : (y.screen i).clearLevels levels = (s.screen i).without levels := by
    rw [Screen.clearLevels_eq, first.screen, screen]
  have step : y.clearAt screens levels i = (y.setScreen i ((s.screen i).without levels)).evaluate i := by
    unfold State.clearAt
    rw [if_pos named, cleared]
  rw [step] at last
  have atY : State.Alike i s y := alike.trans first.alike
  have self : (y.setScreen i ((s.screen i).without levels)).screen i = (s.screen i).without levels :=
    State.setScreen_screen_self _ _ _
  have none : ∀ j, z.framesOn j = [] := fun j => by
    unfold State.framesOn
    rw [unsent]
    rfl
  have quiet := State.evaluate_quietly (b := y.setScreen i ((s.screen i).without levels)) (u := u)
    (atY.trans (State.setScreen_plain_alike (atY.line.2.2.symm))) plain (by rw [self]; exact Screen.without_face _ _)
    (first.link.trans link) (first.frames.trans (none i)) (fun mon pair => by
      obtain ⟨-, frames, -, -, held⟩ := first.copy mon (alike.mirror.trans pair)
      exact ⟨frames.trans (none mon), held.trans hold⟩) (last.trans rest)
  rw [self] at quiet
  exact quiet

/-- A monitor is not evaluated: CLEAR takes the levels off it and nothing else (R130, log entry 13). -/
theorem State.clearAt_monitor {y : State} {mon : Screen16} (monitor : y.isMonitor mon = true) :
    y.clearAt screens levels mon =
      if screens.getLsbD mon.val then y.setScreen mon ((y.screen mon).without levels) else y := by
  unfold State.clearAt
  rw [State.evaluate_monitor (s := y.setScreen mon _) monitor, Screen.clearLevels_eq]

/-- A named monitor loses the levels named, an unnamed one none. -/
theorem State.hostClear_monitor {mon : Screen16} (monitor : z.isMonitor mon = true) :
    let left := if screens.getLsbD mon.val then (z.screen mon).without levels else z.screen mon
    ((z.hostClear screens levels).screen mon).stack = left.stack ∧
      ((z.hostClear screens levels).screen mon).pendingAt = left.pendingAt := by
  obtain ⟨y, mirror, same, last⟩ := foldl_once (f := State.clearAt screens levels) (i := mon)
    (fun y : State => ((y.screen mon).stack, (y.screen mon).pendingAt)) (P := fun y => y.arb.mirror = z.arb.mirror)
    (fun y j hy => (State.clearAt_mirror y j).trans hy)
    (fun y j _ apart => by
      obtain ⟨stack, pending⟩ := State.clearAt_stack (screens := screens) (levels := levels) (s := y) apart.symm
      rw [stack, pending]) z rfl
  have still : y.isMonitor mon = true := by
    unfold State.isMonitor at monitor ⊢
    rw [mirror]
    exact monitor
  rw [State.clearAt_monitor still] at last
  obtain ⟨stack, pending⟩ := Prod.mk.inj same
  obtain ⟨stack', pending'⟩ := Prod.mk.inj last
  rw [State.hostClear_eq, stack', pending']
  by_cases named : screens.getLsbD mon.val = true
  · rw [if_pos named, if_pos named, State.setScreen_screen_self]
    unfold Screen.without
    dsimp only
    rw [stack, pending]
    exact ⟨rfl, rfl⟩
  · rw [if_neg named, if_neg named]
    exact ⟨stack, pending⟩

/-- CLEAR with the source unnamed leaves the monitor, its link, its line and the hold alone but for the levels named. -/
theorem State.hostClear_unsourced {a mon : Screen16} (pair : z.arb.mirror = some (a, mon))
    (unnamed : ¬screens.getLsbD a.val = true) :
    (z.hostClear screens levels).link mon = z.link mon ∧
      (z.hostClear screens levels).framesOn mon = z.framesOn mon ∧
      (z.hostClear screens levels).arb.hold = z.arb.hold ∧
      (z.hostClear screens levels).screen mon =
        if screens.getLsbD mon.val then (z.screen mon).without levels else z.screen mon := by
  have monitor : ∀ y : State, y.arb.mirror = z.arb.mirror → y.isMonitor mon = true := fun y mirror => by
    simp [State.isMonitor, mirror, pair]
  obtain ⟨y, first, -, last⟩ := State.hostClear_around (z := z) (screens := screens) (levels := levels) mon
    fun j _ named copy => unnamed (by rw [pair] at copy; cases copy; exact named)
  rw [State.clearAt_monitor (monitor y first.mirror)] at last
  refine ⟨?_, ?_, ?_, ?_⟩
  · rw [last.link]
    split <;> exact first.link
  · rw [last.frames]
    split <;> exact first.frames
  · exact (foldl_keeps (P := fun y : State => y.arb.mirror = z.arb.mirror ∧ y.arb.hold = z.arb.hold) (fun y j hy => by
      refine ⟨(State.clearAt_mirror y j).trans hy.1, ?_⟩
      show (y.clearAt screens levels j).arb.hold = _
      unfold State.clearAt
      split
      · next named =>
        rw [State.evaluate_hold]
        · exact hy.2
        · intro mon' copy
          have : y.arb.mirror = some (j, mon') := copy
          rw [hy.1, pair] at this
          cases this
          exact unnamed named
      · exact hy.2) allScreens z ⟨rfl, rfl⟩).2
  · rw [last.screen]
    split
    · rw [State.setScreen_screen_self, first.screen]
    · exact first.screen

end

/-- Settles O26: each screen of the walk is evaluated once, without the levels named. -/
theorem clearCarriedOut : Obligations.ClearCarriedOut := by
  intro t s slot words taken loaded named left
  have begun := State.taking_alike s t slot 8 words
  have only := State.hostClear_onlyScreens (z := (s.begin t).taking slot 8 words)
    (screens := screenMask (word words 0)) (levels := levelMask (word words 1))
  have smi := State.hostClear_smi (z := (s.begin t).taking slot 8 words)
    (screens := screenMask (word words 0)) (levels := levelMask (word words 1))
  have allowed := allowedIn_unlessLoading (kind := 8) (by decide) (by decide) loaded
  have inFlight : ∀ f, s.smi.port.inFlight = some f → (((s.begin t).taking slot 8 words).hostClear
      (screenMask (word words 0)) (levelMask (word words 1))).smi.port.inFlight = some f := fun f hf => by
    rw [smi]
    exact hf
  obtain ⟨handed, finished, sameShow, ctl, arb, links, -⟩ := State.screenDirective t taken allowed
    (read := fun ws _ => some (screenMask (word ws 0), levelMask (word ws 1)))
    (fun p s => (s.hostClear p.1 p.2).completeOk) rfl rfl only inFlight
  obtain ⟨clock, count, -, rest⟩ := State.screenDirective_rest t taken allowed
    (read := fun ws _ => some (screenMask (word ws 0), levelMask (word ws 1)))
    (fun p s => (s.hostClear p.1 p.2).completeOk) rfl rfl only inFlight
  refine ⟨_, rfl, handed, finished, sameShow, ctl, clock, ?_, ?_, ?_, ?_, ?_, ?_, ?_⟩
  all_goals generalize ((s.begin t).takeDirective 8 (fun ws _ => some (screenMask (word ws 0), levelMask (word ws 1)))
    (fun p s => (s.hostClear p.1 p.2).completeOk)) = u at *
  · rw [arb, State.hostClear_mirror]
    rfl
  · rw [count, smi]
    rfl
  · intro i
    have := State.hostClear_uncounted (z := (s.begin t).taking slot 8 words) (screens := screenMask (word words 0))
      (levels := levelMask (word words 1)) i
    rw [(rest i).screen]
    exact this
  · intro i l here level
    rw [(rest i).screen]
    exact State.hostClear_emptyAt _ _ _ here level
  · intro i here plain
    exact State.hostClear_quietly (begun i) plain rfl rfl rfl rfl here (rest i)
  · intro i away plain
    obtain ⟨y, first, -, last⟩ := State.hostClear_around (z := (s.begin t).taking slot 8 words)
      (screens := screenMask (word words 0)) (levels := levelMask (word words 1)) i
      fun j _ _ => State.plain_mirror (s := (s.begin t).taking slot 8 words) plain j
    have step : y.clearAt (screenMask (word words 0)) (levelMask (word words 1)) i = y := if_neg away
    rw [step] at last
    have whole := (first.trans last).trans (rest i)
    exact ⟨whole.screen, whole.link, whole.frames⟩
  · intro a mon pair
    have monitor : ((s.begin t).taking slot 8 words).isMonitor mon = true := by
      have : ((s.begin t).taking slot 8 words).arb.mirror = some (a, mon) := pair
      simp [State.isMonitor, this]
    obtain ⟨stack, pending⟩ := State.hostClear_monitor (screens := screenMask (word words 0))
      (levels := levelMask (word words 1)) monitor
    refine ⟨fun here => ?_, fun away => ?_, fun unnamed => ?_⟩
    · rw [(rest mon).screen, stack, pending, if_pos here]
      exact ⟨rfl, rfl⟩
    · rw [(rest mon).screen, stack, pending, if_neg away]
      exact ⟨rfl, rfl⟩
    · obtain ⟨link, frames, hold, screen⟩ := State.hostClear_unsourced (z := (s.begin t).taking slot 8 words)
        (screens := screenMask (word words 0)) (levels := levelMask (word words 1)) pair unnamed
      refine ⟨(rest mon).link.trans link, (rest mon).frames.trans frames, ?_, fun here => ?_, fun away => ?_⟩
      · rw [arb, hold]
        rfl
      · rw [(rest mon).screen, screen, if_pos here]
        rfl
      · rw [(rest mon).screen, screen, if_neg away]
        rfl

end Sys2Proof.Machine
end

section
/-! The quiet test of a held PAUSE, and the carrier of a link (R141, R142, R172). -/

namespace Sys2Proof.Machine

/-! ### The quiet test (R172) -/

theorem State.isQuiet_iff {s : State} : s.isQuiet = true ↔ ∀ j, (s.link j).state ≠ .busy := by
  unfold State.isQuiet
  rw [List.all_eq_true]
  constructor
  · intro h j
    simpa using h j (mem_allScreens j)
  · intro h j _
    simpa using h j

/-- The quiet test changes Show Control and the interface alone, and no CAUSE flag. -/
theorem State.testQuiet_frame (s : State) : s.testQuiet = { s with ctl := s.testQuiet.ctl, smi := s.testQuiet.smi } := by
  unfold State.testQuiet
  split
  · rfl
  · split
    · rw [State.changeEngine_frame]
      rfl
    · rfl

theorem State.testQuiet_flags (s : State) : s.testQuiet.smi.flags = s.smi.flags := by
  unfold State.testQuiet
  split
  · rfl
  · split
    · exact (State.changeEngine_sameScan _ _ _ _ _ s).2.1
    · rfl

theorem State.testQuiet_none {s : State} (held : s.ctl.heldPause = none) : s.testQuiet = s := by
  unfold State.testQuiet
  rw [held]

/-- An outcome handed back is the last, and its result words are queued (R188). -/
theorem State.handBack_handedBack (slot : Slot) (code : OutcomeCode) (ws : List Nat) (s : State) :
    s.handedBack (s.handBack slot code ws) slot code ws := ⟨rfl, State.enqueue_holds _ _⟩

/-- The quiet test, seen from a state with the same PAUSE held and the same outcomes. -/
theorem State.testQuiet_tested {s v : State} (ctl : v.ctl = s.ctl) (outcomes : v.smi.outcomes = s.smi.outcomes)
    (base : v.smi.base = s.smi.base) : s.quietTested v.testQuiet := by
  have links : ∀ j, v.testQuiet.link j = v.link j := fun j => by
    rw [State.testQuiet_frame]
    rfl
  refine ⟨fun free => ?_, fun p held => ⟨fun quiet => ?_, fun busy => ?_⟩⟩
  · rw [State.testQuiet_none (by rw [ctl]; exact free), ctl]
  · simp only [links] at quiet
    have step : v.testQuiet = { (v.changeEngine .paused .quiet (some p) 0 0).handBack p .ok [] with
        ctl := { ((v.changeEngine .paused .quiet (some p) 0 0).handBack p .ok []).ctl with heldPause := none } } := by
      unfold State.testQuiet
      rw [ctl, held]
      dsimp only
      rw [if_pos (State.isQuiet_iff.2 quiet)]
    have scans := State.changeEngine_sameScan .paused .quiet (some p) 0 0 v
    have engine := State.changeEngine_ctl .paused .quiet (some p) 0 0 (s := v)
    obtain ⟨handed, queued⟩ := State.handBack_handedBack p .ok [] (v.changeEngine .paused .quiet (some p) 0 0)
    rw [step]
    generalize v.changeEngine .paused .quiet (some p) 0 0 = w at *
    refine ⟨?_, ?_, ?_⟩
    · show { w.ctl with heldPause := none } = _
      rw [engine, ctl]
    · exact handed.trans (by rw [scans.2.2.2.1, outcomes])
    · have address : w.resultAddress p = s.resultAddress p := by
        unfold State.resultAddress State.slotAddress
        rw [scans.1, base]
      rw [address] at queued
      exact queued
  · simp only [links] at busy
    have noisy : v.isQuiet = false := by
      rw [← Bool.not_eq_true, State.isQuiet_iff]
      intro quiet
      obtain ⟨j, hj⟩ := busy
      exact quiet j hj
    have step : v.testQuiet = v := by
      unfold State.testQuiet
      rw [ctl, held]
      dsimp only
      rw [noisy]
      rfl
    rw [step]
    exact ⟨ctl, outcomes⟩

/-! ### Carrier (R141) -/

/-- The screen of a link that has gone dark. -/
def Screen.dark (x : Screen) : Screen := { x with onScreen := .unknown, blankPending := false, clearOwed := false }

/-- The state after a link has been lost, before the quiet test. -/
def State.carrierLost (i : Screen16) (s : State) : State :=
  ((((s.setLink i (s.link i).dropped).journalLink i (s.link i).state .down .carrierLoss).setCause .screen).linkDark i)

theorem State.fallCarrier_eq (i : Screen16) (s : State) : s.fallCarrier i =
    if (s.link i).state = .down then s.setLink i { s.link i with carrier := false }
    else if (s.link i).state = .busy then (s.carrierLost i).testQuiet else s.carrierLost i := rfl

theorem State.carrierLost_frame (i : Screen16) (s : State) : s.carrierLost i = { s with
    smi := (s.carrierLost i).smi, links := s.links.set i (s.link i).dropped
    arb := { s.arb with screens := s.arb.screens.set i (s.screen i).dark } } := by
  have h := State.journalAt_onlyBus s.clock (.linkState i (s.link i).state.code LinkState.down.code
    LinkCause.carrierLoss.code 0 0 0 0 0) (s.setLink i (s.link i).dropped).onlyBus_refl
  unfold State.carrierLost State.journalLink State.journal
  rw [show (s.setLink i (s.link i).dropped).clock = s.clock from rfl]
  generalize (s.setLink i (s.link i).dropped).journalAt _ _ = w at *
  rw [h]
  rfl

theorem State.carrierLost_smi (i : Screen16) (s : State) :
    (s.carrierLost i).smi.flags.screen = true ∧ (s.carrierLost i).smi.outcomes = s.smi.outcomes ∧
      (s.carrierLost i).smi.base = s.smi.base := by
  obtain ⟨base, -, -, outcomes, -⟩ := State.journalAt_sameScan s.clock (.linkState i (s.link i).state.code
    LinkState.down.code LinkCause.carrierLoss.code 0 0 0 0 0) (s.setLink i (s.link i).dropped)
  exact ⟨rfl, outcomes, base⟩

/-- A link with carrier. -/
def Link.lit (k : Link) : Link := { k with carrier := true }

theorem State.riseCarrier_eq (i : Screen16) (s : State) : s.riseCarrier i =
    if (s.link i).state = .down then (s.setLink i (s.link i).lit).enterProbing i .carrierUp
    else s.setLink i (s.link i).lit := rfl

theorem State.setLink_setLink (i : Screen16) (k k' : Link) (s : State) : (s.setLink i k).setLink i k' = s.setLink i k' := by
  unfold State.setLink
  dsimp only
  rw [Vector.set_set]

theorem State.enterProbing_links (i : Screen16) (c : LinkCause) (s : State) :
    (s.enterProbing i c).links = s.links.set i ((s.link i).probe s.clock) := by
  unfold State.enterProbing State.journalLink
  exact State.journalAt_links _ _ _

/-- A DOWN link on which carrier has risen (R141, R142). -/
theorem State.riseCarrier_down {i : Screen16} {s : State} (down : (s.link i).state = .down) :
    (s.riseCarrier i).arb = s.arb ∧ (s.riseCarrier i).ctl = s.ctl ∧ (s.riseCarrier i).smi.flags = s.smi.flags ∧
      (s.riseCarrier i).smi.journalCount = (s.smi.journalCount + 1) % 4294967296 ∧
      (s.riseCarrier i).links = s.links.set i ((s.link i).lit.probe s.clock) ∧
      (s.riseCarrier i).sent = s.sent ++ [(i, helloFrame ((s.link i).tag + 1))] := by
  rw [State.riseCarrier_eq, if_pos down]
  have frame := State.enterProbing_frame .carrierUp (s.setLink i (s.link i).lit) i
  have link : (s.setLink i (s.link i).lit).link i = (s.link i).lit := State.setLink_link_self _ _ _
  rw [link] at frame
  refine ⟨by rw [frame]; rfl, by rw [frame]; rfl, (State.journalAt_registers _ _ _).2.1,
    (State.journalAt_journal _ _ _).1, ?_, by rw [frame]; rfl⟩
  rw [State.enterProbing_links, link]
  exact congrArg State.links (State.setLink_setLink i (s.link i).lit ((s.link i).lit.probe s.clock) s)

/-- Settles O54: the state of the link decides whether a change of carrier is taken. -/
theorem carrierChanges : Obligations.CarrierChanges := by
  intro t s i
  refine ⟨fun down => ?_, fun up => ?_, fun down => ?_, fun up => ?_⟩
  · obtain ⟨arb, ctl, flags, count, links, sent⟩ := State.riseCarrier_down (s := s.begin t) (i := i) down
    exact ⟨_, rfl, linkFrame (.carrierUp t i) s _ rfl rfl, arb, ctl, flags, count, links, sent⟩
  · show Host.Outcome.next ((s.begin t).riseCarrier i) = _
    rw [State.riseCarrier_eq, if_neg (show ¬((s.begin t).link i).state = .down from up)]
    rfl
  · show Host.Outcome.next ((s.begin t).fallCarrier i) = _
    rw [State.fallCarrier_eq, if_pos (show ((s.begin t).link i).state = .down from down)]
    rfl
  · have frame := State.carrierLost_frame i (s.begin t)
    obtain ⟨flag, outcomes, base⟩ := State.carrierLost_smi i (s.begin t)
    have falls : (s.begin t).fallCarrier i = if (s.link i).state = .busy
        then ((s.begin t).carrierLost i).testQuiet else (s.begin t).carrierLost i := by
      rw [State.fallCarrier_eq, if_neg (show ¬((s.begin t).link i).state = .down from up)]
      rfl
    have tested := State.testQuiet_frame ((s.begin t).carrierLost i)
    have screens : ∀ j, j ≠ i → (s.arb.screens.set i (s.screen i).dark)[j] = s.screen j := fun j hj =>
      State.setScreen_screen_ne s (s.screen i).dark (Ne.symm hj)
    refine ⟨_, rfl, linkFrame (.carrierLoss t i) s _ rfl rfl, ?_, ?_, fun busy => ?_, fun quiet => ?_, ?_, ?_, fun j hj => ?_⟩
    · rw [falls]
      split
      · rw [State.testQuiet_flags]
        exact flag
      · exact flag
    · rw [falls]
      split
      · rw [tested, frame]
        rfl
      · rw [frame]
        rfl
    · rw [falls, if_pos busy]
      exact State.testQuiet_tested (by rw [frame]; rfl) outcomes base
    · rw [falls, if_neg quiet]
      exact ⟨by rw [frame]; rfl, outcomes⟩
    · rw [falls]
      split
      · rw [tested, frame]
        rfl
      · rw [frame]
        rfl
    · have dark : ((s.begin t).carrierLost i).screen i = (s.screen i).dark := by
        rw [frame]
        exact State.setScreen_screen_self s i _
      rw [falls]
      split
      · rw [tested]
        exact dark
      · exact dark
    · have other : ((s.begin t).carrierLost i).screen j = s.screen j := by
        rw [frame]
        exact screens j hj
      rw [falls]
      split
      · rw [tested]
        exact other
      · exact other

end Sys2Proof.Machine
end

section
/-! An evaluation with one request to judge: what step 3 makes of the panel (R117, R120 to R122). -/

namespace Sys2Proof.Machine

/-! ### The requests of the other levels -/

section
variable {s : State} {i : Screen16} {l m : Level} (apart : m ≠ l)

theorem Panel.shown_pendingAt {k : Level} {e : Entry} {o : TransOverride} {p : Panel} :
    (p.shown s i k e o).screen.pendingAt = p.screen.pendingAt := by rw [Panel.shown_screen]

theorem Panel.refreshed_pendingAt {o : TransOverride} {p : Panel} :
    (p.refreshed s i o).screen.pendingAt = p.screen.pendingAt := by
  unfold Panel.refreshed
  split
  · split
    · split
      · rfl
      · exact Panel.shown_pendingAt
    · split
      · rfl
      · rw [Panel.cleared_screen]
  · rfl

theorem Panel.granted_eq (r : Request) (x : Screen) : Panel.granted s l r x = { x.setPending l none with
    counters := (Panel.granted s l r x).counters } := by
  unfold Panel.granted
  split <;> rfl

include apart

theorem Panel.grantShow_pending_ne {r : Request} {p : Panel} :
    (p.grantShow s i l r).screen.pendingAt[m] = p.screen.pendingAt[m] := by
  unfold Panel.grantShow
  rw [Panel.shown_pendingAt]
  dsimp only
  rw [Panel.granted_eq]
  exact Screen.setPending_pending_ne p.screen none (Ne.symm apart)

theorem Panel.defer_pending_ne {r : Request} {p : Panel} :
    (p.defer s i l r).screen.pendingAt[m] = p.screen.pendingAt[m] := by
  unfold Panel.defer
  split
  · exact Screen.setPending_pending_ne p.screen _ (Ne.symm apart)
  · rfl

theorem Panel.judgeShow_pending_ne {r : Request} {p : Panel} :
    (p.judgeShow s i l r).screen.pendingAt[m] = p.screen.pendingAt[m] := by
  have silent : (p.insertSilently l r).screen.pendingAt[m] = p.screen.pendingAt[m] :=
    Screen.setPending_pending_ne p.screen none (Ne.symm apart)
  unfold Panel.judgeShow
  split
  · split
    · exact Panel.grantShow_pending_ne apart
    · rfl
  · split
    · split
      · exact Panel.grantShow_pending_ne apart
      · rfl
    · split
      · exact silent
      · split
        · exact silent
        · split
          · split
            · exact Panel.grantShow_pending_ne apart
            · rfl
          · exact Panel.defer_pending_ne apart

theorem Panel.judgeBlank_pending_ne {r : Request} {p : Panel} :
    (p.judgeBlank s i l r).screen.pendingAt[m] = p.screen.pendingAt[m] := by
  have removed : (p.screen.setPending l none).pendingAt[m] = p.screen.pendingAt[m] :=
    Screen.setPending_pending_ne p.screen none (Ne.symm apart)
  unfold Panel.judgeBlank
  split
  · exact removed
  · split
    · split
      · split
        · exact (congrArg (fun v : Vector (Option Request) 8 => v[m]) Panel.refreshed_pendingAt).trans removed
        · rfl
      · exact Panel.defer_pending_ne apart
    · exact removed

/-- A request judged leaves the other requests alone. -/
theorem Panel.judge_pending_ne {p : Panel} : (p.judge s i l).screen.pendingAt[m] = p.screen.pendingAt[m] := by
  unfold Panel.judge
  split
  · rfl
  · split
    · split
      · exact Panel.judgeBlank_pending_ne apart
      · exact Panel.judgeShow_pending_ne apart
      · exact Panel.judgeShow_pending_ne apart
    · rfl

end

/-- With requests at one level alone, that level alone is judged. -/
theorem Panel.judgeEach_only {s : State} {i : Screen16} {l : Level} {p : Panel}
    (only : ∀ m : Level, m ≠ l → p.screen.pendingAt[m] = none) : allLevels.foldl (Panel.judge s i) p = p.judge s i l := by
  have idle : ∀ (ls : List Level) (q : Panel), l ∉ ls → (∀ m : Level, m ≠ l → q.screen.pendingAt[m] = none) →
      ls.foldl (Panel.judge s i) q = q := by
    intro ls q new only
    refine Panel.judgeEach_idle ls fun m hm r pending => ?_
    rw [only m fun e => new (by rw [← e]; exact hm)] at pending
    cases pending
  obtain ⟨before, after, walk⟩ := List.append_of_mem (mem_allLevels l)
  have nodup : (before ++ l :: after).Nodup := by rw [← walk]; decide
  obtain ⟨-, tail, apart⟩ := List.nodup_append.1 nodup
  rw [walk, List.foldl_append, idle before p (fun h => apart l h l List.mem_cons_self rfl) only, List.foldl_cons,
    idle after _ (List.nodup_cons.1 tail).1 fun m hm => (Panel.judge_pending_ne hm).trans (only m hm)]

/-! ### A request shown -/

section
variable {s b : State} {i : Screen16} (alike : State.Alike i s b) (plain : s.isMonitor i = false) {p : Panel} {l : Level}
  {r : Request} (judged : (b.panel i).judged b i = p.grantShow b i l r) (face : (s.screen i).sameFace p.screen)
include alike plain judged face

/-- A grant with a SHOW: the request stands in the stack and leaves, and nothing more is sent (R120). -/
theorem State.evaluate_grants : s.Showed (b.evaluate i) i l (r.toEntry p.serial) r.override
      (({ p with screen := Panel.granted b l r p.screen } : Panel).showOf l (r.toEntry p.serial) r.override) ∧
    s.framesLeft (b.evaluate i) i
      (({ p with screen := Panel.granted b l r p.screen } : Panel).showOf l (r.toEntry p.serial) r.override) b.sent ∧
    ∃ d, (Panel.granted b l r p.screen).ShownOver ((b.evaluate i).screen i) l (r.toEntry p.serial) d b.clock := by
  have here : b.isMonitor i = false := (State.isMonitor_alike alike i).trans plain
  have granted : (s.screen i).sameFace (Panel.granted b l r p.screen) := by
    rw [Panel.granted_eq]
    exact face
  have sent : (p.grantShow b i l r).ready b i = false := Panel.ready_of_sent rfl
  have evaluated := State.evaluate_judged here judged
  rw [Panel.refreshed_of_unready _ sent] at evaluated
  rw [evaluated, State.realized_screen here]
  have kept := Panel.shown_over (s := b) (i := i) (l := l) (e := r.toEntry p.serial) (override := r.override)
    (p := { p with screen := Panel.granted b l r p.screen, serial := p.serial + 1 })
    (Screen.retime_retimed _ b.clock)
  have record : ((p.grantShow b i l r).screen.retime b.clock).onScreen = .entry l (r.toEntry p.serial).serial := by
    show (p.grantShow b i l r).screen.onScreen = _
    unfold Panel.grantShow
    rw [Panel.shown_screen]
  have preferred : ((p.grantShow b i l r).screen.retime b.clock).preferred =
      (Panel.granted b l r p.screen).preferred := by
    show (p.grantShow b i l r).screen.preferred = _
    unfold Panel.grantShow
    rw [Panel.shown_screen]
  refine ⟨State.shown_showed alike plain
    (p := { p with screen := Panel.granted b l r p.screen, serial := p.serial + 1 }) granted l (r.toEntry p.serial)
    r.override record preferred kept.entry, ?_, _, kept⟩
  exact State.panel_framesLeft alike plain
    (p := { p with screen := Panel.granted b l r p.screen, serial := p.serial + 1 }) granted rfl preferred

end

/-- The entry of a request carries it. -/
theorem Request.toEntry_carries (r : Request) (n d now : Nat) : ((r.toEntry n).onAir d now).carries r :=
  ⟨rfl, rfl, rfl, rfl, rfl, rfl, rfl, rfl⟩

theorem Panel.granted_counted_late {s : State} {l : Level} {r : Request} (x : Screen) : x.counted (Panel.granted s l r x)
    .late (if r.release + s.sch.lateTolerance < s.clock then 1 else 0) := by
  unfold Panel.granted
  split
  · exact Screen.counted_count_self .late (x.setPending l none)
  · exact Screen.counted_refl _ rfl

theorem Panel.granted_uncounted {s : State} {l : Level} {r : Request} {ev : CountEvent} (other : ev ≠ .late) (x : Screen) :
    x.counted (Panel.granted s l r x) ev 0 := by
  unfold Panel.granted
  split
  · exact Screen.counted_count_other (Ne.symm other) (x.setPending l none)
  · exact Screen.counted_refl _ rfl

end Sys2Proof.Machine
end

section
/-! The one request of a screen judged, read from the state before the command (R117, R120 to R122): `Judging` is the
situation, and each lemma about it is one clause of `State.requestJudged`. -/

namespace Sys2Proof.Machine

/-- Screens that differ in counters alone, of which those of REFUSED alone may have risen. -/
structure Screen.Recounted (x y : Screen) : Prop where
  frame : y = { x with counters := y.counters }
  uncounted : ∀ ev, ev ≠ .refused → x.counted y ev 0

theorem Screen.Recounted.refl (x : Screen) : x.Recounted x := ⟨rfl, fun _ _ => Screen.counted_refl _ rfl⟩

theorem Screen.recounted_count (x : Screen) : x.Recounted (x.count .refused) :=
  ⟨rfl, fun _ other => Screen.counted_count_other (Ne.symm other) x⟩

section
variable {x y : Screen} (h : x.Recounted y)
include h

theorem Screen.Recounted.stack : y.stack = x.stack := by rw [h.frame]
theorem Screen.Recounted.pendingAt : y.pendingAt = x.pendingAt := by rw [h.frame]
theorem Screen.Recounted.onScreen : y.onScreen = x.onScreen := by rw [h.frame]
theorem Screen.Recounted.blankPending : y.blankPending = x.blankPending := by rw [h.frame]
theorem Screen.Recounted.masked (l : Level) : y.masked l = x.masked l := Screen.masked_congr (by rw [h.frame]) l
theorem Screen.Recounted.face : x.sameFace y := by rw [h.frame]; exact ⟨rfl, rfl, rfl, rfl, rfl⟩
theorem Screen.Recounted.visibleTop : y.visibleTop = x.visibleTop :=
  Screen.visibleTop_congr (by rw [h.frame]) h.stack

theorem Screen.Recounted.agrees : y.agrees ↔ x.agrees := by
  unfold Screen.agrees
  rw [h.visibleTop, h.onScreen]

theorem Screen.Recounted.isShownTop (l : Level) : y.isShownTop l = x.isShownTop l := by
  unfold Screen.isShownTop Screen.shownTop
  rw [h.visibleTop]

theorem Screen.Recounted.counted {z : Screen} {ev : CountEvent} {n : Nat} (other : ev ≠ .refused)
    (rises : y.counted z ev n) : x.counted z ev n := by
  have := Screen.counted_trans (by rw [h.frame]) (h.uncounted ev other) rises
  rwa [Nat.zero_add] at this

end

/-- Request `r` stands alone at its level of screen `i`, released and unmasked, with no desk BLANK and no notice end: an
evaluation judges it alone, whether or not it came from the operator. -/
structure State.LoneRequest (s : State) (i : Screen16) (l : Level) (r : Request) (now : Time) : Prop where
  plain : s.isMonitor i = false
  blank : (s.screen i).blankPending = false
  unmasked : (s.screen i).masked l = false
  pending : (s.screen i).pendingAt[l] = some r
  level : r.level = l
  released : r.release ≤ now
  endless : r.endTime = none
  others : ∀ m : Level, m ≠ l → (s.screen i).pendingAt[m] = none
  entries : ∀ (m : Level) (y : Entry), (s.screen i).stack[m] = some y → y.endTime = none

theorem State.oneRequest_lone {s : State} {i : Screen16} {l : Level} {r : Request} {now : Time}
    (h : s.oneRequest i l r now) : s.LoneRequest i l r now ∧ r.operator = false := by
  obtain ⟨plain, blank, unmasked, pending, level, released, endless, manual, others, entries⟩ := h
  exact ⟨⟨plain, blank, unmasked, pending, level, released, endless, others, entries⟩, manual⟩

/-- In `b` screen `i` of `s` is evaluated with the one request `r` to judge, and `u` is what the step leaves. -/
structure State.Judging (s b u : State) (i : Screen16) (l : Level) (r : Request) : Prop where
  alike : State.Alike i s b
  one : s.LoneRequest i l r b.clock
  screen : (s.screen i).Recounted (b.screen i)
  unsent : b.sent = []
  rest : State.Untouched i (b.evaluate i) u
  sent : u.sent = (b.evaluate i).sent

theorem State.panel_unready {s : State} {i : Screen16} (dark : (s.link i).state ≠ .ready) :
    (s.panel i).ready s i = false := by
  rw [← Bool.not_eq_true, State.panel_ready]
  exact dark

theorem State.waitsAt_of {u : State} {i : Screen16} {l : Level} {r : Request} (level : r.level = l)
    (pending : (u.screen i).pendingAt[l] = some r) : u.waitsAt i r := by
  subst level
  exact pending

/-- While a request waits on the dwell, the dwell timer stands at its end (R121). -/
theorem Screen.dwellTimer_waiting {x : Screen} {l : Level} {y : Entry} {v now : Time} {r : Request}
    (top : x.visibleTop = some (l, y)) (since : y.visibleSince = some v) (pending : x.pendingAt[l] = some r)
    (eligible : x.eligible now r = true) (manual : r.operator = false) (early : now < v + y.minDwell.getD 0) :
    (x.retime now).dwellTimer = some (v + y.minDwell.getD 0) := by
  have shown : x.shownTop = some (l, y) := by
    rw [Screen.shownTop_eq top, since]
    rfl
  have waits : x.waitsOnDwell now l = true := by
    unfold Screen.waitsOnDwell
    rw [pending, shown]
    have : y.dwellPassed now = false := by
      unfold Entry.dwellPassed Entry.dwellEnd
      rw [since]
      simpa using early
    simp [eligible, manual, this]
  have any : allLevels.any (x.waitsOnDwell now) = true := List.any_eq_true.2 ⟨l, mem_allLevels l, waits⟩
  show (if allLevels.any (x.waitsOnDwell now) then x.shownTop.bind fun p => p.2.dwellEnd else none) = _
  rw [any, shown]
  show y.dwellEnd = _
  unfold Entry.dwellEnd
  rw [since]
  rfl

/-- Step 4 puts no entry at an empty level. -/
theorem Panel.refreshed_empty {s : State} {i : Screen16} {o : TransOverride} {p : Panel} {l : Level}
    (empty : p.screen.stack[l] = none) : (p.refreshed s i o).screen.stack[l] = none := by
  unfold Panel.refreshed
  split
  · split
    · next m e top =>
      split
      · exact empty
      · have apart : m ≠ l := by
          rintro rfl
          rw [(Screen.visibleTop_some top).1] at empty
          cases empty
        have stack : (p.shown s i m e e.override).screen.stack =
            p.screen.stack.set m (some (e.onAir (p.dwellOf s i m e e.override) s.clock)) := by rw [Panel.shown_screen]
        refine (congrArg (fun v : Vector (Option Entry) 8 => v[l]) stack).trans (Eq.trans ?_ empty)
        exact Vector.getElem_set_ne _ _ fun e => apart (Fin.ext e)
    · split
      · exact empty
      · have stack : (p.cleared o).screen.stack = p.screen.stack := by rw [Panel.cleared_screen]
        exact (congrArg (fun v : Vector (Option Entry) 8 => v[l]) stack).trans empty
  · exact empty

theorem State.framesLeft_begun {s u v : State} {i : Screen16} {m : Message} {before : List (Screen16 × List Byte)}
    (h : s.framesLeft v i m before) (sent : u.sent = v.sent) (unsent : before = []) : s.framesLeft u i m [] := by
  unfold State.framesLeft at h ⊢
  rw [sent, h, unsent]

namespace State.Judging

variable {s b u : State} {i : Screen16} {l : Level} {r : Request} (h : s.Judging b u i l r)
include h

theorem plain : s.isMonitor i = false := h.one.plain

theorem here : b.isMonitor i = false := (State.isMonitor_alike h.alike i).trans h.plain

theorem mirror : (b.evaluate i).arb.mirror = s.arb.mirror := (State.evaluate_mirror i b).trans h.alike.mirror

theorem clock : u.clock = b.clock := by
  rw [h.rest.clock, State.evaluate_eq h.here]
  exact State.realized_clock _

theorem pending : (b.screen i).pendingAt[l] = some r := by
  rw [h.screen.pendingAt]
  exact h.one.pending

theorem others {m : Level} (apart : m ≠ l) : (b.screen i).pendingAt[m] = none := by
  rw [h.screen.pendingAt]
  exact h.one.others m apart

/-- Steps 1 and 2 find nothing, and step 3 judges the one request. -/
theorem judged : (b.panel i).judged b i = (b.panel i).judge b i l := by
  have ends : (b.panel i).screen.noneEnded b.clock := by
    rintro m T (entry | request)
    · obtain ⟨y, hy, hT⟩ := Option.bind_eq_some_iff.1 entry
      have hy : (b.screen i).stack[m] = some y := hy
      rw [h.screen.stack] at hy
      rw [h.one.entries m y hy] at hT
      cases hT
    · obtain ⟨q, hq, hT⟩ := Option.bind_eq_some_iff.1 request
      by_cases same : m = l
      · subst same
        have hq : (b.screen i).pendingAt[m] = some q := hq
        rw [h.pending] at hq
        cases hq
        rw [h.one.endless] at hT
        cases hT
      · have hq : (b.screen i).pendingAt[m] = some q := hq
        rw [h.others same] at hq
        cases hq
  unfold Panel.judged
  rw [Panel.opened_stands ends (.inl (h.screen.blankPending.trans h.one.blank)),
    Panel.judgeEach_only (l := l) fun m apart => h.others apart]

theorem eligible : (b.screen i).eligible b.clock r = true := by
  rw [Screen.eligible_iff, h.one.level, h.screen.masked]
  exact ⟨h.one.released, h.one.unmasked⟩

theorem judges : (b.panel i).judge b i l = match r.kind with
    | .blank => (b.panel i).judgeBlank b i l r
    | .title => (b.panel i).judgeShow b i l r
    | .notice => (b.panel i).judgeShow b i l r := by
  have pending : (b.panel i).screen.pendingAt[l] = some r := h.pending
  have eligible : (b.panel i).screen.eligible b.clock r = true := h.eligible
  unfold Panel.judge
  rw [pending]
  dsimp only
  rw [eligible]
  rfl

theorem judgesShow (kind : r.kind ≠ .blank) : (b.panel i).judged b i = (b.panel i).judgeShow b i l r := by
  rw [h.judged, h.judges]
  cases hk : r.kind with
  | blank => exact absurd hk kind
  | title => rfl
  | notice => rfl

theorem judgesBlank (kind : r.kind = .blank) : (b.panel i).judged b i = (b.panel i).judgeBlank b i l r := by
  rw [h.judged, h.judges, kind]

/-- Nothing leaves where step 4 finds nothing to send. -/
theorem stands {q : Panel} (judged : (b.panel i).judged b i = q) (unsent : q.message = none)
    (stands : q.ready b i = false ∨ q.screen.onScreen = .unknown ∨ q.screen.agrees) :
    u.screen i = q.screen.retime b.clock ∧ u.link i = b.link i ∧ u.sent = [] := by
  have evaluated := State.evaluate_stands h.here judged unsent stands
  refine ⟨?_, ?_, ?_⟩
  · rw [h.rest.screen, evaluated]
    exact State.setScreen_screen_self _ _ _
  · rw [h.rest.link, evaluated]
    rfl
  · rw [h.sent, evaluated]
    exact h.unsent

/-- A grant with a SHOW. -/
theorem grants {p : Panel} (judged : (b.panel i).judged b i = p.grantShow b i l r)
    (face : (b.screen i).sameFace p.screen) :
    (∃ x, s.showSent u i l x ∧ x.carries r ∧ s.sentAndCopied u i (s.showOf i l x)) ∧ (u.screen i).pendingAt[l] = none ∧
      ∃ d, (Panel.granted b l r p.screen).ShownOver (u.screen i) l (r.toEntry p.serial) d b.clock := by
  obtain ⟨showed, left, d, kept⟩ := State.evaluate_grants h.alike h.plain judged
    (Screen.sameFace_trans h.screen.face face)
  have showed := showed.later h.rest h.mirror
  rw [← h.rest.screen] at kept
  have left := State.framesLeft_begun left h.sent h.unsent
  obtain ⟨d', sent, shows⟩ := State.Showed.showSent (e := r.toEntry p.serial) showed
  refine ⟨⟨_, sent, Request.toEntry_carries r _ _ _, showed.sent.sentAndCopied left shows⟩, ?_, d, kept⟩
  rw [kept.pending, Panel.granted_eq]
  exact Screen.setPending_pending_self _ _ _

/-! ### A TITLE or NOTICE (R120, R121) -/

theorem waits (kind : r.kind ≠ .blank) (lower : ∀ m y, (s.screen i).visibleTop = some (m, y) → l < m)
    (dark : (b.link i).state ≠ .ready) :
    u.waitsAt i r ∧ (u.screen i).stack = (s.screen i).stack ∧ u.link i = b.link i ∧ u.sent = [] := by
  have judged : (b.panel i).judged b i = b.panel i := by
    rw [h.judgesShow kind]
    unfold Panel.judgeShow
    rw [State.panel_unready dark]
    cases top : (b.panel i).screen.visibleTop with
    | none => rfl
    | some q =>
      obtain ⟨m, y⟩ := q
      have top : (b.screen i).visibleTop = some (m, y) := top
      rw [h.screen.visibleTop] at top
      dsimp only
      rw [if_pos (lower m y top)]
      rfl
  obtain ⟨screen, link, sent⟩ := h.stands judged rfl (.inl (State.panel_unready dark))
  refine ⟨?_, ?_, link, sent⟩
  · refine State.waitsAt_of h.one.level ?_
    rw [screen]
    exact h.pending
  · rw [screen]
    exact h.screen.stack

theorem shownOverNothing (kind : r.kind ≠ .blank) (top : (s.screen i).visibleTop = none)
    (ready : (b.link i).state = .ready) :
    (∃ x, s.showSent u i l x ∧ x.carries r ∧ s.sentAndCopied u i (s.showOf i l x)) ∧ (u.screen i).pendingAt[l] = none ∧
      (s.screen i).counted (u.screen i) .shown 1 ∧ (s.screen i).counted (u.screen i) .late
        (if r.release + b.sch.lateTolerance < b.clock then 1 else 0) := by
  have judged : (b.panel i).judged b i = (b.panel i).grantShow b i l r := by
    have top : (b.panel i).screen.visibleTop = none := h.screen.visibleTop.trans top
    rw [h.judgesShow kind]
    unfold Panel.judgeShow
    rw [State.panel_ready.2 ready, top]
    rfl
  obtain ⟨shown, gone, d, kept⟩ := h.grants judged (Screen.sameFace_refl _)
  have selectors : (Panel.granted b l r (b.screen i)).selectors = (b.screen i).selectors := by rw [Panel.granted_eq]; rfl
  refine ⟨shown, gone, ?_, ?_⟩
  · exact h.screen.counted (by decide)
      (Screen.counted_trans (m := 0) selectors (Panel.granted_uncounted (by decide) (b.screen i)) kept.shown)
  · exact h.screen.counted (by decide)
      (Screen.counted_trans (n := 0) selectors (Panel.granted_counted_late (b.screen i)) (kept.uncounted _ (by decide)))

theorem pushed {m : Level} {y : Entry} (kind : r.kind ≠ .blank) (top : (s.screen i).visibleTop = some (m, y)) (lower : l < m)
    (ready : (b.link i).state = .ready) :
    (∃ x, s.showSent u i l x ∧ x.carries r ∧ s.sentAndCopied u i (s.showOf i l x)) ∧
      (u.screen i).stack[m] = some { y with visibleSince := none } ∧ (u.screen i).pendingAt[l] = none ∧
      (s.screen i).counted (u.screen i) .preempted 1 ∧ (s.screen i).counted (u.screen i) .shown 1 := by
  have judged : (b.panel i).judged b i = ((b.panel i).bury m y).grantShow b i l r := by
    have top : (b.panel i).screen.visibleTop = some (m, y) := h.screen.visibleTop.trans top
    rw [h.judgesShow kind]
    unfold Panel.judgeShow
    rw [State.panel_ready.2 ready, top]
    dsimp only
    rw [if_pos lower]
    rfl
  obtain ⟨shown, gone, d, kept⟩ := h.grants judged ⟨rfl, rfl, rfl, rfl, rfl⟩
  have selectors : (Panel.granted b l r ((b.panel i).bury m y).screen).selectors = (b.screen i).selectors := by
    rw [Panel.granted_eq]
    rfl
  have buried : ∀ {ev n}, (b.screen i).counted ((b.panel i).bury m y).screen ev n → ev ≠ .late →
      (b.screen i).counted (Panel.granted b l r ((b.panel i).bury m y).screen) ev n := fun c other => by
    have := Screen.counted_trans (z := Panel.granted b l r ((b.panel i).bury m y).screen) (n := 0) (by rfl) c
      (Panel.granted_uncounted other _)
    exact this
  refine ⟨shown, ?_, gone, ?_, ?_⟩
  · rw [kept.others m (ne_of_gt lower), Panel.granted_eq]
    exact Screen.setEntry_stack_self (b.screen i) m _
  · refine h.screen.counted (by decide) (Screen.counted_trans (n := 0) selectors (buried ?_ (by decide))
      (kept.uncounted _ (by decide)))
    exact Screen.counted_count_self .preempted ((b.screen i).setEntry m (some { y with visibleSince := none }))
  · refine h.screen.counted (by decide) (Screen.counted_trans (m := 0) selectors (buried ?_ (by decide)) kept.shown)
    exact Screen.counted_count_other (by decide) ((b.screen i).setEntry m (some { y with visibleSince := none }))

theorem grantedSilently {m : Level} {y : Entry} (kind : r.kind ≠ .blank) (top : (s.screen i).visibleTop = some (m, y))
    (place : (m < l ∧ (s.screen i).onScreen = .entry m y.serial) ∨
      (m = l ∧ y.visibleSince = none ∧ (b.link i).state ≠ .ready)) :
    (u.screen i).pendingAt[l] = none ∧ (u.link i = b.link i ∧ u.sent = []) ∧
      (∃ x, (u.screen i).stack[l] = some x ∧ x.carries r ∧ x.visibleSince = none) ∧
      ∀ k : Level, k ≠ l → (u.screen i).stack[k] = (s.screen i).stack[k] := by
  have here : (b.panel i).screen.visibleTop = some (m, y) := h.screen.visibleTop.trans top
  have judged : (b.panel i).judged b i = (b.panel i).insertSilently l r := by
    rw [h.judgesShow kind]
    unfold Panel.judgeShow
    rw [here]
    dsimp only
    rcases place with ⟨lower, -⟩ | ⟨same, unseen, -⟩
    · rw [if_neg (not_lt_of_gt lower), if_pos lower]
    · rw [if_neg (by rw [same]; exact lt_irrefl l), if_neg (by rw [same]; exact lt_irrefl l),
        if_pos (by rw [unseen]; rfl)]
  have stands : ((b.panel i).insertSilently l r).ready b i = false ∨
      ((b.panel i).insertSilently l r).screen.onScreen = .unknown ∨
        ((b.panel i).insertSilently l r).screen.agrees := by
    rcases place with ⟨lower, record⟩ | ⟨-, -, dark⟩
    · refine .inr (.inr (.inr ⟨m, y, Screen.visibleTop_beneath here lower rfl fun k apart => ?_, ?_⟩))
      · exact Screen.setEntry_stack_ne _ _ (Ne.symm apart)
      · exact h.screen.onScreen.trans record
    · exact .inl (State.panel_unready dark)
  obtain ⟨screen, link, sent⟩ := h.stands judged rfl stands
  refine ⟨?_, ⟨link, sent⟩, ⟨r.toEntry b.arb.entrySerial, ?_, ⟨rfl, rfl, rfl, rfl, rfl, rfl, rfl, rfl⟩, rfl⟩,
    fun k apart => ?_⟩
  · rw [screen]
    exact Screen.setPending_pending_self (b.screen i) l none
  · rw [screen]
    exact Screen.setEntry_stack_self ((b.screen i).setPending l none) l _
  · rw [screen]
    refine (Screen.setEntry_stack_ne ((b.screen i).setPending l none) _ (Ne.symm apart)).trans ?_
    exact congrArg (fun v : Vector (Option Entry) 8 => v[k]) h.screen.stack

theorem replaced {y : Entry} {v : Time} (kind : r.kind ≠ .blank) (top : (s.screen i).visibleTop = some (l, y))
    (since : y.visibleSince = some v) (passed : r.operator = true ∨ v + y.minDwell.getD 0 ≤ u.clock)
    (ready : (b.link i).state = .ready) : (u.screen i).pendingAt[l] = none ∧
      ∃ x, s.showSent u i l x ∧ x.carries r ∧ s.sentAndCopied u i (s.showOf i l x) := by
  have judged : (b.panel i).judged b i = (b.panel i).grantShow b i l r := by
    have here : (b.panel i).screen.visibleTop = some (l, y) := h.screen.visibleTop.trans top
    have due : (r.operator || y.dwellPassed b.clock) = true := by
      rw [h.clock] at passed
      unfold Entry.dwellPassed Entry.dwellEnd
      rw [since, Bool.or_eq_true]
      simpa using passed
    rw [h.judgesShow kind]
    unfold Panel.judgeShow
    rw [State.panel_ready.2 ready, here]
    dsimp only
    rw [if_neg (lt_irrefl l), if_neg (lt_irrefl l), since, due]
    rfl
  obtain ⟨shown, gone, -⟩ := h.grants judged (Screen.sameFace_refl _)
  exact ⟨gone, shown⟩

/-- A request that waits on the dwell of the shown top, before it has passed (R121, R122). -/
theorem judged_deferred {y : Entry} {v : Time} (manual : r.operator = false) (top : (s.screen i).visibleTop = some (l, y))
    (since : y.visibleSince = some v) (early : u.clock < v + y.minDwell.getD 0) :
    (b.panel i).judged b i = (b.panel i).defer b i l r := by
  have here : (b.panel i).screen.visibleTop = some (l, y) := h.screen.visibleTop.trans top
  have waits : y.dwellPassed b.clock = false := by
    rw [h.clock] at early
    unfold Entry.dwellPassed Entry.dwellEnd
    rw [since]
    simpa using early
  by_cases kind : r.kind = .blank
  · have entry : (b.panel i).screen.stack[l] = some y := (Screen.visibleTop_some here).1
    have shown : (b.panel i).screen.isShownTop l = true := Screen.isShownTop_iff.2 ⟨y, v, here, since⟩
    rw [h.judgesBlank kind]
    unfold Panel.judgeBlank
    rw [entry]
    dsimp only
    rw [if_pos shown, waits]
    rfl
  · rw [h.judgesShow kind]
    unfold Panel.judgeShow
    rw [here]
    dsimp only
    rw [if_neg (lt_irrefl l), if_neg (lt_irrefl l), since, waits, manual]
    rfl

/-- The panel of a request that has been found waiting on the dwell. -/
theorem deferred_screen (ready : (b.link i).state = .ready) : ((b.panel i).defer b i l r).message = none ∧
    ((b.panel i).defer b i l r).screen.pendingAt[l] = some { r with deferred := true } ∧
    (∀ m : Level, m ≠ l → ((b.panel i).defer b i l r).screen.pendingAt[m] = none) ∧
    ((b.panel i).defer b i l r).screen = { b.screen i with
      pendingAt := ((b.panel i).defer b i l r).screen.pendingAt
      counters := ((b.panel i).defer b i l r).screen.counters } ∧
    (b.screen i).counted ((b.panel i).defer b i l r).screen .deferred (if r.deferred then 0 else 1) := by
  unfold Panel.defer
  rw [State.panel_ready.2 ready]
  cases marked : r.deferred with
  | true =>
    have same : ({ r with deferred := true } : Request) = r := by rw [← marked]
    refine ⟨rfl, ?_, fun m apart => h.others apart, rfl, Screen.counted_refl _ rfl⟩
    rw [same]
    exact h.pending
  | false =>
    refine ⟨rfl, Screen.setPending_pending_self (b.screen i) l _, fun m apart => ?_, rfl, ?_⟩
    · exact (Screen.setPending_pending_ne (b.screen i) _ (Ne.symm apart)).trans (h.others apart)
    · exact Screen.counted_count_self .deferred ((b.screen i).setPending l (some { r with deferred := true }))

theorem isDeferred {y : Entry} {v : Time} (manual : r.operator = false) (top : (s.screen i).visibleTop = some (l, y))
    (since : y.visibleSince = some v) (early : u.clock < v + y.minDwell.getD 0) (ready : (b.link i).state = .ready)
    (record : (s.screen i).onScreen = .entry l y.serial) :
    u.waitsAt i { r with deferred := true } ∧ (u.screen i).stack = (s.screen i).stack ∧
      (u.link i = b.link i ∧ u.sent = []) ∧ (u.screen i).dwellTimer = some (v + y.minDwell.getD 0) ∧
      (s.screen i).counted (u.screen i) .deferred (if r.deferred then 0 else 1) := by
  have here : (b.screen i).visibleTop = some (l, y) := h.screen.visibleTop.trans top
  have early' : b.clock < v + y.minDwell.getD 0 := by rw [← h.clock]; exact early
  have judged := h.judged_deferred manual top since early
  obtain ⟨unsent, pending, -, frame, counted⟩ := h.deferred_screen ready
  generalize (b.panel i).defer b i l r = q at *
  have topQ : q.screen.visibleTop = some (l, y) := by
    rw [frame]
    exact here
  obtain ⟨screen, link, sent⟩ := h.stands judged unsent (.inr (.inr (.inr ⟨l, y, topQ, by
    rw [frame]
    exact h.screen.onScreen.trans record⟩)))
  have eligible : q.screen.eligible b.clock { r with deferred := true } = true := by
    rw [frame]
    exact h.eligible
  refine ⟨State.waitsAt_of (l := l) h.one.level ?_, ?_, ⟨link, sent⟩, ?_, ?_⟩
  · rw [screen]
    exact pending
  · rw [screen]
    refine Eq.trans ?_ h.screen.stack
    show q.screen.stack = _
    rw [frame]
  · rw [screen]
    exact Screen.dwellTimer_waiting topQ since pending eligible manual early'
  · rw [screen]
    exact h.screen.counted (by decide) counted

/-! ### A BLANK (R122) -/

theorem blankFindsNothing (kind : r.kind = .blank) (empty : (s.screen i).stack[l] = none) (agrees : (s.screen i).agrees) :
    (u.screen i).pendingAt[l] = none ∧ (u.screen i).stack = (s.screen i).stack ∧ u.link i = b.link i ∧ u.sent = [] := by
  have judged : (b.panel i).judged b i = (b.panel i).put ((b.screen i).setPending l none) := by
    have empty : (b.panel i).screen.stack[l] = none :=
      (congrArg (fun v : Vector (Option Entry) 8 => v[l]) h.screen.stack).trans empty
    rw [h.judgesBlank kind]
    unfold Panel.judgeBlank
    rw [empty]
    rfl
  obtain ⟨screen, link, sent⟩ := h.stands judged rfl (.inr (.inr (h.screen.agrees.2 agrees)))
  refine ⟨?_, ?_, link, sent⟩
  · rw [screen]
    exact Screen.setPending_pending_self (b.screen i) l _
  · rw [screen]
    exact h.screen.stack

theorem blankRemoves (kind : r.kind = .blank) (unshown : (s.screen i).isShownTop l = false) :
    (u.screen i).pendingAt[l] = none ∧ (u.screen i).stack[l] = none := by
  obtain ⟨q, judged, pending, empty⟩ : ∃ q, (b.panel i).judged b i = q ∧ q.screen.pendingAt[l] = none ∧
      q.screen.stack[l] = none := by
    refine ⟨_, rfl, ?_⟩
    have unshown : (b.panel i).screen.isShownTop l = false := (h.screen.isShownTop l).trans unshown
    rw [h.judgesBlank kind]
    unfold Panel.judgeBlank
    rw [unshown]
    cases entry : (b.panel i).screen.stack[l] with
    | none => exact ⟨Screen.setPending_pending_self (b.screen i) l none, entry⟩
    | some y =>
      exact ⟨Screen.setPending_pending_self (b.screen i) l none,
        Screen.setEntry_stack_self ((b.screen i).setPending l none) l none⟩
  have screen : u.screen i = (q.refreshed b i .default).screen.retime b.clock := by
    rw [h.rest.screen, State.evaluate_judged h.here judged, State.realized_screen h.here]
    rfl
  rw [screen]
  exact ⟨(congrArg (fun v : Vector (Option Request) 8 => v[l]) Panel.refreshed_pendingAt).trans pending,
    Panel.refreshed_empty empty⟩

theorem blankTakesDown {y : Entry} {v : Time} (kind : r.kind = .blank) (top : (s.screen i).visibleTop = some (l, y))
    (since : y.visibleSince = some v) (passed : v + y.minDwell.getD 0 ≤ u.clock) (ready : (b.link i).state = .ready)
    (record : (s.screen i).onScreen = .entry l y.serial) (alone : ∀ m : Level, m ≠ l → (s.screen i).stack[m] = none) :
    (u.screen i).pendingAt[l] = none ∧ (u.screen i).stack[l] = none ∧ s.clearSent u i r.override ∧
      s.sentAndCopied u i (fun m => m.isClear r.override) := by
  have top' : (b.panel i).screen.visibleTop = some (l, y) := h.screen.visibleTop.trans top
  let p := (b.panel i).put (((b.screen i).setPending l none).setEntry l none)
  have bare : p.screen.visibleTop = none := Screen.visibleTop_none.2 fun m _ => by
    by_cases same : m = l
    · subst same
      exact Screen.setEntry_stack_self _ _ _
    · refine (Screen.setEntry_stack_ne _ _ (Ne.symm same)).trans ?_
      exact (congrArg (fun v : Vector (Option Entry) 8 => v[m]) h.screen.stack).trans (alone m same)
  have record' : p.screen.onScreen = .entry l y.serial := h.screen.onScreen.trans record
  have judged : (b.panel i).judged b i = p.cleared r.override := by
    have dwelt : y.dwellPassed b.clock = true := by
      rw [h.clock] at passed
      unfold Entry.dwellPassed Entry.dwellEnd
      rw [since]
      simpa using passed
    rw [h.judgesBlank kind]
    unfold Panel.judgeBlank
    rw [(Screen.visibleTop_some top').1]
    dsimp only
    rw [if_pos (Screen.isShownTop_iff.2 ⟨y, v, top', since⟩), if_pos dwelt, if_pos (State.panel_ready.2 ready)]
    exact Panel.refreshed_clear (p := p) r.override (State.panel_ready.2 ready) (by rw [record']; simp) bare
      (by rw [record']; simp)
  have evaluated := State.evaluate_judged h.here judged
  rw [Panel.refreshed_of_unready _ (Panel.ready_of_sent rfl)] at evaluated
  have face : (s.screen i).sameFace p.screen := h.screen.face
  have onScreen : ((p.cleared r.override).screen.retime b.clock).onScreen = .blank := by
    show (p.cleared r.override).screen.onScreen = _
    rw [Panel.cleared_screen]
  have preferred : ((p.cleared r.override).screen.retime b.clock).preferred = p.screen.preferred := by
    show (p.cleared r.override).screen.preferred = _
    rw [Panel.cleared_screen]
  have cleared := State.cleared_cleared h.alike h.plain face r.override onScreen preferred
  have left := State.panel_framesLeft h.alike h.plain face
    (q := (p.cleared r.override).put ((p.cleared r.override).screen.retime b.clock)) rfl preferred
  rw [← evaluated] at cleared left
  have cleared := cleared.later h.rest h.mirror
  have screen : u.screen i = (p.cleared r.override).screen.retime b.clock := by
    rw [h.rest.screen, evaluated, State.realized_screen h.here]
    rfl
  refine ⟨?_, ?_, cleared.clearSent,
    cleared.sent.sentAndCopied (State.framesLeft_begun left h.sent h.unsent) cleared.clears⟩
  · rw [screen]
    show (p.cleared r.override).screen.pendingAt[l] = none
    rw [Panel.cleared_screen]
    exact Screen.setPending_pending_self (b.screen i) l none
  · rw [screen]
    show (p.cleared r.override).screen.stack[l] = none
    rw [Panel.cleared_screen]
    exact Screen.setEntry_stack_self ((b.screen i).setPending l none) l none

/-- The request judged, clause by clause. -/
theorem requestJudged {ready stands : Prop} (manual : r.operator = false) (readies : ready ↔ (b.link i).state = .ready)
    (same : u.link i = b.link i → u.sent = [] → stands) : s.requestJudged u i l r ready stands := by
  refine ⟨fun kind lower dark => ?_, fun kind top bright => ?_, fun m y kind top lower bright => ?_,
    fun m y kind top place => ?_, fun y v top since early bright record => ?_,
    fun y v kind top since passed bright => ?_, fun kind empty agrees => ?_, h.blankRemoves,
    fun y v kind top since passed bright record alone => ?_⟩
  · obtain ⟨waits, stack, link, sent⟩ := h.waits kind lower fun bright => dark (readies.2 bright)
    exact ⟨waits, stack, same link sent⟩
  · obtain ⟨shown, gone, counted, -⟩ := h.shownOverNothing kind top (readies.1 bright)
    exact ⟨shown, gone, counted⟩
  · exact h.pushed kind top lower (readies.1 bright)
  · obtain ⟨gone, ⟨link, sent⟩, entry, others⟩ := h.grantedSilently kind top (by
      rcases place with above | ⟨e, unseen, dark⟩
      · exact .inl above
      · exact .inr ⟨e, unseen, fun bright => dark (readies.2 bright)⟩)
    exact ⟨gone, same link sent, entry, others⟩
  · obtain ⟨waits, stack, ⟨link, sent⟩, timer, counted⟩ := h.isDeferred manual top since early (readies.1 bright) record
    exact ⟨waits, stack, same link sent, timer, counted⟩
  · exact h.replaced kind top since (.inr passed) (readies.1 bright)
  · obtain ⟨gone, stack, link, sent⟩ := h.blankFindsNothing kind empty agrees
    exact ⟨gone, stack, same link sent⟩
  · exact h.blankTakesDown kind top since passed (readies.1 bright) record alone

end State.Judging

end Sys2Proof.Machine
end

section
/-! Notice ends (R128), and the timers of a screen (R117, R120, R121, R128). -/

namespace Sys2Proof.Machine

/-! ### Notice ends on a READY link -/

/-- Emptying a place where the condition holds filters it. -/
theorem set_filter_not {α : Type} (v : Vector (Option α) 8) (l : Level) (q : α → Bool) :
    v.set l (v[l].filter fun a => !q a) = if v[l].any q then v.set l none else v := by
  have same : v.set l v[l] = v := Vector.set_getElem_self _
  cases h : v[l] with
  | none =>
    rw [h] at same
    simpa using same
  | some a =>
    rw [h] at same
    cases hq : q a with
    | true => simp [Option.filter, hq]
    | false => simpa [Option.filter, hq] using same

/-- The notice ends of some levels, on a READY link, filter the entries and the requests there. -/
theorem Screen.endNoticesEach (now : Time) : ∀ (ls : List Level) (x : Screen), ls.foldl (Screen.endNoticeAt now true) x =
    { x with
      stack := Vector.ofFn fun l : Level => if l ∈ ls then x.stack[l].filter fun e =>
        !e.endTime.any fun T => decide (T ≤ now) else x.stack[l]
      pendingAt := Vector.ofFn fun l : Level => if l ∈ ls then x.pendingAt[l].filter fun r =>
        !r.endTime.any fun T => decide (T ≤ now) else x.pendingAt[l] } := by
  intro ls
  induction ls with
  | nil =>
    intro x
    have stack : (Vector.ofFn fun l : Level => x.stack[l]) = x.stack := Vector.ext fun k hk => by simp
    have pending : (Vector.ofFn fun l : Level => x.pendingAt[l]) = x.pendingAt := Vector.ext fun k hk => by simp
    simp only [List.foldl_nil, List.not_mem_nil, if_false]
    rw [stack, pending]
  | cons l ls ih =>
    intro x
    have step : x.endNoticeAt now true l = { x with
        stack := x.stack.set l (x.stack[l].filter fun e => !e.endTime.any fun T => decide (T ≤ now))
        pendingAt := x.pendingAt.set l (x.pendingAt[l].filter fun r => !r.endTime.any fun T => decide (T ≤ now)) } := by
      rw [set_filter_not, set_filter_not]
      unfold Screen.endNoticeAt
      extract_lets y
      have kept : y.stack = x.stack := by
        unfold y
        split <;> rfl
      have pending : y.pendingAt = if x.pendingAt[l].any (fun r => r.endTime.any fun T => decide (T ≤ now))
          then x.pendingAt.set l none else x.pendingAt := by
        unfold y
        split <;> rfl
      have frame : y = { x with pendingAt := y.pendingAt } := by
        unfold y
        split <;> rfl
      rw [Bool.not_true, Bool.and_false, Bool.not_false, Bool.and_true, kept, ← pending]
      split
      · unfold Screen.setEntry
        rw [kept, frame]
      · exact frame
    have filtered : ∀ {α : Type} (v : Vector (Option α) 8) (p : α → Bool), (Vector.ofFn fun k : Level =>
        if k ∈ ls then (v.set l (v[l].filter p))[k].filter p else (v.set l (v[l].filter p))[k]) =
        Vector.ofFn fun k : Level => if k ∈ l :: ls then v[k].filter p else v[k] := by
      intro α v p
      refine Vector.ext fun k hk => ?_
      rw [Vector.getElem_ofFn, Vector.getElem_ofFn]
      by_cases same : (⟨k, hk⟩ : Level) = l
      · subst same
        simp [Option.filter_filter]
      · have ne : l.val ≠ k := fun e => same (Fin.ext e.symm)
        simp [same, ne]
    rw [List.foldl_cons, ih, step]
    dsimp only
    rw [filtered, filtered]

/-- On a READY link step 1 takes the ended notices off (R128). -/
theorem Screen.endNotices_ready (x : Screen) (now : Time) : x.endNotices now true = x.noticesEnded now := by
  unfold Screen.endNotices Screen.noticesEnded
  rw [Screen.endNoticesEach]
  simp only [mem_allLevels, if_true]

theorem Panel.opened_ready {s : State} {i : Screen16} {p : Panel} (ready : p.ready s i = true)
    (blank : p.screen.blankPending = false) : p.opened s i = p.put (p.screen.noticesEnded s.clock) := by
  unfold Panel.opened
  rw [ready, Screen.endNotices_ready, Screen.carryOutBlank_stands]
  exact .inl blank

/-- A lone shown notice at its end is removed, and CLEAR leaves (R128, R123). -/
theorem State.noticeTakenDown {s b u : State} {i : Screen16} {l : Level} {y : Entry} {T : Time}
    (alike : State.Alike i s b) (plain : s.isMonitor i = false) (screen : (s.screen i).Recounted (b.screen i))
    (unsent : b.sent = []) (rest : State.Untouched i (b.evaluate i) u) (sent : u.sent = (b.evaluate i).sent)
    (ready : (b.link i).state = .ready) (blank : (s.screen i).blankPending = false)
    (idle : ∀ m : Level, (s.screen i).pendingAt[m] = none) (entry : (s.screen i).stack[l] = some y)
    (ends : y.endTime = some T) (past : T ≤ b.clock) (alone : ∀ m : Level, m ≠ l → (s.screen i).stack[m] = none)
    (record : (s.screen i).onScreen = .entry l y.serial) :
    (u.screen i).stack[l] = none ∧ s.clearSent u i .default ∧ s.sentAndCopied u i (fun m => m.isClear .default) := by
  let p := (b.panel i).put ((b.screen i).noticesEnded b.clock)
  have readied : p.ready b i = true := State.panel_ready.2 ready
  have opened : (b.panel i).opened b i = p :=
    Panel.opened_ready (State.panel_ready.2 ready) (screen.blankPending.trans blank)
  have bare : ∀ m : Level, p.screen.stack[m] = none := by
    intro m
    show ((b.screen i).noticesEnded b.clock).stack[m] = none
    unfold Screen.noticesEnded
    dsimp only
    rw [screen.stack, Fin.getElem_fin, Vector.getElem_ofFn]
    by_cases same : m = l
    · subst same
      rw [entry]
      simp [Option.filter, ends, past]
    · rw [alone m same]
      rfl
  have judged : (b.panel i).judged b i = p := by
    unfold Panel.judged
    rw [opened]
    refine Panel.judgeEach_idle _ fun m _ r pending => ?_
    have : p.screen.pendingAt[m] = none := by
      show ((b.screen i).noticesEnded b.clock).pendingAt[m] = none
      unfold Screen.noticesEnded
      dsimp only
      rw [screen.pendingAt, Fin.getElem_fin, Vector.getElem_ofFn, idle m]
      rfl
    rw [this] at pending
    cases pending
  have face : (s.screen i).sameFace p.screen := screen.face
  have known : p.screen.onScreen = .entry l y.serial := screen.onScreen.trans record
  obtain ⟨cleared, left, stack, -⟩ := State.evaluate_clears alike plain judged face readied (by rw [known]; simp)
    (Screen.visibleTop_none.2 fun m _ => bare m) (by rw [known]; simp)
  have cleared := cleared.later rest ((State.evaluate_mirror i b).trans alike.mirror)
  refine ⟨?_, cleared.clearSent, cleared.sent.sentAndCopied (State.framesLeft_begun left sent unsent) cleared.clears⟩
  rw [rest.screen]
  exact (congrArg (fun v : Vector (Option Entry) 8 => v[l]) stack).trans (bare l)

/-! ### The timers -/

theorem State.evaluate_othersStand {s : State} {i : Screen16} (plain : s.isMonitor i = false) :
    s.othersStand (s.evaluate i) i := by
  rw [State.evaluate_eq plain]
  exact State.realized_othersStand _

theorem expired_some {now e : Time} {timer : Option Time} (runs : timer = some e) (past : e ≤ now) :
    expired now timer = true := by
  unfold expired
  rw [runs]
  simpa using past

/-- A request judged as a timer of its screen expires. -/
theorem State.timer_judging {s : State} {t : Time} {i : Screen16} {l : Level} {r : Request}
    (lone : s.LoneRequest i l r (max s.clock t)) : s.Judging (s.begin t) ((s.begin t).evaluate i) i l r :=
  ⟨State.begin_alike s t i, lone, Screen.Recounted.refl _, rfl, State.Untouched.refl i _, rfl⟩

/-- Settles O53: each timer evaluates its screen, where the one request, or the one notice end, is judged. -/
theorem screenTimers : Obligations.ScreenTimers := by
  refine ⟨fun t s i l plain ready blank unmasked alone => ⟨fun r pending level kind released endless => ⟨?_, ?_⟩, ?_⟩, ?_⟩
  · intro e runs past empty
    have fires : exec (.releaseTimer t i) s = .next ((s.begin t).evaluate i) :=
      congrArg Host.Outcome.next (if_pos (expired_some runs past))
    have judging := State.timer_judging (t := t) ⟨plain, blank, unmasked, pending, level, released, endless,
      fun m apart => (alone m apart).2, fun m y entry => by
        by_cases same : m = l
        · subst same
          rw [empty] at entry
          cases entry
        · rw [(alone m same).1] at entry
          cases entry⟩
    have bare : (s.screen i).visibleTop = none := Screen.visibleTop_none.2 fun m _ => by
      by_cases same : m = l
      · subst same
        exact empty
      · exact (alone m same).1
    obtain ⟨shown, gone, counted, late⟩ := judging.shownOverNothing kind bare ready
    exact ⟨_, fires, linkFrame _ s _ rfl fires, gone, shown, counted, late, State.evaluate_othersStand (s := s.begin t) plain⟩
  · intro e y v runs past entry since passed endlessEntry
    have fires : exec (.dwellTimer t i) s = .next ((s.begin t).evaluate i) :=
      congrArg Host.Outcome.next (if_pos (expired_some runs past))
    have judging := State.timer_judging (t := t) ⟨plain, blank, unmasked, pending, level, released, endless,
      fun m apart => (alone m apart).2, fun m y' entry' => by
        by_cases same : m = l
        · subst same
          rw [entry] at entry'
          cases entry'
          exact endlessEntry
        · rw [(alone m same).1] at entry'
          cases entry'⟩
    have top : (s.screen i).visibleTop = some (l, y) :=
      Screen.visibleTop_iff.2 ⟨entry, unmasked, fun k lower _ => (alone k (ne_of_lt lower)).1⟩
    obtain ⟨gone, shown⟩ := judging.replaced kind top since (.inr (by rw [judging.clock]; exact passed)) ready
    exact ⟨_, fires, linkFrame _ s _ rfl fires, gone, shown, State.evaluate_othersStand (s := s.begin t) plain⟩
  · intro e y T runs past idle entry ends reached record
    have fires : exec (.noticeTimer t i) s = .next ((s.begin t).evaluate i) :=
      congrArg Host.Outcome.next (if_pos (expired_some runs past))
    obtain ⟨gone, cleared, sent⟩ := State.noticeTakenDown (State.begin_alike s t i) plain (Screen.Recounted.refl _) rfl
      (State.Untouched.refl i _) rfl ready blank (fun m => by
        by_cases same : m = l
        · subst same
          exact idle
        · exact (alone m same).2) entry ends reached (fun m apart => (alone m apart).1) record
    exact ⟨_, fires, linkFrame _ s _ rfl fires, gone, cleared, sent, State.evaluate_othersStand (s := s.begin t) plain⟩
  · intro t s i l r e runs past one
    have fires : exec (.releaseTimer t i) s = .next ((s.begin t).evaluate i) :=
      congrArg Host.Outcome.next (if_pos (expired_some runs past))
    obtain ⟨lone, manual⟩ := State.oneRequest_lone one
    exact ⟨_, fires, linkFrame _ s _ rfl fires, State.evaluate_othersStand (s := s.begin t) lone.plain,
      (State.timer_judging lone).requestJudged manual Iff.rfl fun link sent => ⟨link, sent⟩⟩

end Sys2Proof.Machine
end

section
/-! A desk BLANK carried out (R129, R119, R123). -/

namespace Sys2Proof.Machine

/-- A screen whose flag BLANK-pending is clear stays so through an evaluation. -/
theorem Screen.kept_unpressed : Screen.Kept fun y => y.blankPending = false where
  stack _ _ _ h := h
  pending _ _ _ h := h
  count _ _ _ _ _ h := h
  sent y m h := by
    rw [Screen.sentMessage_frame]
    exact h
  staged y h := by
    rw [Screen.applyStaged_frame]
    exact h
  pressed _ _ := rfl
  retimed _ _ h := h

/-- The flag BLANK-pending cleared. -/
def Screen.unpressed (x : Screen) : Screen := { x with blankPending := false }

/-- On a READY link step 2 clears the flag, and takes a visible top at level 1 or above down. -/
theorem Screen.carryOutBlank_pressed {x : Screen} (pressed : x.blankPending = true) : x.carryOutBlank true =
    match x.visibleTop with
    | some (l, _) => if l = 0 then x.unpressed else x.unpressed.setEntry l none
    | none => x.unpressed := by
  have top : x.unpressed.visibleTop = x.visibleTop := Screen.visibleTop_congr rfl rfl
  unfold Screen.carryOutBlank
  rw [if_pos (by rw [pressed]; rfl), ← top]
  rfl

theorem Screen.carryOutBlank_clears (x : Screen) : (x.carryOutBlank true).blankPending = false := by
  cases pressed : x.blankPending with
  | true =>
    rw [Screen.carryOutBlank_pressed pressed]
    split
    · split <;> rfl
    · rfl
  | false => rw [Screen.carryOutBlank_stands (.inl pressed), pressed]

/-- In `b` screen `i` of `s` is evaluated with its flag BLANK-pending set on a READY link, and `u` is what the step leaves. -/
structure State.Pressed (s b u : State) (i : Screen16) : Prop where
  alike : State.Alike i s b
  plain : s.isMonitor i = false
  screen : ({ s.screen i with blankPending := true } : Screen).Recounted (b.screen i)
  ready : (b.link i).state = .ready
  rest : State.Untouched i (b.evaluate i) u
  sent : (∀ l e, (s.screen i).visibleTop = some (l, e) → l = 0) → u.sent = (b.evaluate i).sent ∧ b.sent = []

theorem Panel.opened_screen (s : State) (i : Screen16) (p : Panel) :
    (p.opened s i).screen = (p.screen.endNotices s.clock (p.ready s i)).carryOutBlank (p.ready s i) := by
  unfold Panel.opened Panel.put
  dsimp only

namespace State.Pressed

variable {s b u : State} {i : Screen16} (h : s.Pressed b u i)
include h

theorem here : b.isMonitor i = false := (State.isMonitor_alike h.alike i).trans h.plain

theorem mirror : (b.evaluate i).arb.mirror = s.arb.mirror := (State.evaluate_mirror i b).trans h.alike.mirror

theorem clock : u.clock = b.clock := by
  rw [h.rest.clock, State.evaluate_eq h.here]
  exact State.realized_clock _

theorem top : (b.screen i).visibleTop = (s.screen i).visibleTop :=
  h.screen.visibleTop.trans (Screen.visibleTop_congr rfl rfl)

theorem ends (entries : ∀ (l : Level) (y : Entry) (T : Time), (s.screen i).stack[l] = some y → y.endTime = some T →
    u.clock < T) (requests : ∀ (l : Level) (r : Request) (T : Time), (s.screen i).pendingAt[l] = some r →
      r.endTime = some T → u.clock < T) : (b.screen i).noneEnded b.clock := by
  rw [h.clock] at entries requests
  rintro l T (entry | request)
  · rw [h.screen.stack] at entry
    obtain ⟨y, hy, hT⟩ := Option.bind_eq_some_iff.1 entry
    exact entries l y T hy hT
  · rw [h.screen.pendingAt] at request
    obtain ⟨r, hr, hT⟩ := Option.bind_eq_some_iff.1 request
    exact requests l r T hr hT

/-- Steps 1 and 2 with no notice ended. -/
theorem opened (ends : (b.screen i).noneEnded b.clock) :
    (b.panel i).opened b i = (b.panel i).put ((b.screen i).carryOutBlank true) := by
  unfold Panel.opened
  rw [State.panel_ready.2 h.ready, Screen.endNotices_stands (x := (b.panel i).screen) true ends]
  rfl

/-- The flag is clear afterwards. -/
theorem unpressed : (u.screen i).blankPending = false := by
  rw [h.rest.screen, State.evaluate_eq h.here, State.realized_screen h.here]
  refine Screen.kept_unpressed.evaluatedFrom ?_
  rw [Panel.opened_screen, State.panel_ready.2 h.ready]
  exact Screen.carryOutBlank_clears _

/-- Without a visible top at level 1 or above, the flag alone changes. -/
theorem opened_bare (ends : (b.screen i).noneEnded b.clock) (bare : ∀ l e, (s.screen i).visibleTop = some (l, e) → l = 0) :
    (b.panel i).opened b i = (b.panel i).put (b.screen i).unpressed := by
  rw [h.opened ends, Screen.carryOutBlank_pressed h.screen.blankPending, h.top]
  cases top : (s.screen i).visibleTop with
  | none => rfl
  | some q =>
    obtain ⟨l, e⟩ := q
    dsimp only
    rw [if_pos (bare l e top)]

/-- A visible top at level 1 or above is taken down. -/
theorem opened_taken (ends : (b.screen i).noneEnded b.clock) {l : Level} {e : Entry}
    (top : (s.screen i).visibleTop = some (l, e)) (title : l ≠ 0) :
    (b.panel i).opened b i = (b.panel i).put ((b.screen i).unpressed.setEntry l none) := by
  rw [h.opened ends, Screen.carryOutBlank_pressed h.screen.blankPending, h.top, top]
  dsimp only
  rw [if_neg title]

/-- What is visible once the top is taken down. -/
theorem beneath (l : Level) : ((b.screen i).unpressed.setEntry l none).visibleTop = ((s.screen i).setEntry l none).visibleTop :=
  Screen.visibleTop_congr (by
    show (b.screen i).mask = _
    rw [h.screen.frame]
    rfl) (congrArg (fun v : Vector (Option Entry) 8 => v.set l none) h.screen.stack)

/-- The pending requests stand through the evaluation when none of them is released. -/
theorem quiet {q : Panel} (opened : (b.panel i).opened b i = q) (pending : q.screen.pendingAt = (s.screen i).pendingAt)
    (later : ∀ (l : Level) (r : Request), (s.screen i).pendingAt[l] = some r → u.clock < r.release) :
    (b.panel i).judged b i = q ∧ (u.screen i).pendingAt = (s.screen i).pendingAt := by
  have judged : (b.panel i).judged b i = q := by
    unfold Panel.judged
    rw [opened]
    refine Panel.judgeEach_released _ fun l r request => .inl ?_
    rw [pending] at request
    rw [← h.clock]
    exact later l r request
  refine ⟨judged, ?_⟩
  rw [h.rest.screen, State.evaluate_judged h.here judged, State.realized_screen h.here, ← pending]
  exact Panel.refreshed_pendingAt

/-- The top taken down, and what is beneath shown, or CLEAR sent (R123). -/
theorem takesDown (entries : ∀ (l : Level) (y : Entry) (T : Time), (s.screen i).stack[l] = some y →
      y.endTime = some T → u.clock < T)
    (requests : ∀ (l : Level) (r : Request), (s.screen i).pendingAt[l] = some r → u.clock < r.release ∧
      ∀ T, r.endTime = some T → u.clock < T) {l : Level} {e : Entry} (top : (s.screen i).visibleTop = some (l, e))
    (title : l ≠ 0) (known : (s.screen i).onScreen ≠ .unknown) : (u.screen i).stack[l] = none ∧
      (((s.screen i).setEntry l none).visibleTop = none → (s.screen i).onScreen ≠ .blank →
        s.clearSent u i .default ∧ ∃ c : Message, c.isClear .default ∧ s.copied u i c) ∧
      ∀ m y, ((s.screen i).setEntry l none).visibleTop = some (m, y) → (s.screen i).onScreen ≠ .entry m y.serial →
        ∃ x c, s.showSent u i m x ∧ x.serial = y.serial ∧ s.showOf i m x c ∧ s.copied u i c := by
  have ends := h.ends entries fun l r T hr hT => (requests l r hr).2 T hT
  let q := (b.panel i).put ((b.screen i).unpressed.setEntry l none)
  obtain ⟨judged, -⟩ := h.quiet (q := q) (h.opened_taken ends top title) h.screen.pendingAt fun l r hr => (requests l r hr).1
  have ready : q.ready b i = true := State.panel_ready.2 h.ready
  have record : q.screen.onScreen = (s.screen i).onScreen := h.screen.onScreen
  have beneath := h.beneath l
  have face : (s.screen i).sameFace q.screen := h.screen.face
  refine ⟨?_, fun bare shown => ?_, fun m y next differs => ?_⟩
  · rw [h.rest.screen, State.evaluate_judged h.here judged, State.realized_screen h.here]
    exact Panel.refreshed_empty (Screen.setEntry_stack_self _ _ _)
  · obtain ⟨cleared, -⟩ := State.evaluate_clears h.alike h.plain judged face ready (by rw [record]; exact known)
      (beneath.trans bare) (by rw [record]; exact shown)
    have cleared := cleared.later h.rest h.mirror
    exact ⟨cleared.clearSent, _, cleared.clears, cleared.sent.copied⟩
  · obtain ⟨showed, -⟩ := State.evaluate_shows h.alike h.plain judged face ready (by rw [record]; exact known)
      (beneath.trans next) (by rw [record]; exact differs)
    have showed := showed.later h.rest h.mirror
    obtain ⟨d, sent, shows⟩ := showed.showSent
    exact ⟨_, _, sent, rfl, shows, showed.sent.copied⟩

/-- With nothing to take down a screen that agrees with its record stays. -/
theorem bareStands (entries : ∀ (l : Level) (y : Entry) (T : Time), (s.screen i).stack[l] = some y →
      y.endTime = some T → u.clock < T)
    (requests : ∀ (l : Level) (r : Request), (s.screen i).pendingAt[l] = some r → u.clock < r.release ∧
      ∀ T, r.endTime = some T → u.clock < T) (bare : ∀ l e, (s.screen i).visibleTop = some (l, e) → l = 0)
    (agrees : (s.screen i).agrees) : (u.screen i).stack = (s.screen i).stack ∧ u.sent = [] := by
  have ends := h.ends entries fun l r T hr hT => (requests l r hr).2 T hT
  obtain ⟨judged, -⟩ := h.quiet (q := (b.panel i).put (b.screen i).unpressed) (h.opened_bare ends bare) h.screen.pendingAt
    fun l r hr => (requests l r hr).1
  have evaluated := State.evaluate_stands h.here judged rfl (.inr (.inr (h.screen.agrees.2 agrees)))
  obtain ⟨sent, unsent⟩ := h.sent bare
  refine ⟨?_, ?_⟩
  · rw [h.rest.screen, evaluated]
    exact (congrArg Screen.stack (State.setScreen_screen_self b i ((b.screen i).unpressed.retime b.clock))).trans
      h.screen.stack
  · rw [sent, evaluated]
    exact unsent

/-- A request that stands above all that is left is shown in the place of the top taken down (R120). -/
theorem replaces (entries : ∀ (l : Level) (y : Entry) (T : Time), (s.screen i).stack[l] = some y →
      y.endTime = some T → u.clock < T) {l p : Level} {e : Entry} {r : Request}
    (top : (s.screen i).visibleTop = some (l, e)) (title : l ≠ 0) (pending : (s.screen i).pendingAt[p] = some r)
    (level : r.level = p) (kind : r.kind ≠ .blank) (released : r.release ≤ u.clock) (endless : r.endTime = none)
    (unmasked : (s.screen i).masked p = false) (only : ∀ m : Level, m ≠ p → (s.screen i).pendingAt[m] = none)
    (above : ∀ m y, ((s.screen i).setEntry l none).visibleTop = some (m, y) → p < m) :
    (u.screen i).pendingAt[p] = none ∧ (p ≠ l → (u.screen i).stack[l] = none) ∧
      ∃ x c, s.showSent u i p x ∧ x.carries r ∧ s.showOf i p x c ∧ s.copied u i c := by
  have ends := h.ends entries fun m q T request hT => by
    by_cases same : m = p
    · subst same
      rw [pending] at request
      cases request
      rw [endless] at hT
      cases hT
    · rw [only m same] at request
      cases request
  let q := (b.panel i).put ((b.screen i).unpressed.setEntry l none)
  have ready : q.ready b i = true := State.panel_ready.2 h.ready
  have request : q.screen.pendingAt[p] = some r :=
    (congrArg (fun v : Vector (Option Request) 8 => v[p]) h.screen.pendingAt).trans pending
  have eligible : q.screen.eligible b.clock r = true := by
    rw [Screen.eligible_iff, level, ← h.clock]
    exact ⟨released, (h.screen.masked p).trans unmasked⟩
  have judged : (b.panel i).judged b i = q.judgeShow b i p r := by
    unfold Panel.judged
    rw [h.opened_taken ends top title, Panel.judgeEach_only (l := p) fun m apart =>
      (congrArg (fun v : Vector (Option Request) 8 => v[m]) h.screen.pendingAt).trans (only m apart)]
    show q.judge b i p = _
    unfold Panel.judge
    rw [request]
    dsimp only
    rw [if_pos eligible]
    cases hk : r.kind with
    | blank => exact absurd hk kind
    | title => rfl
    | notice => rfl
  obtain ⟨q', granted, face, gone⟩ : ∃ q' : Panel, (b.panel i).judged b i = q'.grantShow b i p r ∧
      (s.screen i).sameFace q'.screen ∧ q'.screen.stack[l] = none := by
    rw [judged]
    unfold Panel.judgeShow
    rw [ready]
    have taken : q.screen.stack[l] = none := Screen.setEntry_stack_self _ _ _
    cases next : q.screen.visibleTop with
    | none => exact ⟨q, rfl, h.screen.face, taken⟩
    | some n =>
      obtain ⟨m, y⟩ := n
      have lower : p < m := above m y ((h.beneath l).symm.trans next)
      dsimp only
      rw [if_pos lower]
      refine ⟨q.bury m y, rfl, h.screen.face, ?_⟩
      have apart : m ≠ l := by
        rintro rfl
        rw [(Screen.visibleTop_some next).1] at taken
        cases taken
      exact (Screen.setEntry_stack_ne q.screen _ apart).trans taken
  obtain ⟨showed, -, d, kept⟩ := State.evaluate_grants h.alike h.plain granted face
  have showed := showed.later h.rest h.mirror
  obtain ⟨d', sent, shows⟩ := State.Showed.showSent (e := r.toEntry q'.serial) showed
  rw [← h.rest.screen] at kept
  refine ⟨?_, fun apart => ?_, _, _, sent, Request.toEntry_carries r _ _ _, shows, showed.sent.copied⟩
  · rw [kept.pending, Panel.granted_eq]
    exact Screen.setPending_pending_self _ _ _
  · rw [kept.others l (Ne.symm apart), Panel.granted_eq]
    exact gone

/-- The desk BLANK is carried out (R129). -/
theorem carriedOut : s.blankCarriedOut u i := by
  refine ⟨h.unpressed, fun entries => ⟨fun requests => ⟨?_, fun l e top title known => ?_, fun bare agrees => ?_⟩,
    fun l p e r top title pending level kind released endless unmasked only above => ?_⟩⟩
  · have ends := h.ends entries fun l r T hr hT => (requests l r hr).2.2 T hT
    by_cases bare : ∀ l e, (s.screen i).visibleTop = some (l, e) → l = 0
    · exact (h.quiet (h.opened_bare ends bare) h.screen.pendingAt fun l r hr => (requests l r hr).2.1).2
    · simp only [not_forall] at bare
      obtain ⟨l, e, top, title⟩ := bare
      exact (h.quiet (h.opened_taken ends top title) h.screen.pendingAt fun l r hr => (requests l r hr).2.1).2
  · exact h.takesDown entries (fun l r hr => (requests l r hr).2) top title known
  · exact h.bareStands entries (fun l r hr => (requests l r hr).2) bare agrees
  · exact h.replaces entries top title pending level kind released endless unmasked only above

end State.Pressed

end Sys2Proof.Machine
end

section
/-! The replies of a link: DONE, REFUSED and the reply timer (R148 to R151). -/

namespace Sys2Proof.Machine

/-! ### A record in the journal queue -/

theorem Bus.journaled (x : JournalRecord) : Bus fun s => x ∈ s.smi.journalQueue where
  journalAt t b s h := by
    rw [(State.journalAt_journal t b s).2]
    split
    · exact List.mem_append_left _ h
    · exact h
  smi m s core h := by
    obtain ⟨-, -, -, -, -, queue, -⟩ := core
    show x ∈ m.journalQueue
    rw [queue]
    exact h
  setCause _ _ h := h
  enqueue _ _ h := h

/-- A record stays in the queue through the end of a pause. -/
theorem Ends.journaled (x : JournalRecord) : Ends fun s => x ∈ s.smi.journalQueue :=
  { Bus.journaled x with setCtl := fun _ _ h => h }

theorem State.journal_mem {s : State} (b : Journal) (room : s.smi.journalQueue.length < 16) :
    (⟨s.smi.journalCount, s.clock, b⟩ : JournalRecord) ∈ (s.journal b).smi.journalQueue := by
  unfold State.journal
  rw [(State.journalAt_journal s.clock b s).2, if_pos room]
  exact List.mem_append_right _ List.mem_cons_self

/-! ### A link that has returned -/

/-- A CLEAR owed leaves on a screen that is no monitor (R135). -/
theorem State.linkReturned_owed {s : State} {i : Screen16} (plain : s.isMonitor i = false)
    (owed : (s.screen i).clearOwed = true) : s.linkReturned i =
      s.realized i (((s.panel i).put { s.screen i with clearOwed := false }).cleared .cut) := by
  unfold State.linkReturned
  rw [if_neg (by rw [plain]; simp), if_pos owed]
  conv_lhs => rw [← State.realized_panel (s := s) (i := i)]
  rw [State.realized_screen plain, State.realized_setScreen plain, State.realized_sendClear plain]
  · rfl
  · rfl
  · rfl

theorem State.linkReturned_unowed {s : State} {i : Screen16} (plain : s.isMonitor i = false)
    (unowed : (s.screen i).clearOwed = false) : s.linkReturned i = s.evaluate i := by
  unfold State.linkReturned
  rw [if_neg (by rw [plain]; simp), if_neg (by rw [unowed]; simp)]

/-- A property of screens that the updates of an evaluation keep, and the end of an owed CLEAR, is kept as a link
returns. -/
theorem State.linkReturned_keeps {Q : Screen → Prop} (k : Screen.Kept Q)
    (owed : ∀ x : Screen, Q x → Q { x with clearOwed := false }) {s : State} {i : Screen16} (h : Q (s.screen i)) :
    Q ((s.linkReturned i).screen i) := by
  by_cases plain : s.isMonitor i = false
  · cases pending : (s.screen i).clearOwed with
    | true =>
      rw [State.linkReturned_owed plain pending, State.realized_screen plain]
      exact k.cleared (owed _ h)
    | false =>
      rw [State.linkReturned_unowed plain pending]
      exact State.evaluate_keeps k i h
  · unfold State.linkReturned
    rw [if_pos (by simpa using plain)]
    split
    · show Q ((State.setScreen i _ _).screen i)
      rw [State.setScreen_screen_self]
      exact k.sent _ _ h
    · exact h

theorem State.linkReturned_smi (s : State) (i : Screen16) : (s.linkReturned i).smi = s.smi := by
  by_cases plain : s.isMonitor i = false
  · cases pending : (s.screen i).clearOwed with
    | true => rw [State.linkReturned_owed plain pending, State.realized_frame]
    | false => rw [State.linkReturned_unowed plain pending, State.evaluate_smi]
  · unfold State.linkReturned
    rw [if_pos (by simpa using plain)]
    split <;> rfl

/-- The state of a reply taken, before the arbiter is told: the link is READY, and only the counters of REFUSED of its screen
and the journal may have moved. -/
structure State.Replied (s v : State) (i : Screen16) (t : Time) : Prop where
  frame : v = { s with
    clock := max s.clock t, smi := v.smi, links := v.links, arb := { s.arb with screens := v.arb.screens }, sent := [] }
  outcomes : v.smi.outcomes = s.smi.outcomes
  base : v.smi.base = s.smi.base
  link : v.link i = (s.link i).leaveBusy .ready
  otherLinks : ∀ j, j ≠ i → v.link j = s.link j
  screen : (s.screen i).Recounted (v.screen i)
  otherScreens : ∀ j, j ≠ i → v.screen j = s.screen j

namespace State.Replied

variable {s v : State} {i : Screen16} {t : Time} (h : s.Replied v i t)
include h

theorem isMonitor (j : Screen16) : v.isMonitor j = s.isMonitor j := by rw [h.frame]; rfl

theorem hold : v.arb.hold = s.arb.hold := by rw [h.frame]

theorem mirror : v.arb.mirror = s.arb.mirror := by rw [h.frame]

theorem unsent : v.sent = [] := by rw [h.frame]

theorem clock : v.clock = max s.clock t := by rw [h.frame]

theorem ready : (v.link i).state = .ready := by rw [h.link]; rfl

theorem line : s.sameLine v i := by
  refine ⟨by rw [h.link]; rfl, by rw [h.link]; rfl, ?_⟩
  rw [h.screen.frame]

theorem alike (plain : s.isMonitor i = false) : State.Alike i s v := by
  refine ⟨h.mirror, by rw [h.frame], by rw [h.frame], by rw [h.frame], h.line, fun mon pair => ?_⟩
  have apart : mon ≠ i := State.mirror_ne plain pair
  rw [h.otherLinks mon apart]
  exact ⟨⟨by rw [h.otherLinks mon apart], by rw [h.otherLinks mon apart], by rw [h.otherScreens mon apart]⟩, rfl⟩

/-- What the arbiter does with the link, and then the quiet test. -/
theorem quietTested : s.quietTested (v.linkReturned i).testQuiet := by
  have only := (Screens.only v).linkReturned i v h.ready v.onlyScreens_refl
  obtain ⟨-, ctl, -, -, base, -, -, outcomes, -⟩ := only
  exact State.testQuiet_tested (ctl.trans (by rw [h.frame])) (outcomes.trans h.outcomes) (base.trans h.base)

/-! ### On the monitor (R134) -/

theorem monitorIdle (monitor : s.isMonitor i = true) (none : s.arb.hold = none) : v.linkReturned i = v := by
  unfold State.linkReturned
  rw [if_pos ((h.isMonitor i).trans monitor), h.hold, none]

theorem monitorSends {m : Message} (monitor : s.isMonitor i = true) (held : s.arb.hold = some m) :
    v.linkReturned i = ({ v with arb := { v.arb with hold := none } }).deliver i m := by
  unfold State.linkReturned
  rw [if_pos ((h.isMonitor i).trans monitor), h.hold, held]

/-! ### On another screen (R119, R135) -/

variable (plain : s.isMonitor i = false)
include plain

theorem evaluates (unowed : (s.screen i).clearOwed = false) : v.linkReturned i = v.evaluate i := by
  refine State.linkReturned_unowed ((h.isMonitor i).trans plain) ?_
  rw [h.screen.frame]
  exact unowed

theorem owes (owed : (s.screen i).clearOwed = true) : v.linkReturned i =
    v.realized i (((v.panel i).put { v.screen i with clearOwed := false }).cleared .cut) := by
  refine State.linkReturned_owed ((h.isMonitor i).trans plain) ?_
  rw [h.screen.frame]
  exact owed

/-- The link keeps its capabilities. -/
theorem caps_plain : ((v.linkReturned i).link i).caps = (s.link i).caps := by
  have here : v.isMonitor i = false := (h.isMonitor i).trans plain
  have start : (v.link i).caps = (s.link i).caps := by rw [h.link]; rfl
  cases owed : (s.screen i).clearOwed with
  | true =>
    rw [h.owes plain owed, State.realized_caps here]
    exact start
  | false =>
    rw [h.evaluates plain owed, State.evaluate_eq here, State.realized_caps here]
    exact start

/-- The CLEAR owed leaves with CUT (R135). -/
theorem clearsOwed (owed : (s.screen i).clearOwed = true) : s.clearSent (v.linkReturned i) i .cut ∧
    ((v.linkReturned i).screen i).clearOwed = false ∧ ((v.linkReturned i).link i).op.map (·.transition) = some .cut := by
  have here : v.isMonitor i = false := (h.isMonitor i).trans plain
  let p := (v.panel i).put { v.screen i with clearOwed := false }
  have face : (s.screen i).sameFace p.screen := h.screen.face
  have cleared := State.cleared_cleared (h.alike plain) plain (p := p) face .cut (x := (p.cleared .cut).screen)
    (by rw [Panel.cleared_screen]) (by rw [Panel.cleared_screen])
  rw [h.owes plain owed]
  have sent : s.messageSent (v.realized i (p.cleared .cut)) i (clearMessage .cut) := cleared.sent.message
  refine ⟨cleared.clearSent, ?_, ?_⟩
  · rw [State.realized_screen here, Panel.cleared_screen]
    rfl
  · obtain ⟨-, -, -, operation, -⟩ := sent
    rw [operation]
    rfl

theorem othersStand (unowed : (s.screen i).clearOwed = false) : s.othersStand (v.linkReturned i) i := by
  have here : v.isMonitor i = false := (h.isMonitor i).trans plain
  rw [h.evaluates plain unowed]
  intro j apart pair
  obtain ⟨screen, link⟩ := State.evaluate_othersStand here j apart (by rw [h.mirror]; exact pair)
  exact ⟨screen.trans (h.otherScreens j apart), link.trans (h.otherLinks j apart)⟩

omit plain in
/-- A settled screen has nothing to judge. -/
theorem judged_settled (settled : (s.screen i).settled (max s.clock t)) :
    (v.panel i).judged v i = v.panel i := by
  obtain ⟨blank, idle, ends⟩ := settled
  refine Panel.judged_quiet ?_ (.inl (h.screen.blankPending.trans blank)) ?_
  · rintro l T (entry | request)
    · have entry : (v.screen i).stack[l].bind (·.endTime) = some T := entry
      rw [h.screen.stack] at entry
      obtain ⟨e, he, hT⟩ := Option.bind_eq_some_iff.1 entry
      rw [h.clock]
      exact ends l e T he hT
    · have request : (v.screen i).pendingAt[l].bind (·.endTime) = some T := request
      rw [h.screen.pendingAt, idle l] at request
      cases request
  · intro l r pending
    have pending : (v.screen i).pendingAt[l] = some r := pending
    rw [h.screen.pendingAt, idle l] at pending
    cases pending

theorem settledStands (unowed : (s.screen i).clearOwed = false) (settled : (s.screen i).settled (max s.clock t))
    (stands : (s.screen i).onScreen = .unknown ∨ (s.screen i).agrees) : s.wentReady (v.linkReturned i) i ∧
      ((v.linkReturned i).screen i).stack = (s.screen i).stack ∧
      ((v.linkReturned i).screen i).onScreen = (s.screen i).onScreen := by
  have here : v.isMonitor i = false := (h.isMonitor i).trans plain
  have stands : (v.panel i).ready v i = false ∨ (v.panel i).screen.onScreen = .unknown ∨ (v.panel i).screen.agrees := by
    rcases stands with unknown | agrees
    · exact .inr (.inl (h.screen.onScreen.trans unknown))
    · exact .inr (.inr (h.screen.agrees.2 agrees))
  rw [h.evaluates plain unowed, State.evaluate_stands here (h.judged_settled settled) rfl stands]
  have screen : ((v.setScreen i ((v.panel i).screen.retime v.clock)).setSerial (v.panel i).serial).screen i =
      (v.panel i).screen.retime v.clock := State.setScreen_screen_self _ _ _
  refine ⟨⟨h.link, h.unsent⟩, ?_, ?_⟩
  · rw [screen]
    exact h.screen.stack
  · rw [screen]
    exact h.screen.onScreen

theorem settledSends (unowed : (s.screen i).clearOwed = false) (settled : (s.screen i).settled (max s.clock t))
    (known : (s.screen i).onScreen ≠ .unknown) :
    (∀ l e, (s.screen i).visibleTop = some (l, e) → (s.screen i).onScreen ≠ .entry l e.serial →
      ∃ x, s.showSent (v.linkReturned i) i l x ∧ x.serial = e.serial ∧
        s.sentAndCopied (v.linkReturned i) i (s.showOf i l x)) ∧
      ((s.screen i).visibleTop = none → (s.screen i).onScreen ≠ .blank → s.clearSent (v.linkReturned i) i .default ∧
        s.sentAndCopied (v.linkReturned i) i (fun m => m.isClear .default)) := by
  have judged := h.judged_settled settled
  have ready : (v.panel i).ready v i = true := State.panel_ready.2 h.ready
  rw [h.evaluates plain unowed]
  refine ⟨fun l e top differs => ?_, fun top differs => ?_⟩
  · obtain ⟨showed, left, -⟩ := State.evaluate_shows (h.alike plain) plain judged h.screen.face ready
      (fun unknown => known (h.screen.onScreen.symm.trans unknown)) (h.screen.visibleTop.trans top)
      (fun same => differs (h.screen.onScreen.symm.trans same))
    obtain ⟨d, sent, shows⟩ := showed.showSent
    exact ⟨_, sent, rfl, showed.sent.sentAndCopied (State.framesLeft_begun left rfl h.unsent) shows⟩
  · obtain ⟨cleared, left, -⟩ := State.evaluate_clears (h.alike plain) plain judged h.screen.face ready
      (fun unknown => known (h.screen.onScreen.symm.trans unknown)) (h.screen.visibleTop.trans top)
      (fun same => differs (h.screen.onScreen.symm.trans same))
    exact ⟨cleared.clearSent, cleared.sent.sentAndCopied (State.framesLeft_begun left rfl h.unsent) cleared.clears⟩

end State.Replied

theorem State.testQuiet_untouched (i : Screen16) (w : State) : State.Untouched i w w.testQuiet := by
  have frame := State.testQuiet_frame w
  generalize w.testQuiet = u at *
  rw [frame]
  exact ⟨rfl, rfl, rfl, rfl, rfl, rfl, rfl, rfl, rfl, fun _ _ => ⟨rfl, rfl, rfl, rfl, rfl⟩⟩

/-- A link that leaves BUSY in `s` has been given back READY. -/
theorem State.replied_done (s : State) (i : Screen16) (t : Time) :
    s.Replied ((s.begin t).setLink i ((s.link i).leaveBusy .ready)) i t where
  frame := rfl
  outcomes := rfl
  base := rfl
  link := State.setLink_link_self _ _ _
  otherLinks _ apart := State.setLink_link_ne _ _ (Ne.symm apart)
  screen := Screen.Recounted.refl _
  otherScreens _ _ := rfl

/-- The state of a REFUSED taken, counted and journalled. -/
def State.refusedTaken (i : Screen16) (b : Journal) (s : State) : State :=
  ((s.setLink i ((s.link i).leaveBusy .ready)).countOn i .refused).journal b

theorem State.replied_refused (s : State) (i : Screen16) (t : Time) (b : Journal) :
    s.Replied ((s.begin t).refusedTaken i b) i t ∧
      ((s.begin t).refusedTaken i b).screen i = (s.screen i).count .refused := by
  let c := ((s.begin t).setLink i ((s.link i).leaveBusy .ready)).countOn i .refused
  have only := State.journalAt_onlyBus c.clock b c.onlyBus_refl
  have scans := State.journalAt_sameScan c.clock b c
  have taken : (s.begin t).refusedTaken i b = c.journalAt c.clock b := rfl
  have screen : c.screen i = (s.screen i).count .refused := State.setScreen_screen_self _ _ _
  have link : c.link i = (s.link i).leaveBusy .ready := State.setLink_link_self _ _ _
  have links : ∀ j, j ≠ i → c.link j = s.link j := fun j apart => State.setLink_link_ne _ _ (Ne.symm apart)
  have screens : ∀ j, j ≠ i → c.screen j = s.screen j := fun j apart => State.setScreen_screen_ne _ _ (Ne.symm apart)
  have frame : c = { s with
      clock := max s.clock t, links := c.links, arb := { s.arb with screens := c.arb.screens }, sent := [] } := rfl
  rw [taken]
  generalize c.journalAt c.clock b = v at *
  have kept : v.links = c.links ∧ v.arb = c.arb := by rw [only]; exact ⟨rfl, rfl⟩
  obtain ⟨sameLinks, sameArb⟩ := kept
  have linkOf : ∀ j, v.link j = c.link j := State.link_congr sameLinks
  have screenOf : ∀ j, v.screen j = c.screen j := State.screen_congr sameArb
  refine ⟨⟨?_, ?_, ?_, ?_, ?_, ?_, ?_⟩, ?_⟩
  · rw [only, frame]
  · exact scans.2.2.2.1.trans (by rw [frame])
  · exact scans.1.trans (by rw [frame])
  · rw [linkOf, link]
  · intro j apart
    rw [linkOf, links j apart]
  · rw [screenOf, screen]
    exact Screen.recounted_count _
  · intro j apart
    rw [screenOf, screens j apart]
  · rw [screenOf, screen]

end Sys2Proof.Machine
end

section
/-! DONE, REFUSED and the reply timer, put together (R148 to R151, R172). -/

namespace Sys2Proof.Machine

/-- What a step after the quiet test keeps: Show Control and the interface alone have moved. -/
structure State.Quieted (w u : State) : Prop where
  frame : u = { w with ctl := u.ctl, smi := u.smi }

theorem State.testQuiet_quieted (w : State) : w.Quieted w.testQuiet := ⟨State.testQuiet_frame w⟩

section
variable {s v u : State} {i : Screen16} {t : Time} (h : s.Replied v i t) (q : (v.linkReturned i).Quieted u)
include h q

omit h in
theorem State.Quieted.untouched : State.Untouched i (v.linkReturned i) u := by
  rw [q.frame]
  exact ⟨rfl, rfl, rfl, rfl, rfl, rfl, rfl, rfl, rfl, fun _ _ => ⟨rfl, rfl, rfl, rfl, rfl⟩⟩

/-- The link of a reply keeps its capabilities. -/
theorem State.Replied.caps : (u.link i).caps = (s.link i).caps := by
  rw [q.untouched.link]
  by_cases plain : s.isMonitor i = false
  · exact h.caps_plain plain
  · have monitor : s.isMonitor i = true := by simpa using plain
    have start : (v.link i).caps = (s.link i).caps := by rw [h.link]; rfl
    cases held : s.arb.hold with
    | none =>
      rw [h.monitorIdle monitor held]
      exact start
    | some m =>
      rw [h.monitorSends monitor held]
      have link := State.linkSend_link_self i m (({ v with arb := { v.arb with hold := none } } : State).setScreen i
        ((v.screen i).sentMessage m))
      refine (congrArg Link.caps link).trans ?_
      exact start

/-- A monitor with nothing held sends nothing (log entry 13). -/
theorem State.Replied.monitorStands (monitor : s.isMonitor i = true) (none : s.arb.hold = none) :
    s.wentReady u i ∧ (u.screen i).stack = (s.screen i).stack ∧ (u.screen i).onScreen = (s.screen i).onScreen := by
  have rest := q.untouched
  have idle := h.monitorIdle monitor none
  rw [idle] at q rest
  refine ⟨⟨rest.link.trans h.link, ?_⟩, ?_, ?_⟩
  · rw [q.frame]
    exact h.unsent
  · rw [rest.screen]
    exact h.screen.stack
  · rw [rest.screen]
    exact h.screen.onScreen

/-- The copy held leaves on a monitor (R134). -/
theorem State.Replied.monitorCopies {m : Message} (monitor : s.isMonitor i = true) (held : s.arb.hold = some m) :
    u.arb.hold = none ∧ (u.link i).state = .busy ∧ (u.link i).tag = (s.link i).tag + 1 ∧
      u.sent = [(i, s.nextFrame i m)] := by
  let x := ({ v with arb := { v.arb with hold := none } } : State).setScreen i ((v.screen i).sentMessage m)
  have sends : v.linkReturned i = x.linkSend i m := h.monitorSends monitor held
  have link : (x.linkSend i m).link i = (v.link i).busy v.clock m (x.resolved i m) := State.linkSend_link_self i m x
  have line : s.sameLine x i := by
    obtain ⟨tag, caps, preferred⟩ := h.line
    refine ⟨tag, caps, ?_⟩
    have screen : x.screen i = (v.screen i).sentMessage m := State.setScreen_screen_self _ _ _
    rw [screen]
    exact (Screen.sentMessage_settings _ m).2.2.1.trans preferred
  rw [sends] at q
  refine ⟨?_, ?_, ?_, ?_⟩
  · rw [q.frame]
    rfl
  · rw [q.frame]
    exact congrArg Link.state link
  · rw [q.frame]
    exact (congrArg Link.tag link).trans (congrArg (· + 1) h.line.1)
  · rw [q.frame]
    show x.sent ++ [(i, x.nextFrame i m)] = _
    rw [State.nextFrame_congr line, show x.sent = [] from h.unsent]
    rfl

variable (plain : s.isMonitor i = false) (unowed : (s.screen i).clearOwed = false)
include plain unowed

theorem State.Replied.sentEvaluated : u.sent = (v.evaluate i).sent := by
  rw [h.evaluates plain unowed] at q
  rw [q.frame]

theorem State.Replied.untouchedEvaluated : State.Untouched i (v.evaluate i) u := by
  have rest := q.untouched
  rwa [h.evaluates plain unowed] at rest

omit plain in
/-- A request that waited is judged. -/
theorem State.Replied.judging {l : Level} {r : Request} (lone : s.LoneRequest i l r (max s.clock t)) :
    s.Judging v u i l r :=
  ⟨h.alike lone.plain, by rw [h.clock]; exact lone, h.screen, h.unsent, h.untouchedEvaluated q lone.plain unowed,
    h.sentEvaluated q lone.plain unowed⟩

/-- A desk BLANK that waited is carried out. -/
theorem State.Replied.pressed (flag : (s.screen i).blankPending = true) : s.Pressed v u i := by
  have same : ({ s.screen i with blankPending := true } : Screen) = s.screen i := by rw [← flag]
  exact ⟨h.alike plain, plain, by rw [same]; exact h.screen, h.ready, h.untouchedEvaluated q plain unowed,
    fun _ => ⟨h.sentEvaluated q plain unowed, h.unsent⟩⟩

end

/-- What is taken of a DONE or REFUSED, and what REFUSED besides counts and journals. -/
theorem State.reply_taken {s : State} {t : Time} {i : Screen16} {tag reason : Byte} {o : Operation} {c : Instr}
    (reply : c = .done t i tag ∨ c = .refused t i tag reason) (busy : (s.link i).state = .busy)
    (op : (s.link i).op = some o) (same : o.tag = tag) : ∃ v, s.Replied v i t ∧
      exec c s = .next (v.linkReturned i).testQuiet ∧
      (c = .refused t i tag reason → v.screen i = (s.screen i).count .refused ∧
        (s.smi.journalQueue.length < 16 → (⟨s.smi.journalCount, max s.clock t, .titleRefused i o.kind.code
          (if reason = 1 then 1 else if reason = 2 then 2 else 3) ((o.subject.map fun p => p.1.val).getD 0) tag
          ((o.subject.map fun p => p.2.number).getD 0)⟩ : JournalRecord) ∈ v.smi.journalQueue)) ∧
      (c = .done t i tag → v.smi.journalCount = s.smi.journalCount) := by
  have takes : ((s.begin t).link i).takesReply tag = true := by
    show (s.link i).takesReply tag = true
    unfold Link.takesReply
    rw [busy, op]
    simp [same]
  rcases reply with rfl | rfl
  · refine ⟨_, s.replied_done i t, ?_, fun h => (by cases h), fun _ => rfl⟩
    show Host.Outcome.next ((s.begin t).replyDone i tag) = _
    unfold State.replyDone
    dsimp only
    rw [if_pos takes]
    rfl
  · obtain ⟨replied, screen⟩ := s.replied_refused i t (.titleRefused i o.kind.code
      (if reason = 1 then 1 else if reason = 2 then 2 else 3) ((o.subject.map fun p => p.1.val).getD 0) tag
      ((o.subject.map fun p => p.2.number).getD 0))
    refine ⟨_, replied, ?_, fun _ => ⟨screen, fun room => ?_⟩, fun h => (by cases h)⟩
    · show Host.Outcome.next ((s.begin t).replyRefused i tag reason) = _
      unfold State.replyRefused
      dsimp only
      rw [if_pos takes, show (s.begin t).link i = s.link i from rfl, op]
      rfl
    · exact State.journal_mem _ room

/-- A reply that is not taken is counted. -/
theorem State.reply_ignored {s : State} {t : Time} {i : Screen16} {tag : Byte}
    (refuses : ¬((s.link i).state = .busy ∧ ∃ o, (s.link i).op = some o ∧ o.tag = tag)) :
    ((s.begin t).link i).takesReply tag = false := by
  show (s.link i).takesReply tag = false
  rw [← Bool.not_eq_true]
  intro takes
  unfold Link.takesReply at takes
  rw [Bool.and_eq_true, Option.any_eq_true] at takes
  obtain ⟨busy, o, op, same⟩ := takes
  exact refuses ⟨by simpa using busy, o, op, by simpa using same⟩

theorem State.ignoreMessage_eq (i : Screen16) (s : State) : s.ignoreMessage i =
    s.setLink i { s.link i with ignored := min 4294967295 ((s.link i).ignored + 1) } := by
  unfold State.ignoreMessage
  rw [bump_eq]

/-! ### The reply timer (R150) -/

/-- The state after the reply timer has run out, before the quiet test. -/
def State.replyLost (i : Screen16) (b : Journal) (s : State) : State :=
  ((((s.setLink i ((s.link i).leaveBusy .faulted)).countOn i .faults).journal b).setCause .screen).linkDark i

theorem State.replyLost_frame (i : Screen16) (b : Journal) (s : State) : s.replyLost i b = { s with
    smi := (s.replyLost i b).smi, links := s.links.set i ((s.link i).leaveBusy .faulted)
    arb := { s.arb with screens := s.arb.screens.set i ((s.screen i).count .faults).dark } } := by
  have frame := State.journalAt_onlyBus s.clock b ((s.setLink i ((s.link i).leaveBusy .faulted)).countOn i
    .faults).onlyBus_refl
  have step : s.replyLost i b = ((((s.setLink i ((s.link i).leaveBusy .faulted)).countOn i .faults).journalAt s.clock
    b).setCause .screen).linkDark i := rfl
  rw [step]
  generalize ((s.setLink i ((s.link i).leaveBusy .faulted)).countOn i .faults).journalAt s.clock b = w at *
  have screen : w.screen i = (s.screen i).count .faults := by
    rw [frame]
    exact State.setScreen_screen_self _ _ _
  have arb : (w.setScreen i (w.screen i).dark).arb = { s.arb with
      screens := s.arb.screens.set i ((s.screen i).count .faults).dark } := by
    have same := State.setScreen_setScreen i ((s.screen i).count .faults) ((s.screen i).count .faults).dark s
    rw [screen, frame]
    exact congrArg State.arb same
  show ({ (w.setCause .screen).setScreen i (w.screen i).dark with
    arb := (w.setScreen i (w.screen i).dark).arb } : State) = _
  rw [arb, frame]
  rfl

theorem State.replyLost_smi (i : Screen16) (b : Journal) (s : State) : (s.replyLost i b).smi.flags.screen = true ∧
    (s.replyLost i b).smi.outcomes = s.smi.outcomes ∧ (s.replyLost i b).smi.base = s.smi.base ∧
    (s.smi.journalQueue.length < 16 →
      (⟨s.smi.journalCount, s.clock, b⟩ : JournalRecord) ∈ (s.replyLost i b).smi.journalQueue) := by
  obtain ⟨base, -, -, outcomes, -⟩ := State.journalAt_sameScan s.clock b
    ((s.setLink i ((s.link i).leaveBusy .faulted)).countOn i .faults)
  refine ⟨rfl, outcomes, base, fun room => ?_⟩
  exact State.journal_mem (s := (s.setLink i ((s.link i).leaveBusy .faulted)).countOn i .faults) b room

/-- Settles O56: a reply gives the link back READY and the arbiter acts on it; a reply timer gives it up. -/
theorem repliesTaken : Obligations.RepliesTaken := by
  refine ⟨fun t s i tag reason o c reply busy op same => ?_, fun t s i tag reason refuses => ⟨?_, ?_⟩,
    fun t s i e busy runs past => ?_⟩
  · obtain ⟨v, replied, step, refused, done⟩ := State.reply_taken reply busy op same
    have q := State.testQuiet_quieted (v.linkReturned i)
    have tested := replied.quietTested
    have show' : s.sameShow (v.linkReturned i).testQuiet := linkFrame c s _ (by rcases reply with rfl | rfl <;> rfl) step
    have journaled : ∀ x : JournalRecord, x ∈ v.smi.journalQueue → x ∈ (v.linkReturned i).testQuiet.smi.journalQueue :=
      fun x mem => (Ends.journaled x).testQuiet _ (by rw [State.linkReturned_smi]; exact mem)
    have silent : s.ctl.heldPause = none → (v.linkReturned i).testQuiet.smi = v.smi := fun free => by
      have ctl : (v.linkReturned i).ctl = s.ctl :=
        ((Screens.only v).linkReturned i v replied.ready v.onlyScreens_refl).2.1.trans (by rw [replied.frame])
      rw [State.testQuiet_none (by rw [ctl]; exact free), State.linkReturned_smi]
    refine ⟨_, step, show', replied.caps q, tested, replied.monitorStands q, fun m => replied.monitorCopies q,
      fun plain owed => ?_, fun plain unowed settled stands => ?_, fun plain unowed settled known => ?_,
      fun plain unowed flag => (replied.pressed q plain unowed flag).carriedOut, fun l r unowed one => ?_,
      fun l y T plain unowed blank idle entry ends reached alone record => ?_, fun plain unowed => ?_, fun h => ?_, fun h free => ?_⟩
    · obtain ⟨cleared, over', op'⟩ := replied.clearsOwed plain owed
      rw [q.frame]
      exact ⟨cleared, over', op'⟩
    · obtain ⟨went, stack, record⟩ := replied.settledStands plain unowed settled stands
      rw [q.frame]
      exact ⟨went, stack, record⟩
    · obtain ⟨shows, clears⟩ := replied.settledSends plain unowed settled known
      rw [q.frame]
      exact ⟨shows, clears⟩
    · obtain ⟨lone, manual⟩ := State.oneRequest_lone one
      refine (replied.judging q unowed lone).requestJudged manual ⟨fun _ => replied.ready, fun _ => trivial⟩
        fun link sent => ⟨link.trans replied.link, sent⟩
    · exact State.noticeTakenDown (replied.alike plain) plain replied.screen replied.unsent
        (replied.untouchedEvaluated q plain unowed) (replied.sentEvaluated q plain unowed) replied.ready blank idle entry ends
        (by rw [replied.clock]; exact reached) alone record
    · have others := replied.othersStand plain unowed
      rw [q.frame]
      exact others
    · obtain ⟨counted, record⟩ := refused h
      refine ⟨?_, fun room => journaled _ (record room)⟩
      rw [q.untouched.screen]
      have rises : (s.screen i).counted (v.screen i) .refused 1 := by
        rw [counted]
        exact Screen.counted_count_self .refused (s.screen i)
      have kept := State.linkReturned_keeps (Screen.kept_uncounted (v.screen i) (ev := .refused) (.inr (.inl rfl)))
        (s := v) (i := i) (fun x hx => hx) ⟨rfl, Screen.counted_refl _ rfl⟩
      exact Screen.counted_trans (by rw [counted]; rfl) rises kept.2
    · rw [silent free]
      exact done h
  · show Host.Outcome.next ((s.begin t).replyDone i tag) = _
    unfold State.replyDone
    dsimp only
    rw [if_neg (by rw [State.reply_ignored refuses]; simp), State.ignoreMessage_eq]
    rfl
  · show Host.Outcome.next ((s.begin t).replyRefused i tag reason) = _
    unfold State.replyRefused
    dsimp only
    rw [if_neg (by rw [State.reply_ignored refuses]; simp), State.ignoreMessage_eq]
    rfl
  · let b : Journal := .linkState i (s.link i).state.code LinkState.faulted.code LinkCause.timeout.code
      (((s.link i).op.map fun o => o.kind.code).getD 0) (((s.link i).op.map fun o => o.tag).getD 0) 0 0
      (((s.link i).op.map fun o => o.sendTime).getD 0)
    have step : exec (.replyTimer t i) s = .next ((s.begin t).replyLost i b).testQuiet := by
      show Host.Outcome.next ((s.begin t).expireReply i) = _
      unfold State.expireReply
      dsimp only
      rw [if_pos ⟨busy, expired_some runs past⟩]
      rfl
    have frame := State.replyLost_frame i b (s.begin t)
    obtain ⟨flag, outcomes, base, record⟩ := State.replyLost_smi i b (s.begin t)
    have quieted := State.testQuiet_frame ((s.begin t).replyLost i b)
    have screen : ((s.begin t).replyLost i b).testQuiet.screen i = ((s.screen i).count .faults).dark := by
      rw [quieted, frame]
      exact State.setScreen_screen_self (s.begin t) i _
    refine ⟨_, step, linkFrame _ s _ rfl step, State.testQuiet_tested (by rw [frame]; rfl) outcomes base, ?_, ?_, ?_, ?_, ?_,
      ?_, ?_, fun o op room => ?_, fun j apart => ?_⟩
    · rw [quieted, frame]
      rfl
    · rw [State.testQuiet_flags]
      exact flag
    · rw [screen]
      rfl
    · rw [screen]
      rfl
    · rw [screen]
      rfl
    · rw [screen]
      rfl
    · rw [screen]
      exact Screen.counted_count_self .faults (s.screen i)
    · have mem := (Ends.journaled _).testQuiet _ (record room)
      have same : b = .linkState i 4 5 4 o.kind.code o.tag 0 0 o.sendTime := by
        unfold b
        rw [op, busy]
        rfl
      rw [same] at mem ⊢
      exact mem
    · rw [quieted, frame]
      exact State.setScreen_screen_ne (s.begin t) _ (Ne.symm apart)

end Sys2Proof.Machine
end

section
/-! The frames of a link (R143 to R147, R197): what SHOW, CLEAR and the replies are as bytes, and the receiver that takes them
from the line. -/

namespace Sys2Proof.Machine

/-! ### The bytes of a frame -/

theorem byteSum_toNat (d : List Byte) : (byteSum d).toNat = (d.map BitVec.toNat).sum % 256 := by
  induction d with
  | nil => rfl
  | cons b d ih => simp [byteSum, ih]

theorem byteSum_append (d e : List Byte) : byteSum (d ++ e) = byteSum d + byteSum e := by
  induction d with
  | nil => simp [byteSum]
  | cons b d ih => simp [byteSum, ih, BitVec.add_assoc]

/-- A frame after its start byte: length, kind, tag and body, before the check byte. -/
def inner (kind : Nat) (tag : Byte) (body : List Byte) : List Byte :=
  BitVec.ofNat 8 (body.length + 2) :: BitVec.ofNat 8 kind :: tag :: body

theorem frame_eq (kind : Nat) (tag : Byte) (body : List Byte) :
    frame kind tag body = 126 :: (inner kind tag body ++ [-(byteSum (inner kind tag body))]) := rfl

theorem frame_sum (kind : Nat) (tag : Byte) (body : List Byte) : byteSum ((frame kind tag body).drop 1) = 0 := by
  simp [frame_eq, byteSum_append, byteSum]

/-- What every frame carries before its body. -/
theorem frame_head (kind : Nat) (tag : Byte) (body : List Byte) (short : body.length + 2 < 256) (known : kind < 256) :
    u8 (frame kind tag body) 0 = 126 ∧ (((frame kind tag body).drop 1).map BitVec.toNat).sum % 256 = 0 ∧
    u8 (frame kind tag body) 1 = body.length + 2 ∧ (frame kind tag body).length = body.length + 5 ∧
    u8 (frame kind tag body) 2 = kind ∧ u8 (frame kind tag body) 3 = tag.toNat := by
  refine ⟨rfl, ?_, ?_, ?_, ?_, rfl⟩
  · rw [← byteSum_toNat, frame_sum]
    rfl
  · exact (BitVec.toNat_ofNat _ _).trans (Nat.mod_eq_of_lt short)
  · simp [frame]
  · exact (BitVec.toNat_ofNat _ _).trans (Nat.mod_eq_of_lt known)

/-- The body of a frame stands from its fifth byte on. -/
theorem u8_frame (kind : Nat) (tag : Byte) (body : List Byte) (k : Nat) (inside : k < body.length) :
    u8 (frame kind tag body) (4 + k) = u8 body k := by
  have place : 4 + k = k + 1 + 1 + 1 + 1 := by omega
  simp [u8, frame, place, List.getElem?_append_left inside]

/-- The body of a SHOW: the transition, the four slots, the speaker and whether it is drawn (R146). -/
def showBody (m : Message) (tr : Transition) (capacity : Nat) : List Byte :=
  le 1 tr.code ++ (clampSlots capacity m.slots).toList.flatMap slotBytes ++ le 1 (m.speaker.getD 0) ++
    le 1 (bit m.drawPrefix)

theorem messageFrame_show (m : Message) (tag : Byte) (tr : Transition) (capacity : Nat) (isShow : m.isShow = true) :
    messageFrame m tag tr capacity = frame 2 tag (showBody m tr capacity) := by
  simp [messageFrame, isShow, showBody]

theorem messageFrame_clear (m : Message) (tag : Byte) (tr : Transition) (capacity : Nat) (isClear : m.isShow = false) :
    messageFrame m tag tr capacity = frame 3 tag (le 1 tr.code) := by
  simp [messageFrame, isClear]

theorem showBody_length (m : Message) (tr : Transition) (capacity : Nat) : (showBody m tr capacity).length = 23 := by
  simp [showBody, clampSlots, Vector.toList_ofFn, slotBytes, le, List.ofFn_succ]

theorem u8_le_one (n : Nat) (small : n < 256) : (BitVec.ofNat 8 n).toNat = n :=
  (BitVec.toNat_ofNat _ _).trans (Nat.mod_eq_of_lt small)

theorem Transition.code_lt (tr : Transition) : tr.code < 256 := by cases tr <;> decide

/-- The slot that is sent for slot `k`. -/
theorem clampSlots_get (capacity : Nat) (slots : Vector SlotContent 4) (k : Fin 4) :
    (clampSlots capacity slots)[k] = if k.val < capacity then slots[k] else { lang := none, handle := none } := by
  simp [clampSlots]

theorem slotBytes_read (c : SlotContent) :
    u8 (slotBytes c) 0 = (c.lang.map (·.val)).getD 255 ∧ u32 (slotBytes c) 1 = (c.handle.map (·.toNat)).getD 0 := by
  have lang : (c.lang.map (·.val)).getD 255 < 256 := by
    cases c.lang with
    | none => decide
    | some l => exact Nat.lt_of_lt_of_le l.isLt (by decide)
  have handle : (c.handle.map (·.toNat)).getD 0 < 4294967296 := by
    cases c.handle with
    | none => decide
    | some h => exact h.isLt
  refine ⟨u8_le_one _ lang, ?_⟩
  unfold slotBytes
  generalize (c.handle.map (·.toNat)).getD 0 = n at handle
  simp [le, u32, u16, u8]
  omega

/-- The bytes of slot `k` in the body of a SHOW. -/
theorem showBody_slot (m : Message) (tr : Transition) (capacity : Nat) (k : Fin 4) (j : Fin 5) :
    u8 (showBody m tr capacity) (1 + 5 * k.val + j.val) = u8 (slotBytes (clampSlots capacity m.slots)[k]) j.val := by
  match k with
  | 0 => match j with | 0 | 1 | 2 | 3 | 4 => rfl
  | 1 => match j with | 0 | 1 | 2 | 3 | 4 => rfl
  | 2 => match j with | 0 | 1 | 2 | 3 | 4 => rfl
  | 3 => match j with | 0 | 1 | 2 | 3 | 4 => rfl

theorem showBody_ends (m : Message) (tr : Transition) (capacity : Nat) (speaker : ∀ n, m.speaker = some n → n < 256) :
    u8 (showBody m tr capacity) 0 = tr.code ∧ u8 (showBody m tr capacity) 21 = m.speaker.getD 0 ∧
    u8 (showBody m tr capacity) 22 = if m.drawPrefix then 1 else 0 := by
  have small : m.speaker.getD 0 < 256 := by
    cases named : m.speaker with
    | none => decide
    | some n => exact speaker n named
  refine ⟨u8_le_one _ tr.code_lt, u8_le_one _ small, ?_⟩
  show (BitVec.ofNat 8 (bit m.drawPrefix)).toNat = _
  cases m.drawPrefix <;> rfl

/-- A slot of a SHOW below the slot capacity is sent as it is, any other EMPTY (R146). -/
theorem showBody_slots (m : Message) (tag : Byte) (tr : Transition) (capacity : Nat) (k : Fin 4) :
    let f := frame 2 tag (showBody m tr capacity)
    (k.val < capacity → u8 f (5 + 5 * k.val) = (m.slots[k].lang.map (·.val)).getD 255 ∧
      u32 f (6 + 5 * k.val) = (m.slots[k].handle.map (·.toNat)).getD 0) ∧
    (capacity ≤ k.val → u8 f (5 + 5 * k.val) = 255 ∧ u32 f (6 + 5 * k.val) = 0) := by
  intro f
  have byte (j : Fin 5) : u8 f (5 + 5 * k.val + j.val) = u8 (slotBytes (clampSlots capacity m.slots)[k]) j.val := by
    have inside : 1 + 5 * k.val + j.val < (showBody m tr capacity).length := by
      rw [showBody_length]
      omega
    rw [← showBody_slot m tr capacity k j, ← u8_frame 2 tag _ _ inside]
    congr 1
    omega
  have word : u32 f (6 + 5 * k.val) = u32 (slotBytes (clampSlots capacity m.slots)[k]) 1 := by
    have at1 : u8 f (6 + 5 * k.val) = _ := (congrArg (u8 f) (by omega)).trans (byte 1)
    have at2 : u8 f (6 + 5 * k.val + 1) = _ := (congrArg (u8 f) (by omega)).trans (byte 2)
    have at3 : u8 f (6 + 5 * k.val + 2) = _ := (congrArg (u8 f) (by omega)).trans (byte 3)
    have at4 : u8 f (6 + 5 * k.val + 2 + 1) = _ := (congrArg (u8 f) (by omega)).trans (byte 4)
    simp only [u32, u16, at1, at2, at3, at4]
    rfl
  obtain ⟨lang, handle⟩ := slotBytes_read (clampSlots capacity m.slots)[k]
  have sentSlot : u8 f (5 + 5 * k.val) = (((clampSlots capacity m.slots)[k].lang.map (·.val)).getD 255) ∧
      u32 f (6 + 5 * k.val) = (((clampSlots capacity m.slots)[k].handle.map (·.toNat)).getD 0) :=
    ⟨(byte 0).trans lang, word.trans handle⟩
  rw [clampSlots_get] at sentSlot
  constructor
  · intro below
    rwa [if_pos below] at sentSlot
  · intro above
    rwa [if_neg (Nat.not_lt.mpr above)] at sentSlot

theorem messageFrame_reads (m : Message) (tag : Byte) (tr : Transition) (cap : Nat)
    (speaker : ∀ n, m.speaker = some n → n < 256) :
    let f := messageFrame m tag tr cap
    u8 f 0 = 126 ∧ ((f.drop 1).map BitVec.toNat).sum % 256 = 0 ∧ u8 f 1 + 3 = f.length ∧ u8 f 3 = tag.toNat ∧
    u8 f 4 = tr.code ∧
    (m.isShow = false → u8 f 1 = 3 ∧ u8 f 2 = 3) ∧
    (m.isShow = true → u8 f 1 = 25 ∧ u8 f 2 = 2 ∧
      (∀ k : Fin 4, (k.val < cap → u8 f (5 + 5 * k.val) = (m.slots[k].lang.map (·.val)).getD 255 ∧
          u32 f (6 + 5 * k.val) = (m.slots[k].handle.map (·.toNat)).getD 0) ∧
        (cap ≤ k.val → u8 f (5 + 5 * k.val) = 255 ∧ u32 f (6 + 5 * k.val) = 0)) ∧
      u8 f 25 = m.speaker.getD 0 ∧ u8 f 26 = if m.drawPrefix then 1 else 0) := by
  intro f
  cases isShow : m.isShow with
  | false =>
    have clear : f = frame 3 tag (le 1 tr.code) := messageFrame_clear m tag tr cap isShow
    obtain ⟨start, sum, length, whole, kind, carried⟩ := frame_head 3 tag (le 1 tr.code) (by simp [le]) (by decide)
    have code := u8_frame 3 tag (le 1 tr.code) 0 (by simp [le])
    rw [← clear] at start sum length whole kind carried code
    exact ⟨start, sum, by rw [length, whole], carried, code.trans (u8_le_one _ tr.code_lt), fun _ => ⟨length, kind⟩, nofun⟩
  | true =>
    have shown : f = frame 2 tag (showBody m tr cap) := messageFrame_show m tag tr cap isShow
    have long := showBody_length m tr cap
    obtain ⟨start, sum, length, whole, kind, carried⟩ :=
      frame_head 2 tag (showBody m tr cap) (by rw [long]; decide) (by decide)
    have code := u8_frame 2 tag (showBody m tr cap) 0 (by rw [long]; decide)
    have spoken := u8_frame 2 tag (showBody m tr cap) 21 (by rw [long]; decide)
    have drawn := u8_frame 2 tag (showBody m tr cap) 22 (by rw [long]; decide)
    have slots := showBody_slots m tag tr cap
    obtain ⟨first, speakerByte, prefixByte⟩ := showBody_ends m tr cap speaker
    rw [← shown] at start sum length whole kind carried code spoken drawn slots
    rw [long] at length whole
    exact ⟨start, sum, by rw [length, whole], carried, code.trans first, nofun, fun _ =>
      ⟨length, kind, slots, spoken.trans speakerByte, drawn.trans prefixByte⟩⟩

/-! ### Transitions (R144, R145, R147) -/

theorem transitions_resolved (p : Transition) (c : Option Caps) (k : Caps) :
    resolveShow .cut p c = .cut ∧ resolveShow .default .cut c = .cut ∧
    resolveShow .default .fade (some k) = (if k.fade then .fade else .cut) ∧
    resolveShow .default .cross (some k) = (if k.fade then if k.overlap then .cross else .fade else .cut) ∧
    (∀ o, resolveClear o p (some k) = if resolveShow o p (some k) = .cross
      then if k.fade then .fade else .cut else resolveShow o p (some k)) ∧
    transitionTime .cut c = 0 ∧ transitionTime .fade (some k) = 2 * k.fadeTime * 1000 ∧
    transitionTime .cross (some k) = k.fadeTime * 1000 := by
  have cleared (o : TransOverride) : resolveClear o p (some k) =
      if resolveShow o p (some k) = .cross then if k.fade then .fade else .cut else resolveShow o p (some k) := by
    unfold resolveClear
    cases resolveShow o p (some k) <;> rfl
  exact ⟨rfl, rfl, rfl, rfl, cleared, rfl, (Nat.mul_assoc _ _ _).symm, rfl⟩

/-! ### What a frame from a renderer is (R143, R148, R197) -/

theorem frameCommand_done (t : Time) (i : Screen16) (tag : Byte) :
    frameCommand t i ((frame 130 tag []).drop 1) = .done t i tag := by
  have sum : byteSum [2, 130, tag, -byteSum [2, 130, tag]] = 0 := frame_sum 130 tag []
  show frameCommand t i [2, 130, tag, -byteSum [2, 130, tag]] = _
  exact if_pos ⟨rfl, sum⟩

theorem frameCommand_refused (t : Time) (i : Screen16) (tag reason : Byte) :
    frameCommand t i ((frame 131 tag [reason]).drop 1) = .refused t i tag reason := by
  have sum : byteSum [3, 131, tag, reason, -byteSum [3, 131, tag, reason]] = 0 := frame_sum 131 tag [reason]
  show frameCommand t i [3, 131, tag, reason, -byteSum [3, 131, tag, reason]] = _
  exact if_pos ⟨rfl, sum⟩

theorem frameCommand_helloReply (t : Time) (i : Screen16) (tag caps : Byte) (f n : Nat) (time : f < 65536)
    (capacity : n < 256) :
    frameCommand t i ((frame 129 tag ([caps] ++ le 2 f ++ le 1 n)).drop 1) = .helloReply t i tag caps f n := by
  have sum := frame_sum 129 tag ([caps] ++ le 2 f ++ le 1 n)
  have fadeTime : (BitVec.ofNat 8 f).toNat + 256 * (BitVec.ofNat 8 (f / 256)).toNat = f := by
    simp only [BitVec.toNat_ofNat]
    omega
  calc frameCommand t i ((frame 129 tag ([caps] ++ le 2 f ++ le 1 n)).drop 1)
      = .helloReply t i tag caps ((BitVec.ofNat 8 f).toNat + 256 * (BitVec.ofNat 8 (f / 256)).toNat)
          (BitVec.ofNat 8 n).toNat := if_pos ⟨rfl, sum⟩
    _ = .helloReply t i tag caps f n := by rw [fadeTime, u8_le_one n capacity]

/-- A frame is discarded for its length or its kind, or for its sum (R197). -/
theorem frameCommand_discarded (t : Time) (i : Screen16) (d : List Byte)
    (bad : lengthOfKind (u8 d 1) ≠ some (u8 d 0) ∨ byteSum d ≠ 0) : frameCommand t i d = .frameDiscarded t i := by
  refine if_neg fun ⟨length, sum⟩ => ?_
  rcases bad with bad | bad
  · exact bad length
  · exact bad sum

theorem lengthOfKind_some (kind n : Nat) : lengthOfKind kind = some n ↔
    kind = 129 ∧ n = 6 ∨ kind = 130 ∧ n = 2 ∨ kind = 131 ∧ n = 3 := by
  unfold lengthOfKind
  split <;> simp_all [eq_comm]

/-- The frame of DONE with another tag fails its sum. -/
theorem frameCommand_tagChanged (t : Time) (i : Screen16) (tag b : Byte) (changed : b ≠ tag) :
    frameCommand t i (((frame 130 tag []).drop 1).set 2 b) = .frameDiscarded t i := by
  refine frameCommand_discarded t i _ (.inr fun sum => changed ?_)
  have given : byteSum [2, 130, tag, -byteSum [2, 130, tag]] = 0 := frame_sum 130 tag []
  have altered : byteSum [2, 130, b, -byteSum [2, 130, tag]] = 0 := sum
  generalize -byteSum [2, 130, tag] = check at given altered
  simp only [byteSum] at given altered
  bv_omega

/-! ### The receiver (R197) -/

theorem Receiver.byte_between (t : Time) (i : Screen16) (b : Byte) (r : Receiver) (between : r.partialFrame = none) :
    r.byte t i b = (Receiver.start t b, none) := by
  simp [Receiver.byte, between]

/-- A byte in time that is not the check byte of its frame joins the partial frame. -/
theorem Receiver.byte_joins (t last : Time) (i : Screen16) (b : Byte) (d : List Byte) (inTime : t ≤ last + 1000)
    (more : (d ++ [b]).length ≠ u8 (d ++ [b]) 0 + 2) :
    Receiver.byte t i b ⟨some d, last⟩ = (⟨some (d ++ [b]), t⟩, none) := by
  have noGap : ¬ last + Config.frameGap < t := Nat.not_lt.mpr inTime
  simp only [Receiver.byte, if_neg noGap, if_neg more]

/-- The check byte in time makes the frame a command. -/
theorem Receiver.byte_ends (t last : Time) (i : Screen16) (b : Byte) (d : List Byte) (inTime : t ≤ last + 1000)
    (whole : (d ++ [b]).length = u8 (d ++ [b]) 0 + 2) :
    Receiver.byte t i b ⟨some d, last⟩ = (⟨none, t⟩, some (frameCommand t i (d ++ [b]))) := by
  have noGap : ¬ last + Config.frameGap < t := Nat.not_lt.mpr inTime
  simp only [Receiver.byte, if_neg noGap, if_pos whole]

theorem Receiver.byte_late (t : Time) (i : Screen16) (b : Byte) (r : Receiver) (d : List Byte)
    (held : r.partialFrame = some d) (late : r.lastByte + 1000 < t) :
    r.byte t i b = (Receiver.start t b, some (.frameGapTimeout t i)) := by
  have gap : r.lastByte + Config.frameGap < t := late
  simp only [Receiver.byte, held, if_pos gap]

theorem u8_append_zero (d e : List Byte) (some : d ≠ []) : u8 (d ++ e) 0 = u8 d 0 := by
  obtain ⟨b, d, rfl⟩ := List.exists_cons_of_ne_nil some
  rfl

/-- The rest of a frame, its bytes in time, is one command. -/
theorem Receiver.feed_rest (i : Screen16) (last : Time) (b : Byte) (bs : List (Time × Byte)) :
    ∀ (d : List Byte) (t : Time) (first : Byte),
      (d ++ bs.map (·.2) ++ [b]).length = u8 (d ++ bs.map (·.2) ++ [b]) 0 + 2 →
      ((t, first) :: bs ++ [(last, b)]).IsChain (fun x y => y.1 ≤ x.1 + 1000) →
      Receiver.feed i ⟨some d, t⟩ (bs ++ [(last, b)]) =
        (⟨none, last⟩, [frameCommand last i (d ++ bs.map (·.2) ++ [b])]) := by
  induction bs with
  | nil =>
    intro d t first whole inTime
    simp only [List.map_nil, List.append_nil] at whole ⊢
    have soon : last ≤ t + 1000 := (List.isChain_cons_cons.mp inTime).1
    simp [Receiver.feed, Receiver.byte_ends last t i b d soon whole]
  | cons x bs ih =>
    intro d t first whole inTime
    obtain ⟨soon, rest⟩ := List.isChain_cons_cons.mp inTime
    have split : d ++ (x :: bs).map (·.2) ++ [b] = (d ++ [x.2]) ++ bs.map (·.2) ++ [b] := by simp
    rw [split] at whole ⊢
    have more : (d ++ [x.2]).length ≠ u8 (d ++ [x.2]) 0 + 2 := by
      have zero : u8 ((d ++ [x.2]) ++ bs.map (·.2) ++ [b]) 0 = u8 (d ++ [x.2]) 0 := by
        rw [List.append_assoc (d ++ [x.2])]
        exact u8_append_zero _ _ (by simp)
      simp only [zero, List.length_append] at whole ⊢
      simp only [List.length_cons, List.length_nil] at whole ⊢
      omega
    have joined := Receiver.byte_joins x.1 t i x.2 d soon more
    show Receiver.feed i ⟨some d, t⟩ (x :: (bs ++ [(last, b)])) = _
    simp only [Receiver.feed, joined]
    rw [ih (d ++ [x.2]) x.1 x.2 whole rest]
    rfl

theorem Receiver.feed_frame (i : Screen16) (t last : Time) (b : Byte) (bs : List (Time × Byte)) (r : Receiver)
    (between : r.partialFrame = none)
    (whole : (bs ++ [(last, b)]).length = u8 ((bs ++ [(last, b)]).map (·.2)) 0 + 2)
    (inTime : ((t, 126) :: bs ++ [(last, b)]).IsChain (fun x y => y.1 ≤ x.1 + 1000)) :
    r.feed i ((t, 126) :: bs ++ [(last, b)]) =
      ({ partialFrame := none, lastByte := last }, [frameCommand last i ((bs ++ [(last, b)]).map (·.2))]) := by
  have bytes : (bs ++ [(last, b)]).map (·.2) = [] ++ bs.map (·.2) ++ [b] := by simp
  have length : (bs ++ [(last, b)]).length = (([] : List Byte) ++ bs.map (·.2) ++ [b]).length := by
    simp
  rw [bytes, length] at whole
  show Receiver.feed i r ((t, 126) :: (bs ++ [(last, b)])) = _
  simp only [Receiver.feed, Receiver.byte_between t i 126 r between]
  rw [bytes, ← Receiver.feed_rest i last b bs [] t 126 whole inTime]
  rfl

theorem Receiver.gap_ends (t : Time) (i : Screen16) (r : Receiver) (d : List Byte) (held : r.partialFrame = some d)
    (late : r.lastByte + 1000 < t) : r.gap t i = ({ r with partialFrame := none }, some (.frameGapTimeout t i)) := by
  have gap : r.lastByte + Config.frameGap < t := late
  simp only [Receiver.gap, held, if_pos gap]

theorem Receiver.gap_stands (t : Time) (i : Screen16) (r : Receiver) (d : List Byte) (held : r.partialFrame = some d)
    (inTime : t ≤ r.lastByte + 1000) : r.gap t i = (r, none) := by
  have noGap : ¬ r.lastByte + Config.frameGap < t := Nat.not_lt.mpr inTime
  simp only [Receiver.gap, held, if_neg noGap]

/-- Settles O58: the bytes of SHOW and CLEAR, the replies read back from their frames, and the receiver on the bytes of one
frame. -/
theorem framesSentAndRead : Obligations.FramesSentAndRead := by
  unfold Obligations.FramesSentAndRead
  refine ⟨messageFrame_reads, transitions_resolved, ?_, ?_, ?_, Receiver.feed_frame, ?_⟩
  · intro t i tag reason caps f n time capacity
    exact ⟨frameCommand_done t i tag, frameCommand_refused t i tag reason,
      frameCommand_helloReply t i tag caps f n time capacity, frameCommand_tagChanged t i tag⟩
  · intro t i d bad
    refine frameCommand_discarded t i d (bad.imp ?_ ?_)
    · rintro ⟨hello, done, refused⟩ known
      rcases (lengthOfKind_some _ _).mp known with ⟨kind, length⟩ | ⟨kind, length⟩ | ⟨kind, length⟩
      · exact hello.elim (fun ne => ne kind) fun ne => ne length
      · exact done.elim (fun ne => ne kind) fun ne => ne length
      · exact refused.elim (fun ne => ne kind) fun ne => ne length
    · intro sum zero
      rw [← byteSum_toNat, zero] at sum
      exact sum rfl
  · intro t i b r between
    rw [Receiver.byte_between t i b r between]
    exact ⟨fun other => by rw [Receiver.start, if_neg other], fun start => by simp [Receiver.start, start]⟩
  · intro t i b r d held
    exact ⟨fun late => ⟨Receiver.byte_late t i b r d held late, Receiver.gap_ends t i r d held late⟩,
      Receiver.gap_stands t i r d held⟩

end Sys2Proof.Machine
end

section
/-! The status refresh (R192, R193): its writes one after another, and the fields of its snapshot at their bytes. -/

namespace Sys2Proof.Machine

/-! ### Parts of byte strings -/

@[simp] theorem le_length (n v : Nat) : (le n v).length = n := by
  induction n generalizing v with
  | zero => rfl
  | succ n ih => exact congrArg Nat.succ (ih _)

@[simp] theorem leInt_length (n : Nat) (v : Int) : (leInt n v).length = n := le_length n _

@[simp] theorem zeros_length (n : Nat) : (zeros n).length = n := List.length_replicate

theorem slice_slice (d : List Byte) (i n j k : Nat) (inside : j + k ≤ n) :
    slice (slice d i n) j k = slice d (i + j) k := by
  have short : min k (n - j) = k := by omega
  simp [slice, List.drop_take, List.take_take, short]

/-- A field of a block that is a part of a longer string stands in that string too. -/
theorem slice_of_block {d block : List Byte} {at_ size : Nat} (part : slice d at_ size = block) (j n : Nat)
    (inside : j + n ≤ size) : slice d (at_ + j) n = slice block j n := by
  rw [← part, slice_slice d at_ size j n inside]

theorem slice_append_left (d e : List Byte) (i n : Nat) (inside : i + n ≤ d.length) :
    slice (d ++ e) i n = slice d i n := by
  rw [slice, slice, List.drop_append_of_le_length (by omega), List.take_append_of_le_length (by simp; omega)]

theorem slice_append_right (d e : List Byte) (i n : Nat) : slice (d ++ e) (d.length + i) n = slice e i n := by
  simp [slice, List.drop_append, List.drop_eq_nil_of_le]

/-- The piece of one element in a string of pieces of one size. -/
theorem slice_flatMap {α : Type} (f : α → List Byte) (size : Nat) (sized : ∀ x, (f x).length = size) (j n : Nat)
    (inside : j + n ≤ size) (xs : List α) (i : Nat) (x : α) (there : xs[i]? = some x) :
    slice (xs.flatMap f) (size * i + j) n = slice (f x) j n := by
  induction xs generalizing i with
  | nil => simp at there
  | cons y ys ih =>
    rw [List.flatMap_cons]
    match i with
    | 0 =>
      obtain rfl : y = x := by simpa using there
      rw [Nat.mul_zero, Nat.zero_add]
      exact slice_append_left _ _ j n (by rw [sized]; exact inside)
    | i + 1 =>
      have place : size * (i + 1) + j = (f y).length + (size * i + j) := by rw [sized]; ring
      rw [place, slice_append_right]
      exact ih i (by simpa using there)

theorem length_flatMap_sized {α : Type} (f : α → List Byte) (size : Nat) (sized : ∀ x, (f x).length = size)
    (xs : List α) : (xs.flatMap f).length = size * xs.length := by
  induction xs with
  | nil => rfl
  | cons x xs ih =>
    rw [List.flatMap_cons, List.length_append, ih, sized, List.length_cons]
    ring

/-! ### The writes of a refresh -/

/-- A string cut into pieces of `k` bytes at its place. -/
theorem pieces_chunks (k n : Nat) : ∀ (place : Nat) (d : List Byte),
    d.length ≤ k * n → k * n < d.length + k →
    pieces place (chunks n k d) = (List.range n).map fun j => (place + k * j, slice d (k * j) k) := by
  induction n with
  | zero => exact fun _ _ _ _ => rfl
  | succ n ih =>
    intro place d fits full
    rw [Nat.mul_succ] at fits full
    have some : d ≠ [] := by
      rintro rfl
      simp at full
    rw [chunks_cons n k some, pieces, List.range_succ_eq_map, List.map_cons, List.map_map, List.cons.injEq]
    refine ⟨rfl, ?_⟩
    match n with
    | 0 => rfl
    | n + 1 =>
      rw [Nat.mul_succ] at fits full
      have whole : (d.take k).length = k := List.length_take_of_le (by omega)
      rw [whole, ih (place + k) (d.drop k) (by rw [List.length_drop]; rw [Nat.mul_succ]; omega)
        (by rw [List.length_drop]; rw [Nat.mul_succ]; omega)]
      refine List.map_congr_left fun j _ => ?_
      have next : k * (j + 1) = k + k * j := by ring
      simp [slice, next, Nat.add_assoc]

theorem statusControl_length (s : State) : s.statusControl.length = 16 := by
  simp [State.statusControl]
theorem statusTracker_length (s : State) : s.statusTracker.length = 32 := by
  simp [State.statusTracker]
theorem statusWalker_length (s : State) : s.statusWalker.length = 32 := by
  simp [State.statusWalker]
theorem statusScheduler_length (s : State) : s.statusScheduler.length = 24 := by
  simp [State.statusScheduler]
theorem statusDescriptors_length (s : State) : s.statusDescriptors.length = 24 := by
  simp [State.statusDescriptors]
theorem statusInterface_length (s : State) : s.statusInterface.length = 14 := by
  simp [State.statusInterface]
theorem statusScreen_length (s : State) (i : Screen16) : (s.statusScreen i).length = 16 := by
  simp [State.statusScreen]

/-- The last accepted edges of the lines in the status of the Desk Port. -/
def State.edgeBytes (s : State) : List Byte := s.desk.lines.toList.flatMap fun l => le 4 (l.lastEdge.getD 0)

/-- The three counts of a line. -/
def LinePort.countBytes (l : LinePort) : List Byte := le 4 l.accepted ++ le 4 l.debounced ++ le 4 l.ignored

/-- The counts of the lines in the status of the Desk Port. -/
def State.lineBytes (s : State) : List Byte := s.desk.lines.toList.flatMap LinePort.countBytes

theorem edgeBytes_length (s : State) : s.edgeBytes.length = 24 :=
  (length_flatMap_sized _ 4 (fun _ => rfl) _).trans (by simp)

theorem lineBytes_length (s : State) : s.lineBytes.length = 72 :=
  (length_flatMap_sized LinePort.countBytes 12 (fun _ => rfl) _).trans (by simp)

theorem statusDesk_eq (s : State) : s.statusDesk = le 1 (bitsOf (s.desk.lines.toList.map (·.level))) ++
    le 1 (bit s.desk.freezeLevel + 2 * bit s.desk.freezeWindow.isSome +
      4 * bitsOf (s.desk.lines.toList.map (·.lastEdge.isSome))) ++
    le 4 (s.desk.freezeWindow.getD 0) ++ s.edgeBytes ++ s.lineBytes := rfl

theorem statusDesk_length (s : State) : s.statusDesk.length = 102 := by
  simp [statusDesk_eq, edgeBytes_length, lineBytes_length]

theorem statusHeader_length (tag : Nat) (s : State) : (s.statusHeader tag).length = 252 := by
  simp [State.statusHeader, statusControl_length, statusTracker_length, statusWalker_length,
    statusScheduler_length, statusDescriptors_length, statusDesk_length, statusInterface_length]

theorem counters_length (x : Screen) : (x.counters.toList.flatMap (le 4)).length = 12 :=
  (length_flatMap_sized _ 4 (le_length 4) _).trans (by simp)

theorem statusCounters_length (s : State) : s.statusCounters.length = 192 :=
  (length_flatMap_sized _ 12 counters_length _).trans (by simp)

theorem statusScreens_length (s : State) : s.statusScreens.length = 256 :=
  (length_flatMap_sized _ 16 (statusScreen_length s) _).trans (by simp [allScreens])

theorem refreshWrites_eq (tag : Nat) (s : State) :
    s.refreshWrites tag = snapshotWrites (s.statusHeader tag) s.statusCounters s.statusScreens := by
  have header := pieces_chunks 32 8 4 (s.statusHeader tag) (by rw [statusHeader_length]; decide)
    (by rw [statusHeader_length]; decide)
  have counters := pieces_chunks 32 6 2048 s.statusCounters (by rw [statusCounters_length])
    (by rw [statusCounters_length]; decide)
  have screens := pieces_chunks 32 8 2304 s.statusScreens (by rw [statusScreens_length])
    (by rw [statusScreens_length]; decide)
  rw [State.refreshWrites, header, counters, screens]
  rfl

/-! ### The fields of the snapshot -/

theorem slice_part {d : List Byte} {i n : Nat} (before block after : List Byte) (parts : d = before ++ (block ++ after))
    (place : before.length = i) (size : block.length = n) : slice d i n = block := by
  subst parts place size
  simp [slice]

theorem slice_last (before block : List Byte) {i n : Nat} (place : before.length = i) (size : block.length = n) :
    slice (before ++ block) i n = block :=
  slice_part before block [] (by simp) place size

theorem header_control (tag : Nat) (s : State) : slice (s.statusHeader tag) 4 16 = s.statusControl :=
  slice_part (le 4 tag) s.statusControl (s.statusTracker ++ s.statusWalker ++ s.statusScheduler ++ s.statusDescriptors ++
    s.statusDesk ++ s.statusInterface ++ le 4 tag) (by simp [State.statusHeader]) (by simp) (statusControl_length s)

theorem header_tracker (tag : Nat) (s : State) : slice (s.statusHeader tag) 20 32 = s.statusTracker :=
  slice_part (le 4 tag ++ s.statusControl) s.statusTracker (s.statusWalker ++ s.statusScheduler ++
    s.statusDescriptors ++ s.statusDesk ++ s.statusInterface ++ le 4 tag) (by simp [State.statusHeader])
    (by simp [statusControl_length]) (statusTracker_length s)

theorem header_walker (tag : Nat) (s : State) : slice (s.statusHeader tag) 52 32 = s.statusWalker :=
  slice_part (le 4 tag ++ s.statusControl ++ s.statusTracker) s.statusWalker (s.statusScheduler ++
    s.statusDescriptors ++ s.statusDesk ++ s.statusInterface ++ le 4 tag) (by simp [State.statusHeader])
    (by simp [statusControl_length, statusTracker_length]) (statusWalker_length s)

theorem header_scheduler (tag : Nat) (s : State) : slice (s.statusHeader tag) 84 24 = s.statusScheduler :=
  slice_part (le 4 tag ++ s.statusControl ++ s.statusTracker ++ s.statusWalker) s.statusScheduler
    (s.statusDescriptors ++ s.statusDesk ++ s.statusInterface ++ le 4 tag) (by simp [State.statusHeader])
    (by simp [statusControl_length, statusTracker_length, statusWalker_length]) (statusScheduler_length s)

theorem header_descriptors (tag : Nat) (s : State) : slice (s.statusHeader tag) 108 24 = s.statusDescriptors :=
  slice_part (le 4 tag ++ s.statusControl ++ s.statusTracker ++ s.statusWalker ++ s.statusScheduler) s.statusDescriptors
    (s.statusDesk ++ s.statusInterface ++ le 4 tag) (by simp [State.statusHeader])
    (by simp [statusControl_length, statusTracker_length, statusWalker_length, statusScheduler_length])
    (statusDescriptors_length s)

theorem header_desk (tag : Nat) (s : State) : slice (s.statusHeader tag) 132 102 = s.statusDesk :=
  slice_part (le 4 tag ++ s.statusControl ++ s.statusTracker ++ s.statusWalker ++ s.statusScheduler ++
    s.statusDescriptors) s.statusDesk (s.statusInterface ++ le 4 tag) (by simp [State.statusHeader])
    (by simp [statusControl_length, statusTracker_length, statusWalker_length, statusScheduler_length,
      statusDescriptors_length]) (statusDesk_length s)

theorem header_interface (tag : Nat) (s : State) : slice (s.statusHeader tag) 234 14 = s.statusInterface :=
  slice_part (le 4 tag ++ s.statusControl ++ s.statusTracker ++ s.statusWalker ++ s.statusScheduler ++
    s.statusDescriptors ++ s.statusDesk) s.statusInterface (le 4 tag) (by simp [State.statusHeader])
    (by simp [statusControl_length, statusTracker_length, statusWalker_length, statusScheduler_length,
      statusDescriptors_length, statusDesk_length]) (statusInterface_length s)

theorem header_closing (tag : Nat) (s : State) : slice (s.statusHeader tag) 248 4 = le 4 tag :=
  slice_part (le 4 tag ++ s.statusControl ++ s.statusTracker ++ s.statusWalker ++ s.statusScheduler ++
    s.statusDescriptors ++ s.statusDesk ++ s.statusInterface) (le 4 tag) [] (by simp [State.statusHeader])
    (by simp [statusControl_length, statusTracker_length, statusWalker_length, statusScheduler_length,
      statusDescriptors_length, statusDesk_length, statusInterface_length]) (le_length 4 tag)

theorem zeros_succ (n : Nat) : zeros (n + 1) = 0 :: zeros n := rfl

theorem control_fields (tag : Nat) (s : State) : s.controlFields (s.statusHeader tag) := by
  have controlBytes := header_control tag s
  have trackerBytes := header_tracker tag s
  simp only [State.statusControl, State.statusTracker, le, zeros_succ, List.cons_append, List.nil_append]
    at controlBytes trackerBytes
  have control (j n : Nat) (inside : j + n ≤ 16 := by decide) := slice_of_block controlBytes j n inside
  have tracker (j n : Nat) (inside : j + n ≤ 32 := by decide) := slice_of_block trackerBytes j n inside
  exact ⟨control 0 1, control 1 1, control 2 1, control 3 1, control 4 1, control 5 1, control 6 1, control 7 1,
    control 8 2, control 10 4, control 14 2,
    tracker 0 1, tracker 1 1, tracker 2 1, tracker 3 1, tracker 4 1, tracker 5 3, tracker 8 4, tracker 12 4,
    tracker 16 8, tracker 24 8⟩

theorem show_fields (tag : Nat) (s : State) : s.showFields (s.statusHeader tag) := by
  have walkerBytes := header_walker tag s
  have cueBytes := header_scheduler tag s
  simp only [State.statusWalker, State.statusScheduler, leInt, le, zeros_succ, List.cons_append, List.nil_append]
    at walkerBytes cueBytes
  have walker (j n : Nat) (inside : j + n ≤ 32 := by decide) := slice_of_block walkerBytes j n inside
  have cues (j n : Nat) (inside : j + n ≤ 24 := by decide) := slice_of_block cueBytes j n inside
  exact ⟨walker 0 2, walker 2 2, walker 4 2, walker 6 1, walker 7 1, walker 8 1, walker 9 1, walker 10 2, walker 12 2,
    walker 14 2, walker 16 1, walker 17 1, walker 18 1, walker 19 1, walker 20 2, walker 22 4, walker 26 4, walker 30 2,
    cues 0 1, cues 1 1, cues 2 1, cues 3 1, cues 4 1, cues 5 1, cues 6 2, cues 8 4, cues 12 8, cues 20 4⟩

/-! #### The descriptors, the desk and the interface -/

theorem EntryState.isFetching_eq (e : EntryState) :
    (match e with | .fetching _ _ => true | _ => false) = e.isFetching := by
  cases e <;> rfl

theorem EntryState.isValid_eq (e : EntryState) :
    (match e with | .valid _ _ => true | _ => false) = (!e.isFetching && e != .absent) := by
  cases e <;> rfl

theorem descriptor_fetching (s : State) :
    slice s.statusDescriptors 0 1 = le 1 (s.du.entries.countP fun e => e.state.isFetching) := by
  refine congrArg (fun p => le 1 (s.du.entries.countP p)) (funext fun e => ?_)
  exact EntryState.isFetching_eq e.state

theorem descriptor_valid (s : State) :
    slice s.statusDescriptors 1 1 = le 1 (s.du.entries.countP fun e => !e.state.isFetching && e.state != .absent) := by
  refine congrArg (fun p => le 1 (s.du.entries.countP p)) (funext fun e => ?_)
  exact EntryState.isValid_eq e.state

/-- The bytes of the Desk Port before the lines' own. -/
def State.deskHead (s : State) : List Byte :=
  le 1 (bitsOf (s.desk.lines.toList.map (·.level))) ++
    le 1 (bit s.desk.freezeLevel + 2 * bit s.desk.freezeWindow.isSome +
      4 * bitsOf (s.desk.lines.toList.map (·.lastEdge.isSome))) ++
    le 4 (s.desk.freezeWindow.getD 0)

theorem desk_head (s : State) : slice s.statusDesk 0 6 = s.deskHead :=
  slice_part [] s.deskHead (s.edgeBytes ++ s.lineBytes) (by simp [statusDesk_eq, State.deskHead]) rfl
    (by simp [State.deskHead])

theorem desk_edges (s : State) : slice s.statusDesk 6 24 = s.edgeBytes :=
  slice_part s.deskHead s.edgeBytes s.lineBytes (by simp [statusDesk_eq, State.deskHead]) (by simp [State.deskHead])
    (edgeBytes_length s)

theorem desk_lines (s : State) : slice s.statusDesk 30 72 = s.lineBytes :=
  slice_part (s.deskHead ++ s.edgeBytes) s.lineBytes [] (by simp [statusDesk_eq, State.deskHead])
    (by simp [State.deskHead, edgeBytes_length]) (lineBytes_length s)

theorem line_at (s : State) (i : Fin 6) : s.desk.lines.toList[i.val]? = some s.desk.lines[i] := by
  simp

theorem line_edge (s : State) (i : Fin 6) :
    slice s.statusDesk (6 + 4 * i.val) 4 = le 4 (s.desk.lines[i].lastEdge.getD 0) := by
  rw [slice_of_block (desk_edges s) (4 * i.val) 4 (by omega)]
  exact slice_flatMap (fun l : LinePort => le 4 (l.lastEdge.getD 0)) 4 (fun _ => rfl) 0 4 (by decide) _ i.val _
    (line_at s i)

/-- The three counts of line `i`, `n` of its 12 bytes from byte `j` on. -/
theorem line_counts (s : State) (i : Fin 6) (j n : Nat) (inside : j + n ≤ 12) :
    slice s.statusDesk (30 + (12 * i.val + j)) n = slice s.desk.lines[i].countBytes j n := by
  rw [slice_of_block (desk_lines s) (12 * i.val + j) n (by omega)]
  exact slice_flatMap LinePort.countBytes 12 (fun _ => rfl) j n inside _ i.val _ (line_at s i)

theorem port_fields (tag : Nat) (s : State) : s.portFields (s.statusHeader tag) := by
  have titles (j n : Nat) (inside : j + n ≤ 24 := by decide) := slice_of_block (header_descriptors tag s) j n inside
  have desk (j n : Nat) (inside : j + n ≤ 102) := slice_of_block (header_desk tag s) j n inside
  have front : slice (s.statusHeader tag) 132 6 = s.deskHead := (desk 0 6 (by decide)).trans (desk_head s)
  have head (j n : Nat) (inside : j + n ≤ 6 := by decide) := slice_of_block front j n inside
  have port (j n : Nat) (inside : j + n ≤ 14 := by decide) := slice_of_block (header_interface tag s) j n inside
  have lines (i : Fin 6) : holdsAt (s.statusHeader tag) (142 + 4 * i.val) 4 (s.desk.lines[i].lastEdge.getD 0) ∧
      holdsAt (s.statusHeader tag) (166 + 12 * i.val) 4 s.desk.lines[i].accepted ∧
      holdsAt (s.statusHeader tag) (170 + 12 * i.val) 4 s.desk.lines[i].debounced ∧
      holdsAt (s.statusHeader tag) (174 + 12 * i.val) 4 s.desk.lines[i].ignored := by
    have count (j n : Nat) (inside : j + n ≤ 12) : slice (s.statusHeader tag) (132 + (30 + (12 * i.val + j))) n = _ :=
      (desk _ n (by omega)).trans (line_counts s i j n inside)
    refine ⟨?_, ?_, ?_, ?_⟩ <;> unfold holdsAt
    · rw [show 142 + 4 * i.val - 4 = 132 + (6 + 4 * i.val) by omega]
      exact (desk _ 4 (by omega)).trans (line_edge s i)
    · rw [show 166 + 12 * i.val - 4 = 132 + (30 + (12 * i.val + 0)) by omega]
      exact count 0 4 (by decide)
    · rw [show 170 + 12 * i.val - 4 = 132 + (30 + (12 * i.val + 4)) by omega]
      exact count 4 4 (by decide)
    · rw [show 174 + 12 * i.val - 4 = 132 + (30 + (12 * i.val + 8)) by omega]
      exact count 8 4 (by decide)
  exact ⟨(titles 0 1).trans (descriptor_fetching s), (titles 1 1).trans (descriptor_valid s), titles 2 1, titles 3 1,
    titles 4 2, titles 6 2, titles 8 1, titles 9 1, titles 10 4, titles 14 4, titles 18 4, titles 22 2,
    head 0 1, head 1 1, head 2 4, lines,
    port 0 1, port 1 1, port 2 1, port 3 1, port 4 1, port 5 1, port 6 1, port 7 1, port 8 4, port 12 2⟩

theorem counter_fields (s : State) (i : Fin 16) (j : Fin 3) :
    slice s.statusCounters (12 * i.val + 4 * j.val) 4 = le 4 (s.screen i).counters[j] := by
  refine (slice_flatMap (fun x : Screen => x.counters.toList.flatMap (le 4)) 12 counters_length (4 * j.val) 4 (by omega)
    _ i.val (s.screen i) (by simp [State.screen])).trans ?_
  exact slice_flatMap (le 4) 4 (le_length 4) 0 4 (by decide) _ j.val _ (by simp)

theorem OnScreen.code_eq (o : OnScreen) : o.code = match o with | .unknown => 9 | .blank => 8 | .entry l _ => l.val := by
  cases o <;> rfl

theorem allScreens_get (i : Screen16) : allScreens[i.val]? = some i := by
  fin_cases i <;> rfl

/-- The role of a screen in the mirror pair: 1 source, 2 monitor, 0 neither (R138). -/
theorem role_eq (mirror : Option (Screen16 × Screen16)) (i : Screen16) :
    (match mirror with | none => 0 | some (a, b) => if a = i then 1 else if b = i then 2 else 0) =
      if mirror.any (·.1 == i) then 1 else if mirror.any (·.2 == i) then 2 else 0 := by
  cases mirror with
  | none => rfl
  | some p => simp

theorem capsBits_eq (c : Option Caps) : capsBits c =
    (c.map fun c => 8 + 16 * bit c.fade + 32 * bit c.overlap + 64 * ((c.capacity - 1) % 4)).getD 0 := by
  cases c <;> rfl

theorem ceilDiv_eq (n : Nat) : ceilDiv n 100000 = (n + 99999) / 100000 := by
  rw [ceilDiv, Nat.add_sub_assoc (by decide)]

theorem untilTime_eq (now : Time) : untilTime now = fun t => (t - now + 99999) / 100000 :=
  funext fun t => ceilDiv_eq (t - now)

theorem dwellLeft_of_shown {now : Time} {x : Screen} {p : Level × Entry} (shown : x.shownTop = some p) :
    untilTime now (p.2.dwellEnd.getD 0) = (p.2.visibleSince.getD 0 + p.2.minDwell.getD 0 - now + 99999) / 100000 := by
  have visible : p.2.visibleSince.isSome = true := (Option.filter_eq_some_iff.mp shown).2
  obtain ⟨since, stands⟩ := Option.isSome_iff_exists.mp visible
  simp [Entry.dwellEnd, stands, untilTime_eq]

theorem screen_dwell (s : State) (i : Screen16) :
    slice (s.statusScreen i) 12 1 = le 1 (((s.screen i).shownTop.map fun q =>
      (q.2.visibleSince.getD 0 + q.2.minDwell.getD 0 - s.clock + 99999) / 100000).getD 255) := by
  unfold State.statusScreen
  rw [slice_append_left _ _ 12 1 (by simp), slice_append_left _ _ 12 1 (by simp), slice_append_left _ _ 12 1 (by simp)]
  refine (slice_last _ _ (by simp) (le_length 1 _)).trans (congrArg (le 1) ?_)
  cases shown : (s.screen i).shownTop with
  | none => rfl
  | some p =>
    refine Eq.trans (b := untilTime s.clock (p.2.dwellEnd.getD 0)) rfl ((dwellLeft_of_shown shown).trans ?_)
    rw [Option.map_some, Option.getD_some]

theorem screen_tag (s : State) (i : Screen16) : slice (s.statusScreen i) 6 1 = le 1 (s.link i).tag.toNat := by
  simp [State.statusScreen, slice, le]

theorem screens_part (s : State) (i : Screen16) : slice s.statusScreens (16 * i.val) 16 = s.statusScreen i := by
  refine (slice_flatMap s.statusScreen 16 (statusScreen_length s) 0 16 (by decide) allScreens i.val i
    (allScreens_get i)).trans ?_
  rw [slice, List.drop_zero, List.take_of_length_le (Nat.le_of_eq (statusScreen_length s i))]

theorem screen_fields (s : State) (i : Screen16) : s.screenFields i s.statusScreens := by
  have block (j n : Nat) (inside : j + n ≤ 16) := slice_of_block (screens_part s i) j n inside
  have dwell := (block 12 1 (by decide)).trans (screen_dwell s i)
  have tag := (block 6 1 (by decide)).trans (screen_tag s i)
  have bytes := screens_part s i
  simp only [State.statusScreen, le, List.cons_append, List.nil_append, untilTime_eq, ceilDiv_eq] at bytes
  have part (j n : Nat) (inside : j + n ≤ 16 := by decide) := slice_of_block bytes j n inside
  have second : (s.screen i).onScreen.code + 16 * _ + _ = _ + 16 * _ + _ :=
    congrArg₂ (fun o r => o + 16 * r + 64 * ((s.link i).op.map (·.kind.code)).getD 0)
      (OnScreen.code_eq (s.screen i).onScreen) (role_eq s.arb.mirror i)
  exact ⟨part 0 1, (part 1 1).trans (congrArg (le 1) second), part 2 1, part 3 1, part 4 1,
    (part 5 1).trans (congrArg (fun c => le 1 ((s.link i).state.code + c)) (capsBits_eq (s.link i).caps)),
    tag, part 7 1, part 8 2, part 10 2, dwell, part 13 1, part 14 1, part 15 1⟩

theorem snapshot_is (tag : Nat) (s : State) :
    s.snapshotIs tag (s.statusHeader tag) s.statusCounters s.statusScreens :=
  ⟨statusHeader_length tag s, statusCounters_length s, statusScreens_length s, rfl, control_fields tag s,
    show_fields tag s, port_fields tag s, header_closing tag s, counter_fields s, screen_fields s⟩

/-! ### The refresh -/

theorem execStatusWrite_answered (t : Time) {s : State} (h : s.answering .status) :
    exec (.statusWrite t) s = .next ((s.begin t).statusWritten).freePort :=
  congrArg Host.Outcome.next (State.answer_eq (State.answering_begin t h) rfl)

/-- The status timer runs again from its own expiry. -/
def State.statusRearmed (s : State) : State := { s with smi := { s.smi with statusTimer := s.smi.statusTimer + 50000 } }

theorem execStatusTimer_due {t : Time} {s : State} (due : s.smi.statusTimer ≤ max s.clock t) :
    exec (.statusTimer t) s = .next (s.begin t).statusRearmed.requestRefresh :=
  congrArg Host.Outcome.next (if_pos due)

theorem State.statusWritten_cons {s : State} {w : Nat × List Byte} {rest : List (Nat × List Byte)} {owed : Bool}
    (writing : s.smi.refresh = .writing (w :: rest) owed) :
    s.statusWritten = ({ s with smi := { s.smi with refresh := .writing rest owed } }).queueStatusWrite w := by
  unfold State.statusWritten
  rw [writing]

/-- The refresh has ended. -/
def State.refreshEnded (s : State) : State := { s with smi := { s.smi with refresh := .idle } }

theorem State.statusWritten_last {s : State} {owed : Bool} (writing : s.smi.refresh = .writing [] owed) :
    s.statusWritten = if owed then s.refreshEnded.startRefresh else s.refreshEnded := by
  unfold State.statusWritten State.endRefresh
  rw [writing]
  rfl

/-- Settles O40: the timer and the writes of a refresh, and the snapshot block by block. -/
theorem statusRefresh : Obligations.StatusRefresh := by
  unfold Obligations.StatusRefresh
  refine ⟨?_, ?_, ?_, ?_, ?_, fun tag s => snapshot_is tag s⟩
  · intro t s due idle
    refine ⟨_, execStatusTimer_due due, ?_⟩
    rw [State.requestRefresh_idle (s := (s.begin t).statusRearmed) idle, State.startRefresh_eq, ← refreshWrites_eq]
    exact ⟨rfl, rfl, State.enqueue_holds _ _, rfl⟩
  · intro t s rest owed due writing
    rw [execStatusTimer_due due]
    unfold State.requestRefresh
    rw [show (s.begin t).statusRearmed.smi.refresh = _ from writing]
    rfl
  · intro t s o bs rest owed h writing
    obtain ⟨f, busy, -, -⟩ := State.answering_busy h
    refine ⟨_, execStatusWrite_answered t h, ?_⟩
    rw [State.statusWritten_cons (s := s.begin t) writing]
    exact ⟨rfl, rfl, State.enqueue_freePort_holds _ busy⟩
  · intro t s h writing
    refine ⟨_, execStatusWrite_answered t h, ?_⟩
    rw [State.statusWritten_last (s := s.begin t) writing]
    exact ⟨rfl, rfl⟩
  · intro t s h writing
    obtain ⟨f, busy, -, -⟩ := State.answering_busy h
    refine ⟨_, execStatusWrite_answered t h, ?_⟩
    rw [State.statusWritten_last (s := s.begin t) writing, if_pos rfl, State.startRefresh_eq]
    exact ⟨rfl, State.enqueue_freePort_holds _ busy⟩

end Sys2Proof.Machine
end

section
/-! Firing (R87 to R93): what an entry that fires leaves of the armed list and the rest of the show. -/

namespace Sys2Proof.Machine

/-! ### An emptied list stays empty -/

/-- Nothing is armed, and the fire record and FREEZE are these. -/
def State.emptied (r : Option FireRecord) (frozen : Bool) (s : State) : Prop :=
  s.sch.armed = [] ∧ s.sch.fireRecord = r ∧ s.sch.freeze = frozen

theorem State.emptied_of_sch {r : Option FireRecord} {frozen : Bool} {s u : State} (same : u.sch = s.sch)
    (h : s.emptied r frozen) : u.emptied r frozen := by
  unfold State.emptied
  rw [same]
  exact h

theorem Ends.emptied (r : Option FireRecord) (frozen : Bool) : Ends (State.emptied r frozen) where
  journalAt t b s h := State.emptied_of_sch (State.onlyBus_sch (State.journalAt_onlyBus t b s.onlyBus_refl)) h
  smi _ _ _ h := h
  setCause _ _ h := h
  enqueue _ _ h := h
  setCtl _ _ h := h

section Emptied

variable {r : Option FireRecord} {frozen : Bool} {s : State} (h : s.emptied r frozen)
include h

theorem State.emptied_map (f : Armed → Armed) : (s.setArmed (s.sch.armed.map f)).emptied r frozen := by
  obtain ⟨empty, record, freeze⟩ := h
  exact ⟨by rw [State.setArmed, empty]; rfl, record, freeze⟩

theorem State.emptied_trackerChanged (o : TrackerState) (c : TrackCause) : (s.trackerChanged o c).emptied r frozen := by
  obtain ⟨record', -, freeze', armed'⟩ := State.trackerChanged_sch o c s
  obtain ⟨empty, record, freeze⟩ := h
  refine ⟨?_, record'.trans record, freeze'.trans freeze⟩
  rcases armed' with same | gated
  · rw [same, empty]
  · rw [gated, empty]
    rfl

theorem State.emptied_lockFromCalled (x : Section) : (s.lockFromCalled x).emptied r frozen := by
  refine State.emptied_trackerChanged ?_ _ _
  exact h

theorem State.emptied_overrun (n : Nat) (o : Option Int) : (s.overrun n o).emptied r frozen := by
  unfold State.overrun
  split
  · split
    · exact (Ends.emptied r frozen).journalAt _ _ _ h
    · exact h
  · exact h

theorem State.emptied_testEnd : s.testEnd.emptied r frozen := by
  unfold State.testEnd
  split
  · refine (Ends.emptied r frozen).changeEngine _ _ _ _ _ _ ?_
    exact State.emptied_trackerChanged (s := s.setTracker s.trk.suspended) h _ _
  · exact h

theorem State.emptied_goCalled (n : Nat) (g : Time) : (State.goCalled n g s).emptied r frozen := by
  induction n generalizing s with
  | zero => exact h
  | succ n ih =>
    have journaled (w : Walker) (c : EnterCause) : ((s.setWalker w).journalEntered c).emptied r frozen :=
      (Ends.emptied r frozen).journalAt _ _ _ h
    unfold State.goCalled
    repeat' split
    all_goals first
      | with_reducible exact h
      | exact State.emptied_of_sch (s := s) rfl h
      | exact State.emptied_map h _
      | exact State.emptied_testEnd (State.emptied_overrun (journaled _ _) _ _)
      | exact ih (State.emptied_overrun (journaled _ _) _ _)
      | exact State.emptied_overrun (State.emptied_lockFromCalled (journaled _ _) _) _ _

theorem State.emptied_moveFireCursor (c : Nat) : (s.moveFireCursor c).emptied r frozen := by
  have acted (w : Walker) : (s.setWalker w).actOwedGo.emptied r frozen := by
    unfold State.actOwedGo
    split
    · exact h
    · refine State.emptied_goCalled ?_ _ _
      exact h
  unfold State.moveFireCursor
  split
  · split
    · split
      · exact acted _
      · exact h
    · exact h
  · exact h

theorem State.emptied_cueFired (e : Armed) : (s.cueFired e).emptied r frozen := by
  unfold State.cueFired
  extract_lets called w counted moved
  have h1 : counted.emptied r frozen := by
    unfold counted
    split
    · exact h
    · exact h
  have h2 : moved.emptied r frozen := by
    unfold moved
    split
    · exact State.emptied_moveFireCursor h1 _
    · exact h1
  obtain ⟨frame, -⟩ := State.reviewOffers_only moved
  rw [frame]
  exact h2

end Emptied

/-! ### What a fire reports -/

/-- The requests of a fire have been placed, and the screens that received one. -/
def State.fired (e : Armed) (s : State) : State × BitVec 16 := allScreens.foldl (fireAt e) (s, 0)

/-- The walker with a fired TITLE in its history (R69). -/
def Walker.remembers (e : Armed) (screens : BitVec 16) (w : Walker) : Walker :=
  match e.copy.action with
  | .blank => w
  | .title => { w with history := (e.historyEntry screens :: w.history).take 16 }

/-- A fire up to the leaving of the list: requests, records, history, and the pins let go. -/
def State.fireReported (e : Armed) (s : State) : State :=
  ((((s.fired e).1.journalFire e (s.fired e).2).journalMissing e (s.missing e)).remember e (s.fired e).2).releaseKeys
    e.pinnedKeys

theorem State.fireEntry_eq (e : Armed) (s : State) : s.fireEntry e =
    (((s.fireReported e).leaveList e).cueFired e).timeFollower e.cue e.pass (e.appear.getD 0) := rfl

theorem fireAt_only {s : State} (e : Armed) (p : State × BitVec 16) (i : Screen16) (h : s.onlyScreens p.1) :
    s.onlyScreens (fireAt e p i).1 := by
  have placed (r : Request) : s.onlyScreens (p.1.placeRequest i r) := (Screens.only s).placeRequest i r p.1 h
  unfold fireAt
  split
  · split
    · exact placed _
    · dsimp only
      split
      · exact h
      · exact placed _
  · exact h

theorem State.fired_only (e : Armed) (s : State) : s.onlyScreens (s.fired e).1 :=
  foldl_keeps_fst (P := s.onlyScreens) (fireAt_only e) allScreens (s, 0) s.onlyScreens_refl

theorem State.journalFire_onlyBus (e : Armed) (screens : BitVec 16) (s : State) : s.onlyBus (s.journalFire e screens) := by
  unfold State.journalFire
  dsimp only
  split
  · exact (Bus.only s).journal _ _ ((Bus.only s).journal _ _ s.onlyBus_refl)
  · exact (Bus.only s).journal _ _ s.onlyBus_refl

theorem State.journalMissing_onlyBus (e : Armed) (ms : List (Lang × Nat)) (s : State) :
    s.onlyBus (s.journalMissing e ms) :=
  foldl_keeps (fun u _ h => (Bus.only s).journal _ u h) ms s s.onlyBus_refl

theorem State.remember_eq (e : Armed) (screens : BitVec 16) (s : State) :
    s.remember e screens = s.setWalker (s.wlk.remembers e screens) := by
  unfold State.remember Walker.remembers
  cases e.copy.action <;> rfl

theorem State.releaseKeys_only (keys : List (Key × KeyResult)) (s : State) : s.onlyTitles (s.releaseKeys keys) :=
  (Titles.only s).releaseKeys keys s s.onlyTitles_refl

/-- Up to the leaving of the list, a fire changes the screens, the history, the Descriptor Unit and the interface. -/
theorem State.fireReported_frame (e : Armed) (s : State) :
    s.fireReported e = { (s.fired e).1 with
      wlk := s.wlk.remembers e (s.fired e).2, du := (s.fireReported e).du, smi := (s.fireReported e).smi } := by
  obtain ⟨⟨-, wlk, -, -, -⟩, -⟩ := State.fired_only e s
  have journaled := State.onlyBus_trans (State.journalFire_onlyBus e (s.fired e).2 (s.fired e).1)
    (State.journalMissing_onlyBus e (s.missing e) _)
  have released := (State.releaseKeys_only e.pinnedKeys ((((s.fired e).1.journalFire e (s.fired e).2).journalMissing e
    (s.missing e)).remember e (s.fired e).2)).1
  unfold State.fireReported
  rw [State.remember_eq] at released ⊢
  generalize ((s.fired e).1.journalFire e (s.fired e).2).journalMissing e (s.missing e) = v at *
  rw [State.onlyBus_wlk journaled, wlk] at released ⊢
  generalize State.releaseKeys e.pinnedKeys (v.setWalker (s.wlk.remembers e (s.fired e).2)) = u at *
  rw [released, journaled]
  rfl

/-- What a fire has left of the show when the entry leaves the list. -/
theorem State.fireReported_show (e : Armed) (s : State) :
    (s.fireReported e).trk = s.trk ∧ (s.fireReported e).sch = s.sch ∧ (s.fireReported e).desk = s.desk ∧
    (s.fireReported e).ctl = s.ctl ∧ (s.fireReported e).clock = s.clock ∧
    (s.fireReported e).wlk = s.wlk.remembers e (s.fired e).2 := by
  obtain ⟨⟨trk, -, sch, -, desk⟩, ctl, clock, -⟩ := State.fired_only e s
  rw [State.fireReported_frame]
  exact ⟨trk, sch, desk, ctl, clock, rfl⟩

/-! ### The entry leaves the list -/

/-- The scheduler once an entry has left the list (R90). -/
def Scheduler.left (e : Armed) (c : Scheduler) : Scheduler :=
  { c with
    fireRecord := some { cue := e.cue, pass := e.pass, appear := e.appear.getD 0 }
    armed := c.armed.filter fun x => !x.isOf e.cue e.pass }

theorem State.leaveList_eq (e : Armed) (s : State) : s.leaveList e = { s with sch := s.sch.left e }.testEnd := rfl

/-- The last entry of the list fires: nothing is armed then, and the fire record names it. -/
theorem State.fireEntry_last {e : Armed} {s : State} (last : ∀ x ∈ s.sch.armed, x.isOf e.cue e.pass = true) :
    (s.fireEntry e).emptied (some { cue := e.cue, pass := e.pass, appear := e.appear.getD 0 }) s.sch.freeze := by
  obtain ⟨-, sch, -⟩ := State.fireReported_show e s
  have gone : State.emptied (some { cue := e.cue, pass := e.pass, appear := e.appear.getD 0 }) s.sch.freeze
      { s.fireReported e with sch := (s.fireReported e).sch.left e } := by
    refine ⟨?_, rfl, ?_⟩
    · show ((s.fireReported e).sch.armed.filter fun x => !x.isOf e.cue e.pass) = []
      rw [sch, List.filter_eq_nil_iff]
      exact fun x there => by simp [last x there]
    · show (s.fireReported e).sch.freeze = s.sch.freeze
      rw [sch]
  exact State.emptied_map (State.emptied_cueFired (State.emptied_testEnd gone) e) _

/-- From the leaving of the list on, a fire changes the tracker, the walker, the scheduler and the interface alone. -/
theorem State.fireEntry_onlyWalk (e : Armed) (s : State) : (s.fireReported e).onlyWalk (s.fireEntry e) := by
  have walks := Walks.only (s.fireReported e)
  rw [State.fireEntry_eq]
  refine walks.updateArmed _ _ _ _ (walks.cueFired _ _ (walks.testEnd _ (walks.setSch _ _ rfl ?_ (State.onlyWalk_refl _))))
  intro empty
  rw [empty]
  rfl

theorem State.fireEntry_desk (e : Armed) (s : State) : (s.fireEntry e).desk = s.desk := by
  obtain ⟨-, desk, -⟩ := State.fireEntry_onlyWalk e s
  obtain ⟨-, -, desk', -⟩ := State.fireReported_show e s
  exact desk.trans desk'

theorem Armed.isComplete_iff (e : Armed) : e.isComplete = true ↔ ∀ p ∈ e.keys, p.2 ≠ .pending := by
  simp [Armed.isComplete]

theorem State.mayFire_iff (s : State) : s.mayFire = true ↔ s.ctl.engine = .running ∧ s.sch.freeze = false := by
  simp [State.mayFire]

theorem State.fireLoop_empty (n : Nat) {s : State} (empty : s.sch.armed = []) : State.fireLoop n s = s := by
  unfold State.fireLoop
  split
  · rfl
  · rw [empty]
    simp [State.firstFirable]

/-- A complete DUE entry alone in the list fires, and the list is empty (R87, R90). -/
theorem State.fireAll_alone {e : Armed} {s : State} (may : s.mayFire = true) (alone : s.sch.armed = [e])
    (due : e.timing = .due) (complete : e.isComplete = true) : s.fireAll = s.fireEntry e ∧
      s.fireAll.emptied (some { cue := e.cue, pass := e.pass, appear := e.appear.getD 0 }) s.sch.freeze := by
  have last := State.fireEntry_last (e := e) (s := s) (by simp [alone, Armed.isOf])
  have fires : s.fireAll = s.fireEntry e := by
    have first : s.firstFirable s.sch.armed = some e := by simp [alone, State.firstFirable, due, complete]
    unfold State.fireAll
    rw [State.fireLoop, if_pos may, first]
    exact State.fireLoop_empty _ last.1
  rw [fires]
  exact ⟨rfl, last⟩

end Sys2Proof.Machine
end

section
/-! The FREEZE level (R157, R87, R88): an edge accepted, one set aside, and the end of the window. -/

namespace Sys2Proof.Machine

/-- The Desk Port has accepted the level of FREEZE as of `at_`; the scheduler has not been told. -/
def State.freezeTaken (at_ : Time) (s : State) : State :=
  { s.setLine .freeze ((s.line .freeze).accept at_) with
    desk := { (s.setLine .freeze ((s.line .freeze).accept at_)).desk with
      freezeLevel := (s.line .freeze).level, freezeWindow := some (at_ + 8000) } }

/-- The level handed to the scheduler. -/
def State.frozen (asserted : Bool) (s : State) : State := { s with sch := { s.sch with freeze := asserted } }

theorem State.acceptFreeze_eq (at_ : Time) (s : State) :
    s.acceptFreeze at_ = (s.freezeTaken at_).handFreeze (s.line .freeze).level := rfl

/-- An assertion, or a release with nothing armed, fires nothing. -/
theorem State.handFreeze_quiet {a : Bool} {s : State} (quiet : a = true ∨ s.sch.armed = []) :
    s.handFreeze a = s.frozen a := by
  unfold State.handFreeze
  cases a with
  | true => rfl
  | false => exact State.fireAll_nothing (s := s.frozen false) (.inr (quiet.resolve_left (by decide)))

theorem State.handFreeze_release (s : State) : s.handFreeze false = (s.frozen false).fireAll := rfl

theorem State.freezeTaken_line (at_ : Time) (s : State) :
    (s.freezeTaken at_).line .freeze = (s.line .freeze).accept at_ :=
  State.setLine_line_self (s := s) .freeze _

theorem State.freezeTaken_line_ne (at_ : Time) (s : State) {l : Line} (other : l ≠ .freeze) :
    (s.freezeTaken at_).line l = s.line l :=
  State.setLine_line_ne (s := s) _ other.symm

theorem bump_min (n : Nat) : bump n = min 4294967295 (n + 1) := bump_eq n

/-- The input level of FREEZE as the edge leaves it. -/
def State.freezeInput (active : Bool) (s : State) : State := s.setLine .freeze { s.line .freeze with level := active }

theorem State.freezeInput_line (active : Bool) (s : State) :
    (s.freezeInput active).line .freeze = { s.line .freeze with level := active } :=
  State.setLine_line_self (s := s) .freeze _

theorem State.freezeInput_line_ne (active : Bool) (s : State) {l : Line} (other : l ≠ .freeze) :
    (s.freezeInput active).line l = s.line l :=
  State.setLine_line_ne (s := s) _ other.symm

/-- A change of level with no window running is accepted (R157). -/
theorem State.freezeEdge_accepted {active : Bool} {s : State}
    (noWindow : ∀ w, s.desk.freezeWindow = some w → w ≤ s.clock) (change : active ≠ s.desk.freezeLevel) :
    s.freezeEdge active = ((s.freezeInput active).freezeTaken s.clock).handFreeze active := by
  have opened : ((s.freezeInput active).desk.freezeWindow.all fun w => decide (w ≤ s.clock)) = true := by
    show (s.desk.freezeWindow.all fun w => decide (w ≤ s.clock)) = true
    cases window : s.desk.freezeWindow with
    | none => rfl
    | some w => simpa using noWindow w window
  show (if ((s.freezeInput active).desk.freezeWindow.all fun w => decide (w ≤ s.clock)) = true then
    (if active = s.desk.freezeLevel then _ else (s.freezeInput active).acceptFreeze s.clock) else _) = _
  rw [if_pos opened, if_neg change, State.acceptFreeze_eq, State.freezeInput_line]

/-- Within the window an edge is set aside (R157). -/
theorem State.freezeEdge_aside {active : Bool} {s : State} {w : Time} (window : s.desk.freezeWindow = some w)
    (within : s.clock < w) : s.freezeEdge active = s.setLine .freeze { s.line .freeze with
      level := active, debounced := min 4294967295 ((s.line .freeze).debounced + 1) } := by
  have closed : ¬ ((s.freezeInput active).desk.freezeWindow.all fun w => decide (w ≤ s.clock)) = true := by
    show ¬ (s.desk.freezeWindow.all fun w => decide (w ≤ s.clock)) = true
    rw [window]
    simpa using Nat.not_le.mpr within
  show (if ((s.freezeInput active).desk.freezeWindow.all fun w => decide (w ≤ s.clock)) = true then _
    else (s.freezeInput active).setLine .freeze ((s.freezeInput active).line .freeze).setAside) = _
  rw [if_neg closed, State.freezeInput_line, State.freezeInput, LinePort.setAside, bump_min]
  simp [State.setLine]

/-- What an accepted level leaves besides the scheduler (R157). -/
theorem State.freezeTaken_desk (at_ : Time) (s : State) :
    (s.freezeTaken at_).desk.freezeLevel = (s.line .freeze).level ∧
    (s.freezeTaken at_).desk.freezeWindow = some (at_ + 8000) ∧ (s.freezeTaken at_).trk = s.trk ∧
    (s.freezeTaken at_).wlk = s.wlk ∧ (s.freezeTaken at_).du = s.du ∧ (s.freezeTaken at_).arb = s.arb ∧
    (s.freezeTaken at_).links = s.links ∧ (s.freezeTaken at_).ctl = s.ctl ∧ (s.freezeTaken at_).smi = s.smi :=
  ⟨rfl, rfl, rfl, rfl, rfl, rfl, rfl, rfl, rfl⟩

/-- At the window's end a level that still differs is accepted as of that end (R157). -/
theorem State.endFreezeWindow_differs {s : State} {w : Time} (window : s.desk.freezeWindow = some w) (ended : w ≤ s.clock)
    (differs : (s.line .freeze).level ≠ s.desk.freezeLevel) :
    s.endFreezeWindow = (s.freezeTaken w).handFreeze (s.line .freeze).level := by
  unfold State.endFreezeWindow
  rw [window]
  dsimp only
  rw [if_pos ended, if_neg differs, State.acceptFreeze_eq]

theorem State.endFreezeWindow_same {s : State} {w : Time} (window : s.desk.freezeWindow = some w) (ended : w ≤ s.clock)
    (same : (s.line .freeze).level = s.desk.freezeLevel) :
    s.endFreezeWindow = { s with desk := { s.desk with freezeWindow := none } } := by
  unfold State.endFreezeWindow
  rw [window]
  dsimp only
  rw [if_pos ended, if_pos same]

/-- Settles O50: by the window and the level, and a release by the entry that fires. -/
theorem freezeAccepted : Obligations.FreezeAccepted := by
  refine ⟨fun t a s noWindow change quiet => ?accepted, fun t a s w window within => ?aside,
    fun t s w window ended same => ?same, fun t s e noWindow asserted running alone due complete noGo => ?release,
    fun t s w window ended differs quiet => ?differs⟩
  case accepted =>
    refine ⟨_, congrArg Host.Outcome.next (State.freezeEdge_accepted (s := s.begin t) noWindow change), ?_⟩
    rw [State.handFreeze_quiet (s := ((s.begin t).freezeInput a).freezeTaken (s.begin t).clock) quiet]
    have line := State.freezeTaken_line (s.begin t).clock ((s.begin t).freezeInput a)
    rw [State.freezeInput_line] at line
    have input := State.freezeInput_line a (s.begin t)
    refine ⟨rfl, congrArg LinePort.level input, rfl, congrArg LinePort.level line, congrArg LinePort.lastEdge line,
      (congrArg LinePort.accepted line).trans (bump_min _), fun l other => ?_, rfl, rfl, rfl, rfl, rfl, rfl, rfl⟩
    exact (State.freezeTaken_line_ne _ _ other).trans (State.freezeInput_line_ne a (s.begin t) other)
  case aside => exact congrArg Host.Outcome.next (State.freezeEdge_aside (s := s.begin t) window within)
  case same => exact congrArg Host.Outcome.next (State.endFreezeWindow_same (s := s.begin t) window ended same)
  case release =>
    refine ⟨_, congrArg Host.Outcome.next (State.freezeEdge_accepted (s := s.begin t) noWindow ?_), ?_⟩
    · rw [show (s.begin t).desk.freezeLevel = true from asserted]
      decide
    rw [State.handFreeze_release]
    obtain ⟨fires, empty, record, released⟩ := State.fireAll_alone (e := e)
      (s := (((s.begin t).freezeInput false).freezeTaken (s.begin t).clock).frozen false)
      ((State.mayFire_iff _).mpr ⟨running, rfl⟩) alone due ((Armed.isComplete_iff e).mpr complete)
    refine ⟨released, empty, record, ?_⟩
    rw [fires, State.fireEntry_desk]
    exact congrArg LinePort.level (State.freezeInput_line false (s.begin t))
  case differs =>
    refine ⟨_, congrArg Host.Outcome.next (State.endFreezeWindow_differs (s := s.begin t) window ended differs), ?_⟩
    rw [State.handFreeze_quiet (s := (s.begin t).freezeTaken w) (a := ((s.begin t).line .freeze).level) quiet]
    have line := State.freezeTaken_line w (s.begin t)
    refine ⟨rfl, rfl, rfl, ?_, ?_, rfl, rfl, rfl, rfl, rfl, rfl, rfl⟩
    · exact congrArg LinePort.lastEdge line
    · exact (congrArg LinePort.accepted line).trans (bump_min _)

end Sys2Proof.Machine
end

section
/-! The ways of the descriptor cache (R101 to R103, R105): what an access queued, an entry allocated and a way served leave
of the rest. -/

namespace Sys2Proof.Machine

/-! ### The port -/

theorem Port.holds_grant {now : Time} {p : Port} {a : Access} (h : p.holds a) : (p.grant now).holds a := by
  rcases h with ⟨f, inFlight, access⟩ | waiting
  · rw [Port.grant_busy now inFlight]
    exact .inl ⟨f, inFlight, access⟩
  · exact Port.grant_holds now waiting

/-- An access that the port holds is held still when another joins. -/
theorem State.enqueue_keeps {s : State} {a : Access} (b : Access) (h : s.smi.port.holds a) :
    (s.enqueue b).smi.port.holds a :=
  Port.holds_grant (Port.holds_push b h)

/-! ### One way -/

theorem State.setWay_set (j : Fin 32) (w : Fin 4) (x : Way) (s : State) :
    (s.setWay j w x).cacheSet j = { s.cacheSet j with ways := (s.cacheSet j).ways.set w x } :=
  State.setCacheSet_self s j _

theorem State.setWay_set_ne {j i : Fin 32} (w : Fin 4) (x : Way) (s : State) (other : j ≠ i) :
    (s.setWay j w x).cacheSet i = s.cacheSet i :=
  State.setCacheSet_ne s _ other

/-- Of `s`, only way `w` of set `j` differs in `u`, with the marks of the set, the wait queue and the port; and the port
holds what it held. -/
structure State.OnWay (j : Fin 32) (w : Fin 4) (s u : State) : Prop where
  frame : u = { s with
    du := { s.du with sets := u.du.sets, queue := u.du.queue }, smi := { s.smi with port := u.smi.port } }
  sets : ∀ i, i ≠ j → u.cacheSet i = s.cacheSet i
  ways : ∀ v, v ≠ w → u.way j v = s.way j v
  holds : ∀ a, s.smi.port.holds a → u.smi.port.holds a
  queue : u.du.queue.Sublist s.du.queue

namespace State.OnWay

variable {j : Fin 32} {w : Fin 4} {s u v : State}

theorem refl (j : Fin 32) (w : Fin 4) (s : State) : OnWay j w s s :=
  ⟨rfl, fun _ _ => rfl, fun _ _ => rfl, fun _ h => h, List.Sublist.refl _⟩

theorem trans (h : OnWay j w s u) (g : OnWay j w u v) : OnWay j w s v where
  frame := by
    have first := h.frame
    have second := g.frame
    rw [first] at second
    exact second
  sets i other := (g.sets i other).trans (h.sets i other)
  ways m other := (g.ways m other).trans (h.ways m other)
  holds a held := g.holds a (h.holds a held)
  queue := g.queue.trans h.queue

/-- A way of another place is untouched. -/
theorem way_ne (h : OnWay j w s u) {i : Fin 32} {m : Fin 4} (other : i ≠ j ∨ m ≠ w) : u.way i m = s.way i m := by
  by_cases same : i = j
  · subst same
    exact h.ways m (other.resolve_left fun ne => ne rfl)
  · unfold State.way
    rw [h.sets i same]

theorem onlyTitles (h : OnWay j w s u) : s.onlyTitles u := by
  have frame := h.frame
  refine ⟨?_, ?_⟩
  · rw [frame]
  · rw [frame]
    exact ⟨rfl, rfl, rfl, rfl, rfl, rfl, rfl, rfl, rfl, rfl⟩

theorem table (h : OnWay j w s u) : u.du.table = s.du.table := by
  rw [h.frame]

theorem counts (h : OnWay j w s u) : u.du.hits = s.du.hits ∧ u.du.misses = s.du.misses := by
  rw [h.frame]
  exact ⟨rfl, rfl⟩

theorem clock (h : OnWay j w s u) : u.clock = s.clock := by
  rw [h.frame]

theorem du (h : OnWay j w s u) (same : u.du.queue = s.du.queue) : u.du = { s.du with sets := u.du.sets } := by
  have frame := h.frame
  rw [same] at frame
  rw [frame]

theorem setWay (j : Fin 32) (w : Fin 4) (x : Way) (s : State) : OnWay j w s (s.setWay j w x) where
  frame := rfl
  sets _ other := State.setWay_set_ne w x s other.symm
  ways _ other := State.setWay_way_ne s x other.symm
  holds _ h := h
  queue := List.Sublist.refl _

theorem touch (j : Fin 32) (w v : Fin 4) (s : State) : OnWay j w s (s.setCacheSet j ((s.cacheSet j).touch v)) where
  frame := rfl
  sets i other := State.setCacheSet_ne s _ other.symm
  ways m _ := by
    unfold State.way
    rw [State.setCacheSet_self, CacheSet.touch_ways]
  holds _ h := h
  queue := List.Sublist.refl _

theorem enqueue (j : Fin 32) (w : Fin 4) (a : Access) (s : State) : OnWay j w s (s.enqueue a) where
  frame := rfl
  sets _ _ := rfl
  ways _ _ := rfl
  holds _ h := State.enqueue_keeps a h
  queue := List.Sublist.refl _

end State.OnWay

/-! ### The next access of a fetch -/

/-- Nothing is queued for a way whose fetch has an access at the port already, or whose entry is not FETCHING, or that holds
a cancelled read, or while there is no title table. -/
theorem State.queueFetch_cases (j : Fin 32) (w : Fin 4) (s : State) : s.queueFetch j w = s ∨
    ∃ e n a x, (s.way j w).entry = some e ∧ e.state = .fetching n false ∧ s.du.table = some (a, x) ∧
      (s.way j w).cancelled = false ∧ s.queueFetch j w =
        (s.setWay j w { s.way j w with entry := some { e with state := .fetching n true } }).enqueue
          (.read (.fetch j w) (fetchAddress a x e.key n) 32 (if 0 < e.pins then .urgent else .background)
            (fetchDetail a x e.key n)) := by
  unfold State.queueFetch
  dsimp only
  split
  · next e a x entry table =>
    split
    · next n state =>
      split
      · exact .inl rfl
      · next uncancelled => exact .inr ⟨e, n, a, x, entry, state, table, Bool.eq_false_of_not_eq_true uncancelled, rfl⟩
    · exact .inl rfl
  · exact .inl rfl

theorem State.queueFetch_onWay (j : Fin 32) (w : Fin 4) (s : State) : OnWay j w s (s.queueFetch j w) := by
  rcases State.queueFetch_cases j w s with same | ⟨e, n, a, x, -, -, -, -, queued⟩
  · rw [same]
    exact .refl j w s
  · rw [queued]
    exact (OnWay.setWay j w _ s).trans (OnWay.enqueue j w _ _)

theorem State.queueFetch_queue (j : Fin 32) (w : Fin 4) (s : State) : (s.queueFetch j w).du.queue = s.du.queue := by
  rcases State.queueFetch_cases j w s with same | ⟨e, n, a, x, -, -, -, -, queued⟩
  · rw [same]
  · rw [queued]
    rfl

/-- A fetch keeps its place, its key and its pins when its access is queued. -/
theorem State.queueFetch_way {j : Fin 32} {w : Fin 4} {s : State} {e : CacheEntry} {n : Nat}
    (entry : (s.way j w).entry = some e) (state : e.state = .fetching n false) :
    ∃ q, (s.queueFetch j w).way j w = { s.way j w with entry := some { e with state := .fetching n q } } := by
  rcases State.queueFetch_cases j w s with same | ⟨e', n', a, x, entry', state', -, -, queued⟩
  · rw [same]
    refine ⟨false, ?_⟩
    rw [← state, ← entry]
  · obtain rfl : e' = e := Option.some.inj (entry'.symm.trans entry)
    obtain rfl : n' = n := by
      rw [state] at state'
      exact ((EntryState.fetching.inj state').1).symm
    rw [queued]
    exact ⟨true, State.setWay_way_self s j w _⟩

/-- The access of a fetch is queued when the way holds no cancelled read. -/
theorem State.queueFetch_holds {j : Fin 32} {w : Fin 4} {s : State} {e : CacheEntry} {n a x : Nat}
    (entry : (s.way j w).entry = some e) (state : e.state = .fetching n false) (table : s.du.table = some (a, x))
    (uncancelled : (s.way j w).cancelled = false) :
    (s.queueFetch j w).smi.port.holds (.read (.fetch j w) (fetchAddress a x e.key n) 32
      (if 0 < e.pins then .urgent else .background) (fetchDetail a x e.key n)) := by
  unfold State.queueFetch
  simp only [entry, table, state, uncancelled, Bool.false_eq_true, if_false]
  exact State.enqueue_holds _ _

/-- The marks of a set are no part of its ways. -/
def CacheSet.sameMarks (x y : CacheSet) : Prop := y.pairMark = x.pairMark ∧ y.mark0 = x.mark0 ∧ y.mark1 = x.mark1

theorem State.queueFetch_marks (j : Fin 32) (w : Fin 4) (s : State) :
    (s.cacheSet j).sameMarks ((s.queueFetch j w).cacheSet j) := by
  rcases State.queueFetch_cases j w s with same | ⟨e, n, a, x, -, -, -, -, queued⟩
  · rw [same]
    exact ⟨rfl, rfl, rfl⟩
  · rw [queued]
    show (s.cacheSet j).sameMarks ((s.setWay j w _).cacheSet j)
    rw [State.setWay_set]
    exact ⟨rfl, rfl, rfl⟩

/-! ### A way taken for a key -/

/-- The way holds a new FETCHING entry and has been used. -/
def State.takenWay (j : Fin 32) (w : Fin 4) (k : Key) (pins : Nat) (s : State) : State :=
  let u := s.setWay j w { s.way j w with entry := some { key := k, state := .fetching 0 false, pins := pins } }
  u.setCacheSet j ((u.cacheSet j).touch w)

theorem State.allocate_eq (j : Fin 32) (w : Fin 4) (k : Key) (pins : Nat) (s : State) :
    s.allocate j w k pins = (s.takenWay j w k pins).queueFetch j w := rfl

theorem State.takenWay_onWay (j : Fin 32) (w : Fin 4) (k : Key) (pins : Nat) (s : State) :
    OnWay j w s (s.takenWay j w k pins) :=
  (OnWay.setWay j w _ s).trans (OnWay.touch j w w _)

theorem State.takenWay_way (j : Fin 32) (w : Fin 4) (k : Key) (pins : Nat) (s : State) :
    (s.takenWay j w k pins).way j w =
      { s.way j w with entry := some { key := k, state := .fetching 0 false, pins := pins } } := by
  unfold State.takenWay State.way
  rw [State.setCacheSet_self, CacheSet.touch_ways]
  exact State.setWay_way_self s j w _

theorem CacheSet.used_touch (x : CacheSet) (w : Fin 4) : x.used (x.touch w) w := by
  match w with
  | 0 => exact ⟨fun _ => ⟨rfl, rfl, rfl⟩, fun h => absurd h (by decide)⟩
  | 1 => exact ⟨fun _ => ⟨rfl, rfl, rfl⟩, fun h => absurd h (by decide)⟩
  | 2 => exact ⟨fun h => absurd h (by decide), fun _ => ⟨rfl, rfl, rfl⟩⟩
  | 3 => exact ⟨fun h => absurd h (by decide), fun _ => ⟨rfl, rfl, rfl⟩⟩

theorem CacheSet.used_congr {x y x' y' : CacheSet} {w : Fin 4} (before : x.sameMarks x') (after : y.sameMarks y')
    (h : x'.used y w) : x.used y' w := by
  obtain ⟨p, a, b⟩ := before
  obtain ⟨p', a', b'⟩ := after
  unfold CacheSet.used at *
  rw [p', a', b', ← a, ← b]
  exact h

theorem State.allocate_onWay (j : Fin 32) (w : Fin 4) (k : Key) (pins : Nat) (s : State) :
    OnWay j w s (s.allocate j w k pins) :=
  (State.takenWay_onWay j w k pins s).trans (State.queueFetch_onWay j w _)

theorem State.allocate_queue (j : Fin 32) (w : Fin 4) (k : Key) (pins : Nat) (s : State) :
    (s.allocate j w k pins).du.queue = s.du.queue :=
  State.queueFetch_queue j w _

theorem State.allocate_way (j : Fin 32) (w : Fin 4) (k : Key) (pins : Nat) (s : State) :
    ∃ q, (s.allocate j w k pins).way j w =
      { s.way j w with entry := some { key := k, state := .fetching 0 q, pins := pins } } := by
  have way := State.takenWay_way j w k pins s
  obtain ⟨q, fetching⟩ := State.queueFetch_way (n := 0) (congrArg Way.entry way) rfl
  exact ⟨q, by rw [State.allocate_eq, fetching, way]⟩

theorem State.allocate_used (j : Fin 32) (w : Fin 4) (k : Key) (pins : Nat) (s : State) :
    (s.cacheSet j).used ((s.allocate j w k pins).cacheSet j) w := by
  refine CacheSet.used_congr ⟨rfl, rfl, rfl⟩ (State.queueFetch_marks j w (s.takenWay j w k pins)) ?_
  unfold State.takenWay
  rw [State.setCacheSet_self]
  refine CacheSet.used_congr ?_ ⟨rfl, rfl, rfl⟩ (CacheSet.used_touch _ w)
  rw [State.setWay_set]
  exact ⟨rfl, rfl, rfl⟩

/-- The first access of the entry's fetch is queued when the way holds no cancelled read. -/
theorem State.allocate_holds {j : Fin 32} {w : Fin 4} {k : Key} {pins a x : Nat} {s : State}
    (table : s.du.table = some (a, x)) (uncancelled : (s.way j w).cancelled = false) :
    (s.allocate j w k pins).smi.port.holds (.read (.fetch j w) (a + 128 * ((k.title + 8191 * k.lang.val) % 2 ^ x)) 32
      (if 0 < pins then .urgent else .background) (fetchDetail a x k 0)) := by
  have way := State.takenWay_way j w k pins s
  exact State.queueFetch_holds (s := s.takenWay j w k pins) (n := 0) (congrArg Way.entry way) rfl
    ((State.takenWay_onWay j w k pins s).table.trans table) (by rw [way]; exact uncancelled)

/-! ### A way served -/

/-- Nothing waits for the set, or the way is neither free nor eligible: nothing changes (R103). -/
theorem State.serve_stands {j : Fin 32} {w : Fin 4} {s : State} (nobody : ∀ i ∈ s.du.queue, setOf i.key ≠ j) :
    s.serve j w = s := by
  have none : (s.du.queue.find? fun i => setOf i.key == j) = none := by
    rw [List.find?_eq_none]
    intro i waiting
    simpa using nobody i waiting
  unfold State.serve
  rw [none]
  exact ite_self _

/-- The oldest waiting item of the set takes the way (R103). -/
theorem State.serve_takes {j : Fin 32} {w : Fin 4} {s : State} {is js : List WaitItem} {i : WaitItem}
    (open_ : ((s.way j w).isFree || (s.way j w).eligible) = true) (queue : s.du.queue = is ++ i :: js)
    (ours : setOf i.key = j) (others : ∀ x ∈ is, setOf x.key ≠ j) :
    s.serve j w = (s.setQueue (is ++ js)).allocate j w i.key i.pins := by
  have first : (s.du.queue.find? fun i => setOf i.key == j) = some i := by
    rw [queue, List.find?_append, List.find?_eq_none.mpr fun x before => by simpa using others x before]
    simp [ours]
  have notBefore : i ∉ is := fun before => others i before ours
  have erased : s.du.queue.erase i = is ++ js := by
    rw [queue, List.erase_append_right _ notBefore, List.erase_cons_head]
  unfold State.serve
  rw [if_pos open_, first]
  dsimp only
  rw [erased]

theorem State.setQueue_onWay (j : Fin 32) (w : Fin 4) (q : List WaitItem) (s : State) (less : q.Sublist s.du.queue) :
    OnWay j w s (s.setQueue q) :=
  ⟨rfl, fun _ _ => rfl, fun _ _ => rfl, fun _ h => h, less⟩

theorem State.serve_onWay (j : Fin 32) (w : Fin 4) (s : State) : OnWay j w s (s.serve j w) := by
  unfold State.serve
  split
  · split
    · exact .refl j w s
    · exact (State.setQueue_onWay j w _ s List.erase_sublist).trans (State.allocate_onWay j w _ _ _)
  · exact .refl j w s

/-- A way that is free or eligible goes to the oldest waiting item of its set, or stays as it is. -/
theorem State.serve_servedOr {j : Fin 32} {w : Fin 4} {s v : State} (queue : v.du.queue = s.du.queue)
    (open_ : ((v.way j w).isFree || (v.way j w).eligible) = true) :
    s.servedOr (v.serve j w) j w (v.way j w).entry := by
  refine ⟨fun nobody => ?_, fun is i js waiting ours others => ?_⟩
  · rw [State.serve_stands (s := v) (by rw [queue]; exact nobody)]
    exact ⟨rfl, queue⟩
  · rw [State.serve_takes open_ (queue.trans waiting) ours others]
    refine ⟨State.allocate_queue j w _ _ _, ?_⟩
    obtain ⟨q, way⟩ := State.allocate_way j w i.key i.pins (v.setQueue (is ++ js))
    exact ⟨q, congrArg Way.entry way⟩

end Sys2Proof.Machine
end

section
/-! WARM and INVALIDATE (R107 to R110). -/

namespace Sys2Proof.Machine

/-! ### Directives of the Descriptor Unit -/

theorem Ends.waitsBehind (a : Access) (f : InFlight) : Ends (State.waitsBehind a f) :=
  { Bus.waitsBehind a f with setCtl := fun _ _ h => h }

/-- Only the Descriptor Unit, the scheduler and the interface's port differ. -/
def State.onlyCache (s v : State) : Prop :=
  v = { s with du := v.du, sch := v.sch, smi := v.smi } ∧ s.smi.sameScan v.smi

theorem State.onlyCache_of_titles {s v : State} (h : s.onlyTitles v) : s.onlyCache v := by
  obtain ⟨frame, scan⟩ := h
  exact ⟨by rw [frame], scan⟩

/-- A directive that has changed the cache and the armed list alone, in a state `v`, and has ended with OK. -/
theorem State.cacheDirective {s : State} {slot : Slot} {kind : Nat} {words : List Nat} (t : Time)
    (taken : s.taken slot kind words) (allowed : allowedIn kind s.ctl.engine = true) {α : Type}
    {read : List Nat → State → Option α} (act : α → State → State) {a : α} {v : State}
    (reads : read words ((s.begin t).taking slot kind words) = some a)
    (acts : act a ((s.begin t).taking slot kind words) = v.completeOk)
    (only : ((s.begin t).taking slot kind words).onlyCache v)
    (inFlight : ∀ f, s.smi.port.inFlight = some f → v.smi.port.inFlight = some f) :
    let u := (s.begin t).takeDirective kind read act
    s.handedBack u slot .ok [] ∧ u.finished slot ∧ u.trk = s.trk ∧ u.wlk = s.wlk ∧ u.desk = s.desk ∧ u.arb = s.arb ∧
      u.links = s.links ∧ u.du = v.du ∧ u.sch = v.sch ∧ ∀ b, v.smi.port.waits b → u.smi.port.holds b := by
  obtain ⟨f, busy⟩ := State.taken_busy taken
  obtain ⟨frame, scan⟩ := only
  have progress : v.ctl.progress = some ⟨slot, kind, words, .none⟩ := by
    rw [frame]
    rfl
  have checked : ((s.begin t).taking slot kind words).checked kind read act words = v.complete .ok [] := by
    rw [State.checked_act act (by exact allowed) reads]
    exact acts
  obtain ⟨handed, finished, whole, -⟩ := State.takeDirective_ended t taken checked progress rfl
    (by rw [inFlight f busy]; rfl) scan
  intro u
  refine ⟨handed, finished, ?_, ?_, ?_, ?_, ?_, ?_, ?_, fun b waiting => ?_⟩
  case refine_8 =>
    have ended : u = ((v.complete .ok []).startOwedScan).freePort := by
      rw [← checked]
      exact State.takeDirective_eq t read act taken
    have ends := Ends.waitsBehind b f
    have behind : v.waitsBehind b f := ⟨inFlight f busy, waiting⟩
    rw [ended]
    exact State.waitsBehind.freePort (ends.toBus.startOwedScan _ (ends.complete _ _ _ behind))
  all_goals
    have same : u = _ := whole
    rw [same]
  all_goals rw [frame]
  all_goals rfl

/-! ### WARM -/

theorem State.warmKey_found {s : State} {k : Key} {w : Fin 4} (found : (s.cacheSet (setOf k)).find k = some w) :
    s.warmKey k = s.setCacheSet (setOf k) ((s.cacheSet (setOf k)).touch w) := by
  unfold State.warmKey
  dsimp only
  rw [found]

theorem State.warmKey_stands {s : State} {k : Key} (absent : (s.cacheSet (setOf k)).find k = none)
    (cannot : s.keyWaits k = true ∨ (s.cacheSet (setOf k)).choose = none) : s.warmKey k = s := by
  unfold State.warmKey
  dsimp only
  rw [absent]
  dsimp only
  split
  · rfl
  · next notWaiting => rw [cannot.resolve_left notWaiting]

theorem State.warmKey_takes {s : State} {k : Key} {w : Fin 4} (absent : (s.cacheSet (setOf k)).find k = none)
    (notWaiting : s.keyWaits k = false) (chosen : (s.cacheSet (setOf k)).choose = some w) :
    s.warmKey k = s.allocate (setOf k) w k 0 := by
  unfold State.warmKey
  dsimp only
  rw [absent]
  dsimp only
  rw [notWaiting, chosen]
  rfl

/-- One key warmed is as the table of R107 says. -/
theorem State.warmKey_warmed (s : State) (k : Key) : s.warmed (s.warmKey k) k := by
  cases found : (s.cacheSet (setOf k)).find k with
  | some w =>
    rw [State.warmKey_found found]
    have touched := State.OnWay.touch (setOf k) w w s
    refine ⟨touched.du rfl, touched.sets, touched.holds, fun v same => ?_, fun absent => ?_, fun v absent => ?_⟩
    · obtain rfl : w = v := Option.some.inj (found.symm.trans same)
      rw [State.setCacheSet_self]
      exact ⟨CacheSet.touch_ways _ _, CacheSet.used_touch _ _⟩
    · exact nomatch found.symm.trans absent
    · exact nomatch found.symm.trans absent
  | none =>
    by_cases cannot : s.keyWaits k = true ∨ (s.cacheSet (setOf k)).choose = none
    · rw [State.warmKey_stands found cannot]
      refine ⟨rfl, fun _ _ => rfl, fun _ h => h, fun v same => (nomatch found.symm.trans same), fun _ _ => rfl, fun w _ notWaiting chosen => ?_⟩
      rcases cannot with waits | full
      · rw [waits] at notWaiting
        cases notWaiting
      · rw [full] at chosen
        cases chosen
    · obtain ⟨notWaiting, free⟩ := not_or.mp cannot
      obtain ⟨w, chosen⟩ := Option.ne_none_iff_exists'.mp free
      rw [State.warmKey_takes found (Bool.eq_false_of_not_eq_true notWaiting) chosen]
      have taken := State.allocate_onWay (setOf k) w k 0 s
      refine ⟨taken.du (State.allocate_queue _ _ _ _ _), taken.sets, taken.holds,
        fun v same => (nomatch found.symm.trans same), fun _ h => absurd h cannot,
        fun v _ _ same => ?_⟩
      obtain rfl : w = v := Option.some.inj (chosen.symm.trans same)
      exact ⟨State.allocate_used _ _ _ _ _, taken.ways, State.allocate_way _ _ _ _ _,
        fun a x table uncancelled => State.allocate_holds table uncancelled⟩

/-- What WARM does to a key depends on the Descriptor Unit and on what the port holds. -/
theorem State.warmed_congr {s s' u : State} {k : Key} (du : s'.du = s.du) (port : s'.smi.port = s.smi.port)
    (h : s.warmed u k) : s'.warmed u k := by
  unfold State.warmed State.way State.cacheSet State.keyWaits at *
  rw [du, port]
  exact h

/-- The keys of a WARM, one after another. -/
def State.warmEach (ks : List Key) (s : State) : State := ks.foldl (fun s k => s.warmKey k) s

theorem State.warmEach_inTurn (ks : List Key) (s : State) : State.warmedInTurn ks s (s.warmEach ks) := by
  induction ks generalizing s with
  | nil => rfl
  | cons k ks ih => exact ⟨s.warmKey k, State.warmKey_warmed s k, ih (s.warmKey k)⟩

theorem State.warmEach_only (ks : List Key) (s : State) : s.onlyTitles (s.warmEach ks) :=
  foldl_keeps (fun u k h => (Titles.only s).warmKey k u h) ks s s.onlyTitles_refl

theorem State.warmEach_inFlight (ks : List Key) {s : State} {f : InFlight} (h : s.smi.port.inFlight = some f) :
    (s.warmEach ks).smi.port.inFlight = some f :=
  foldl_keeps (P := fun u : State => u.smi.port.inFlight = some f) (fun u k h => (Titles.inFlight f).warmKey k u h) ks s h

theorem readLang_self (l : Lang) : readLang l.val = some l := dif_pos l.isLt

theorem readWarmKey_word (k : Key) (title : k.title ≤ 65535) : readWarmKey (k.title + 65536 * k.lang.val) = some k := by
  have lang : (k.title + 65536 * k.lang.val) / 65536 = k.lang.val := by omega
  have low : (k.title + 65536 * k.lang.val) % 65536 = k.title := by omega
  unfold readWarmKey
  rw [lang, low, readLang_self]
  rfl

theorem mapM_readWarmKey (words : List Nat) (keys : List Key) (titles : ∀ k ∈ keys, k.title ≤ 65535) (from_ : Nat)
    (named : ∀ (i : Nat) (h : i < keys.length), word words (from_ + i + 1) = keys[i].title + 65536 * keys[i].lang.val) :
    ((List.range' from_ keys.length).mapM fun i => readWarmKey (word words (i + 1))) = some keys := by
  induction keys generalizing from_ with
  | nil => rfl
  | cons k ks ih =>
    have first : word words (from_ + 1) = k.title + 65536 * k.lang.val := named 0 (by simp)
    have rest := ih (fun x later => titles x (List.mem_cons_of_mem _ later)) (from_ + 1) fun i h => by
      rw [show from_ + 1 + i + 1 = from_ + (i + 1) + 1 by omega]
      exact named (i + 1) (by simpa using h)
    rw [List.length_cons, List.range'_succ, List.mapM_cons, first, readWarmKey_word k (titles k List.mem_cons_self), rest]
    rfl

/-- WARM's words name these keys (R196). -/
theorem readWarm_keys {words : List Nat} {keys : List Key} (count : word words 0 = keys.length) (some_ : 1 ≤ keys.length)
    (few : keys.length ≤ 8) (titles : ∀ k ∈ keys, k.title ≤ 65535)
    (named : ∀ (i : Nat) (h : i < keys.length), word words (i + 1) = keys[i].title + 65536 * keys[i].lang.val) :
    readWarm words = some keys := by
  unfold readWarm
  rw [count, if_pos ⟨some_, few⟩, List.range_eq_range']
  exact mapM_readWarmKey words keys titles 0 fun i h => by
    rw [Nat.zero_add]
    exact named i h

/-- An access in flight for the TAKEN write is no other. -/
theorem Port.waits_of_holds {p : Port} {f : InFlight} {a : Access} (busy : p.inFlight = some f) (h : p.holds a)
    (other : f.access ≠ a) : p.waits a := by
  rcases h with ⟨g, inFlight, same, -⟩ | waiting
  · rw [busy] at inFlight
    exact absurd ((Option.some.inj inFlight) ▸ same) other
  · exact waiting

/-- WARM of some keys, one after another from the state before. -/
theorem State.warm_carriedOut {t : Time} {s : State} {slot : Slot} {words : List Nat} {keys : List Key}
    (taken : s.taken slot 16 words) (started : s.ctl.engine ≠ .idle) (loaded : s.ctl.engine ≠ .loading)
    (count : word words 0 = keys.length) (some_ : 1 ≤ keys.length) (few : keys.length ≤ 8)
    (titles : ∀ k ∈ keys, k.title ≤ 65535)
    (named : ∀ (i : Nat) (h : i < keys.length), word words (i + 1) = keys[i].title + 65536 * keys[i].lang.val) :
    ∃ u v, exec (.warm t) s = .next u ∧ s.handedBack u slot .ok [] ∧ u.finished slot ∧
      u.trk = s.trk ∧ u.wlk = s.wlk ∧ u.sch = s.sch ∧ u.desk = s.desk ∧ u.arb = s.arb ∧ u.links = s.links ∧
      State.warmedInTurn keys (s.begin t) v ∧ u.du = v.du ∧
      ∀ a, v.smi.port.holds a → a.purpose ≠ .take slot → u.smi.port.holds a := by
  have allowed : allowedIn 16 s.ctl.engine = true := by
    cases engine : s.ctl.engine <;> simp_all [allowedIn]
  obtain ⟨-, answering, -⟩ := id taken
  obtain ⟨f, busy, -, purpose⟩ := State.answering_busy answering
  have only := State.onlyCache_of_titles (State.warmEach_only keys ((s.begin t).taking slot 16 words))
  have inFlight : ∀ f, s.smi.port.inFlight = some f →
      (((s.begin t).taking slot 16 words).warmEach keys).smi.port.inFlight = some f :=
    fun f busy => State.warmEach_inFlight keys (s := (s.begin t).taking slot 16 words) busy
  have turns := State.warmEach_inTurn keys ((s.begin t).taking slot 16 words)
  obtain ⟨handed, finished, trk, wlk, desk, arb, links, du, sch, waits⟩ := State.cacheDirective t taken allowed
    (read := fun ws _ => readWarm ws) State.warmKeys (a := keys) (v := ((s.begin t).taking slot 16 words).warmEach keys)
    (readWarm_keys count some_ few titles named) rfl only inFlight
  refine ⟨_, ((s.begin t).taking slot 16 words).warmEach keys, rfl, handed, finished, trk, wlk, ?_, desk, arb, links, ?_,
    du, fun a held other => ?_⟩
  · exact sch.trans (by rw [(State.warmEach_only keys _).1]; rfl)
  · match keys, some_, turns with
    | k :: ks, _, ⟨v, first, rest⟩ => exact ⟨v, State.warmed_congr rfl rfl first, rest⟩
  · refine waits a (Port.waits_of_holds (inFlight f busy) held fun same => other ?_)
    rw [← same]
    exact purpose

/-- WARM of one key. -/
theorem State.warm_one {t : Time} {s : State} {slot : Slot} {words : List Nat} {k : Key}
    (taken : s.taken slot 16 words) (started : s.ctl.engine ≠ .idle) (loaded : s.ctl.engine ≠ .loading)
    (count : word words 0 = 1) (named : word words 1 = k.title + 65536 * k.lang.val) (title : k.title ≤ 65535) :
    ∃ u v, exec (.warm t) s = .next u ∧ s.handedBack u slot .ok [] ∧ u.finished slot ∧
      u.trk = s.trk ∧ u.wlk = s.wlk ∧ u.sch = s.sch ∧ u.desk = s.desk ∧ u.arb = s.arb ∧ u.links = s.links ∧
      (s.begin t).warmed v k ∧ u.du = v.du ∧ ∀ a, v.smi.port.holds a → a.purpose ≠ .take slot → u.smi.port.holds a := by
  obtain ⟨u, v, he, handed, finished, trk, wlk, sch, desk, arb, links, turn, du, holds⟩ :=
    State.warm_carriedOut (keys := [k]) taken started loaded count (by simp) (by simp) (by simpa using title)
      fun i h => by
        obtain rfl : i = 0 := by simpa using h
        exact named
  obtain ⟨x, warmed, rfl⟩ := turn
  exact ⟨u, v, he, handed, finished, trk, wlk, sch, desk, arb, links, warmed, du, holds⟩

/-- Settles O34: key by key by the table of R107. -/
theorem warmCarriedOut : Obligations.WarmCarriedOut := by
  refine ⟨fun t s slot words k taken started loaded count named title absent => ?absent,
    fun t s slot words k w taken started loaded count named title found => ?found,
    fun t s slot words keys taken started loaded count some_ few titles named =>
      State.warm_carriedOut taken started loaded count some_ few titles named⟩
  case absent =>
    obtain ⟨u, v, he, handed, finished, trk, wlk, sch, desk, arb, links, ⟨frame, -, -, -, stands, takes⟩, du, holds⟩ :=
      State.warm_one taken started loaded count named title
    refine ⟨u, he, handed, finished, trk, wlk, sch, desk, arb, links, ?_, ?_, ?_, fun waits => ?_, fun _ full => ?_,
      fun w notWaiting chosen => ?_⟩
    · rw [du, frame]
      rfl
    · rw [du, frame]
      rfl
    · rw [du, frame]
      rfl
    · exact du.trans (stands absent (.inl waits))
    · exact du.trans (stands absent (.inr full))
    · obtain ⟨-, -, ⟨q, way⟩, access⟩ := takes w absent notWaiting chosen
      refine ⟨⟨q, ?_⟩, fun a x table uncancelled => holds _ (access a x table uncancelled) nofun⟩
      unfold State.way State.cacheSet at way ⊢
      rw [du, way]
  case found =>
    obtain ⟨u, v, he, handed, finished, -, -, -, -, -, -, ⟨frame, sets, -, uses, -⟩, du, -⟩ :=
      State.warm_one taken started loaded count named title
    obtain ⟨ways, used⟩ := uses w found
    have set (j : Fin 32) : u.cacheSet j = v.cacheSet j := by
      unfold State.cacheSet
      rw [du]
    refine ⟨u, he, handed, finished, by rw [set]; exact ways, by rw [set]; exact used, fun j other => ?_, ?_⟩
    · exact (set j).trans (sets j other)
    · rw [du, frame]
      rfl

end Sys2Proof.Machine
end

section
/-! INVALIDATE (R108 to R110): one way, one key, and every way in turn. -/

namespace Sys2Proof.Machine

/-! ### One way -/

theorem State.invalidateWay_none {j : Fin 32} {w : Fin 4} {s : State} (free : (s.way j w).entry = none) :
    s.invalidateWay j w = (s, []) := by
  unfold State.invalidateWay
  dsimp only
  rw [free]

/-- Whether the way holds a cancelled read once its entry has been invalidated (R109). -/
def Way.cancels (w : Way) (e : CacheEntry) : Bool := w.cancelled || e.state.outstanding

theorem State.invalidateWay_unpinned {j : Fin 32} {w : Fin 4} {s : State} {e : CacheEntry}
    (entry : (s.way j w).entry = some e) (unpinned : e.pins = 0) : s.invalidateWay j w =
      ((s.setWay j w { entry := none, cancelled := (s.way j w).cancels e }).serve j w, []) := by
  unfold State.invalidateWay
  dsimp only
  rw [entry]
  exact if_pos unpinned

theorem State.invalidateWay_pinned {j : Fin 32} {w : Fin 4} {s : State} {e : CacheEntry}
    (entry : (s.way j w).entry = some e) (pinned : 0 < e.pins) : s.invalidateWay j w =
      ((s.setWay j w { entry := some { e with state := .fetching 0 false }
                       cancelled := (s.way j w).cancels e }).queueFetch j w, [e.key]) := by
  unfold State.invalidateWay
  dsimp only
  rw [entry]
  exact if_neg (Nat.ne_of_gt pinned)

/-- The key whose re-fetch the way reports when it is invalidated (R108). -/
def Way.refetched (w : Way) : List Key :=
  match w.entry with
  | none => []
  | some e => if e.pins = 0 then [] else [e.key]

/-- What INVALIDATE makes of a way: a free one stands, a pinned entry is fetched again from access 0, and an unpinned one is
removed and, where nothing waits for the set, leaves the way free (R108, R109). -/
def State.invalidated (s u : State) (j : Fin 32) (w : Fin 4) : Prop :=
  ((s.way j w).entry = none → u.way j w = s.way j w) ∧
  ∀ e, (s.way j w).entry = some e →
    (0 < e.pins → ∃ q, u.way j w = { entry := some { e with state := .fetching 0 q }
                                     cancelled := (s.way j w).cancelled || e.state.outstanding }) ∧
    (e.pins = 0 → (∀ i ∈ s.du.queue, setOf i.key ≠ j) →
      u.way j w = { entry := none, cancelled := (s.way j w).cancelled || e.state.outstanding })

theorem State.invalidateWay_invalidated (j : Fin 32) (w : Fin 4) (s : State) :
    s.invalidated (s.invalidateWay j w).1 j w := by
  refine ⟨fun free => by rw [State.invalidateWay_none free], fun e entry => ⟨fun pinned => ?_, fun unpinned nobody => ?_⟩⟩
  · rw [State.invalidateWay_pinned entry pinned]
    have way := State.setWay_way_self s j w
      { entry := some { e with state := .fetching 0 false }, cancelled := (s.way j w).cancels e }
    obtain ⟨q, fetching⟩ := State.queueFetch_way (n := 0) (congrArg Way.entry way) rfl
    exact ⟨q, by rw [fetching, way]; rfl⟩
  · rw [State.invalidateWay_unpinned entry unpinned, State.serve_stands (by exact nobody)]
    exact State.setWay_way_self s j w _

theorem State.invalidateWay_onWay (j : Fin 32) (w : Fin 4) (s : State) : OnWay j w s (s.invalidateWay j w).1 := by
  cases entry : (s.way j w).entry with
  | none =>
    rw [State.invalidateWay_none entry]
    exact .refl j w s
  | some e =>
    rcases Nat.eq_zero_or_pos e.pins with unpinned | pinned
    · rw [State.invalidateWay_unpinned entry unpinned]
      exact (State.OnWay.setWay j w _ s).trans (State.serve_onWay j w _)
    · rw [State.invalidateWay_pinned entry pinned]
      exact (State.OnWay.setWay j w _ s).trans (State.queueFetch_onWay j w _)

theorem Way.mem_refetched {w : Way} {k : Key} :
    k ∈ w.refetched ↔ ∃ e, w.entry = some e ∧ e.key = k ∧ 0 < e.pins := by
  unfold Way.refetched
  cases w.entry with
  | none => simp
  | some e =>
    by_cases unpinned : e.pins = 0
    · simp [unpinned]
    · simp [unpinned, Nat.pos_of_ne_zero unpinned, eq_comm]

theorem State.invalidateWay_refetched (j : Fin 32) (w : Fin 4) (s : State) :
    (s.invalidateWay j w).2 = (s.way j w).refetched := by
  unfold Way.refetched
  cases entry : (s.way j w).entry with
  | none => rw [State.invalidateWay_none entry]
  | some e =>
    rcases Nat.eq_zero_or_pos e.pins with unpinned | pinned
    · rw [State.invalidateWay_unpinned entry unpinned]
      exact (if_pos unpinned).symm
    · rw [State.invalidateWay_pinned entry pinned]
      exact (if_neg (Nat.ne_of_gt pinned)).symm

/-! ### Every way in turn -/

/-- Some ways invalidated one after another, with the keys whose re-fetch they report. -/
def State.invalidateEach (places : List (Fin 32 × Fin 4)) (q : State × List Key) : State × List Key :=
  places.foldl (fun q p => ((q.1.invalidateWay p.1 p.2).1, q.2 ++ (q.1.invalidateWay p.1 p.2).2)) q

/-- Every way of the cache, set by set. -/
def everyWay : List (Fin 32 × Fin 4) := allSets.flatMap fun j => allWays.map fun w => (j, w)

theorem State.invalidateAll_eq (s : State) : s.invalidateAll = State.invalidateEach everyWay (s, []) := by
  unfold State.invalidateAll State.invalidateEach everyWay
  rw [List.foldl_flatMap]
  congr 1

theorem mem_everyWay (j : Fin 32) (w : Fin 4) : (j, w) ∈ everyWay := by
  have way : w ∈ allWays := by
    revert w
    decide
  simp only [everyWay, List.mem_flatMap, List.mem_map]
  exact ⟨j, List.mem_finRange j, w, way, rfl⟩

theorem everyWay_nodup : everyWay.Nodup := by
  unfold everyWay
  rw [List.nodup_flatMap]
  refine ⟨fun j _ => ?_, ?_⟩
  · exact (show allWays.Nodup by decide).map fun a b same => (Prod.mk.inj same).2
  · refine List.Pairwise.imp (fun {i j} ne => ?_) (List.nodup_finRange 32)
    intro p first second
    obtain ⟨v, -, rfl⟩ := List.mem_map.mp first
    obtain ⟨w, -, same⟩ := List.mem_map.mp second
    exact ne (Prod.mk.inj same).1.symm

theorem State.onlyTitles_trans {s u v : State} (h : s.onlyTitles u) (g : u.onlyTitles v) : s.onlyTitles v := by
  obtain ⟨first, scan⟩ := h
  obtain ⟨second, scan'⟩ := g
  refine ⟨?_, Interface.sameScan_trans scan scan'⟩
  rw [second, first]

/-- Ways invalidated in turn, each once: each is as R108 says, the others stand, and the re-fetches are reported in turn. -/
theorem State.invalidateEach_spec (places : List (Fin 32 × Fin 4)) (once : places.Nodup) (q : State × List Key) :
    q.1.onlyTitles (State.invalidateEach places q).1 ∧
    (State.invalidateEach places q).1.du.queue.Sublist q.1.du.queue ∧
    (∀ p, p ∉ places → (State.invalidateEach places q).1.way p.1 p.2 = q.1.way p.1 p.2) ∧
    (∀ p ∈ places, q.1.invalidated (State.invalidateEach places q).1 p.1 p.2) ∧
    (State.invalidateEach places q).2 = q.2 ++ places.flatMap fun p => (q.1.way p.1 p.2).refetched := by
  induction places generalizing q with
  | nil => exact ⟨q.1.onlyTitles_refl, List.Sublist.refl _, fun _ _ => rfl, nofun, (List.append_nil _).symm⟩
  | cons p ps ih =>
    obtain ⟨away, rest⟩ := List.nodup_cons.mp once
    have first := State.invalidateWay_onWay p.1 p.2 q.1
    have done := State.invalidateWay_invalidated p.1 p.2 q.1
    have reported := State.invalidateWay_refetched p.1 p.2 q.1
    have step : State.invalidateEach (p :: ps) q =
        State.invalidateEach ps ((q.1.invalidateWay p.1 p.2).1, q.2 ++ (q.1.invalidateWay p.1 p.2).2) := rfl
    obtain ⟨only, queue, others, each, keys⟩ :=
      ih rest ((q.1.invalidateWay p.1 p.2).1, q.2 ++ (q.1.invalidateWay p.1 p.2).2)
    rw [step]
    dsimp only at only queue others each keys
    rw [reported] at only queue others each keys ⊢
    generalize State.invalidateEach ps ((q.1.invalidateWay p.1 p.2).1, q.2 ++ (q.1.way p.1 p.2).refetched) = r at *
    generalize (q.1.invalidateWay p.1 p.2).1 = v at *
    have apart {x : Fin 32 × Fin 4} (ne : x ≠ p) : v.way x.1 x.2 = q.1.way x.1 x.2 := by
      refine first.way_ne ?_
      by_contra same
      obtain ⟨set, way⟩ := not_or.mp same
      exact ne (Prod.ext (not_not.mp set) (not_not.mp way))
    refine ⟨?_, queue.trans first.queue, fun x out => ?_, fun x there => ?_, ?_⟩
    · exact State.onlyTitles_trans first.onlyTitles only
    · obtain ⟨ne, out⟩ := not_or.mp (List.mem_cons.not.mp out)
      exact (others x out).trans (apart ne)
    · by_cases same : x = p
      · subst same
        have kept := others x away
        unfold State.invalidated at done ⊢
        rw [kept]
        exact done
      · have there := (List.mem_cons.mp there).resolve_left same
        obtain ⟨free, held⟩ := each x there
        have way := apart same
        unfold State.invalidated
        rw [← way]
        refine ⟨free, fun e entry => ⟨(held e entry).1, fun unpinned nobody => ?_⟩⟩
        exact (held e entry).2 unpinned fun i waiting => nobody i (first.queue.subset waiting)
    · rw [keys, List.append_assoc, List.flatMap_cons]
      congr 2
      refine List.flatMap_congr fun x there => ?_
      rw [apart fun same => away (same ▸ there)]

/-! ### The reported re-fetches -/

theorem Armed.refetchKeys_eq (ks : List Key) (e : Armed) : ks.foldl (fun e k => e.refetchKey k) e =
    { e with keys := e.keys.map fun r => if r.1 ∈ ks then (r.1, .pending) else r } := by
  induction ks generalizing e with
  | nil => simp
  | cons k ks ih =>
    rw [List.foldl_cons, ih]
    unfold Armed.refetchKey
    dsimp only
    congr 1
    rw [List.map_map]
    refine List.map_congr_left fun r _ => ?_
    by_cases this : r.1 = k
    · by_cases later : k ∈ ks <;> simp [this, later]
    · simp [this]

/-- Each result for a key refetched is PENDING again (R89, R108). -/
theorem State.reportRefetches_eq (ks : List Key) (s : State) : s.reportRefetches ks = s.setArmed (s.sch.armed.map fun e =>
    { e with keys := e.keys.map fun r => if r.1 ∈ ks then (r.1, .pending) else r }) := by
  have folded : s.reportRefetches ks = s.setArmed (s.sch.armed.map fun e => ks.foldl (fun e k => e.refetchKey k) e) := by
    unfold State.reportRefetches
    induction ks generalizing s with
    | nil => simp [State.setArmed]
    | cons k ks ih =>
      rw [List.foldl_cons, ih]
      simp [State.setArmed, List.map_map, Function.comp_def]
  rw [folded]
  simp only [Armed.refetchKeys_eq]

/-! ### The directive -/

theorem readInvalidate_all {words : List Nat} (all : word words 0 = 1) : readInvalidate words = some none := if_pos all

theorem readInvalidate_key {words : List Nat} {k : Key} (one : word words 0 = 0) (title : word words 1 = k.title)
    (small : k.title ≤ 65535) (lang : word words 2 = k.lang.val) : readInvalidate words = some (some k) := by
  unfold readInvalidate
  rw [one, title, lang, if_neg (by decide), if_pos ⟨rfl, small⟩, readLang_self]
  rfl

/-- INVALIDATE of what `act` reaches, read from the state before it. -/
theorem State.invalidate_carriedOut {t : Time} {s : State} {slot : Slot} {words : List Nat} {k : Option Key}
    {q : State × List Key} (taken : s.taken slot 15 words) (loaded : s.ctl.engine ≠ .loading)
    (reads : readInvalidate words = some k)
    (reached : (match k with
      | some k => ((s.begin t).taking slot 15 words).invalidateKey k
      | none => ((s.begin t).taking slot 15 words).invalidateAll) = q)
    (only : ((s.begin t).taking slot 15 words).onlyTitles q.1)
    (inFlight : ∀ f, s.smi.port.inFlight = some f → q.1.smi.port.inFlight = some f) :
    ∃ u, exec (.invalidate t) s = .next u ∧ s.handedBack u slot .ok [] ∧ u.finished slot ∧
      u.trk = s.trk ∧ u.wlk = s.wlk ∧ u.desk = s.desk ∧ u.arb = s.arb ∧ u.links = s.links ∧ u.du = q.1.du ∧
      u.sch = { s.sch with armed := s.sch.armed.map fun x => { x with
        keys := x.keys.map fun r => if r.1 ∈ q.2 then (r.1, .pending) else r } } := by
  have allowed : allowedIn 15 s.ctl.engine = true := by
    cases engine : s.ctl.engine <;> simp_all [allowedIn]
  obtain ⟨frame, scan⟩ := only
  have sched : q.1.sch = s.sch := by
    rw [frame]
    rfl
  have acts : ((s.begin t).taking slot 15 words).invalidateKeys k = (q.1.reportRefetches q.2).completeOk := by
    unfold State.invalidateKeys
    dsimp only
    rw [← reached]
    cases k <;> rfl
  have cache : ((s.begin t).taking slot 15 words).onlyCache (q.1.reportRefetches q.2) := by
    rw [State.reportRefetches_eq]
    refine ⟨?_, scan⟩
    unfold State.setArmed
    rw [frame]
  obtain ⟨handed, finished, trk, wlk, desk, arb, links, du, sch, -⟩ := State.cacheDirective t taken allowed
    (read := fun ws _ => readInvalidate ws) State.invalidateKeys reads acts cache (fun f busy => by
      rw [State.reportRefetches_eq]
      exact inFlight f busy)
  refine ⟨_, rfl, handed, finished, trk, wlk, desk, arb, links, du.trans ?_, sch.trans ?_⟩
  · rw [State.reportRefetches_eq]
    rfl
  · rw [State.reportRefetches_eq]
    unfold State.setArmed
    rw [sched]

theorem CacheSet.find_key {x : CacheSet} {k : Key} {w : Fin 4} {e : CacheEntry} (found : x.find k = some w)
    (entry : x.ways[w].entry = some e) : e.key = k := by
  have holds := List.find?_some found
  rw [entry] at holds
  simpa using holds

theorem State.invalidateKey_absent {s : State} {k : Key} (absent : (s.cacheSet (setOf k)).find k = none) :
    s.invalidateKey k = (s, []) := by
  unfold State.invalidateKey
  rw [absent]

theorem State.invalidateKey_found {s : State} {k : Key} {w : Fin 4} (found : (s.cacheSet (setOf k)).find k = some w) :
    s.invalidateKey k = s.invalidateWay (setOf k) w := by
  unfold State.invalidateKey
  rw [found]

theorem refetch_nothing (armed : List Armed) : (armed.map fun x => { x with
    keys := x.keys.map fun r => if r.1 ∈ ([] : List Key) then (r.1, KeyResult.pending) else r }) = armed := by
  simp

theorem State.invalidateKey_only (k : Key) (s : State) : s.onlyTitles (s.invalidateKey k).1 :=
  (Titles.only s).invalidateKey k s s.onlyTitles_refl

/-- INVALIDATE of one key. -/
theorem State.invalidate_one {t : Time} {s : State} {slot : Slot} {words : List Nat} {k : Key}
    (taken : s.taken slot 15 words) (loaded : s.ctl.engine ≠ .loading) (one : word words 0 = 0)
    (title : word words 1 = k.title) (small : k.title ≤ 65535) (lang : word words 2 = k.lang.val) :
    ∃ u, exec (.invalidate t) s = .next u ∧ s.handedBack u slot .ok [] ∧ u.finished slot ∧
      u.trk = s.trk ∧ u.wlk = s.wlk ∧ u.desk = s.desk ∧ u.arb = s.arb ∧ u.links = s.links ∧
      u.du = (((s.begin t).taking slot 15 words).invalidateKey k).1.du ∧
      u.sch = { s.sch with armed := s.sch.armed.map fun x => { x with
        keys := x.keys.map fun r => if r.1 ∈ (((s.begin t).taking slot 15 words).invalidateKey k).2
          then (r.1, .pending) else r } } :=
  State.invalidate_carriedOut (k := some k) taken loaded (readInvalidate_key one title small lang) rfl
    (State.invalidateKey_only k _)
    fun f busy => (Titles.inFlight f).invalidateKey k ((s.begin t).taking slot 15 words) busy

/-- Settles O33: a key by the way that holds it, and all keys way by way. -/
theorem invalidateCarriedOut : Obligations.InvalidateCarriedOut := by
  refine ⟨fun t s slot words k taken loaded one title small lang => ?key, fun t s slot words taken loaded all => ?all⟩
  case key =>
    obtain ⟨u, he, handed, finished, trk, wlk, desk, arb, links, du, sch⟩ :=
      State.invalidate_one (t := t) taken loaded one title small lang
    refine ⟨u, he, handed, finished, trk, wlk, desk, arb, links, fun absent => ?_, fun w e found entry => ?_⟩
    · rw [State.invalidateKey_absent (s := (s.begin t).taking slot 15 words) absent] at du sch
      exact ⟨du, by rw [sch, refetch_nothing]⟩
    · rw [State.invalidateKey_found (s := (s.begin t).taking slot 15 words) found] at du sch
      have key := CacheSet.find_key found entry
      have held (x : State) (same : u.du = x.du) : u.way (setOf k) w = x.way (setOf k) w := by
        unfold State.way State.cacheSet
        rw [same]
      refine ⟨fun unpinned => ?_, fun pinned => ?_⟩
      · rw [State.invalidateWay_unpinned (s := (s.begin t).taking slot 15 words) entry unpinned] at du sch
        have freed := State.setWay_way_self ((s.begin t).taking slot 15 words) (setOf k) w
          { entry := none, cancelled := (((s.begin t).taking slot 15 words).way (setOf k) w).cancels e }
        obtain ⟨alone, served⟩ := State.serve_servedOr (s := s) (j := setOf k) (w := w)
          (v := ((s.begin t).taking slot 15 words).setWay (setOf k) w
            { entry := none, cancelled := (((s.begin t).taking slot 15 words).way (setOf k) w).cancels e }) rfl
          (by rw [freed]; rfl)
        refine ⟨by rw [sch, refetch_nothing], fun nobody => ⟨?_, ?_⟩, fun is i js queue ours others => ?_⟩
        · rw [du]
          exact (alone nobody).2
        · rw [held _ du, State.serve_stands (by exact nobody)]
          exact freed
        · obtain ⟨left, q, taken'⟩ := served is i js queue ours others
          exact ⟨by rw [du]; exact left, q, by rw [held _ du]; exact taken'⟩
      · have done := (State.invalidateWay_invalidated (setOf k) w ((s.begin t).taking slot 15 words)).2 e entry
        obtain ⟨q, fetching⟩ := done.1 pinned
        rw [State.invalidateWay_pinned (s := (s.begin t).taking slot 15 words) entry pinned] at du sch fetching
        refine ⟨?_, ⟨q, (held _ du).trans fetching⟩, ?_⟩
        · rw [du, State.queueFetch_queue]
          rfl
        · rw [sch, key]
          simp only [List.mem_singleton]
          congr 1
          refine List.map_congr_left fun x _ => ?_
          congr 1
          refine List.map_congr_left fun r _ => ?_
          split
          · next same => rw [same]
          · rfl
  case all =>
    obtain ⟨only, queue, -, each, keys⟩ := State.invalidateEach_spec everyWay everyWay_nodup
      ((s.begin t).taking slot 15 words, [])
    obtain ⟨u, he, handed, finished, trk, wlk, desk, arb, links, du, sch⟩ :=
      State.invalidate_carriedOut (t := t) (k := none) taken loaded (readInvalidate_all all)
        (State.invalidateAll_eq ((s.begin t).taking slot 15 words)) only fun f busy => by
          rw [← State.invalidateAll_eq]
          exact (Titles.inFlight f).invalidateAll ((s.begin t).taking slot 15 words) busy
    have held (j : Fin 32) (w : Fin 4) : u.way j w =
        (State.invalidateEach everyWay ((s.begin t).taking slot 15 words, [])).1.way j w := by
      unfold State.way State.cacheSet
      rw [du]
    have done (j : Fin 32) (w : Fin 4) := each (j, w) (mem_everyWay j w)
    refine ⟨u, he, handed, finished, trk, wlk, desk, arb, links, by rw [du]; exact queue, fun j w free => ?_,
      fun j w e entry => ⟨fun pinned => ?_, fun unpinned nobody => ?_⟩, _, fun k => ?_, sch⟩
    · exact (held j w).trans ((done j w).1 free)
    · obtain ⟨q, fetching⟩ := ((done j w).2 e entry).1 pinned
      exact ⟨q, (held j w).trans fetching⟩
    · exact (held j w).trans (((done j w).2 e entry).2 unpinned nobody)
    · rw [keys, List.nil_append, List.mem_flatMap]
      constructor
      · rintro ⟨p, -, here⟩
        obtain ⟨e, entry, key, pinned⟩ := Way.mem_refetched.mp here
        exact ⟨p.1, p.2, e, entry, key, pinned⟩
      · rintro ⟨j, w, e, entry, key, pinned⟩
        exact ⟨(j, w), mem_everyWay j w, Way.mem_refetched.mpr ⟨e, entry, key, pinned⟩⟩

end Sys2Proof.Machine
end

section
/-! The answers of a fetch (R105, R109). -/

namespace Sys2Proof.Machine

/-! ### The access queued -/

/-- The access of a fetch that has none at the port is queued, while the way holds no cancelled read. -/
theorem State.queueFetch_queues {j : Fin 32} {w : Fin 4} {s : State} {e : CacheEntry} {n a x : Nat}
    (entry : (s.way j w).entry = some e) (state : e.state = .fetching n false) (table : s.du.table = some (a, x))
    (uncancelled : (s.way j w).cancelled = false) :
    s.queueFetch j w = (s.setWay j w { s.way j w with entry := some { e with state := .fetching n true } }).enqueue
      (.read (.fetch j w) (fetchAddress a x e.key n) 32 (if 0 < e.pins then .urgent else .background)
        (fetchDetail a x e.key n)) := by
  unfold State.queueFetch
  simp only [entry, table, state, uncancelled, Bool.false_eq_true, if_false]

/-- Whatever is queued, the way keeps its key, its pins and its cancelled read. -/
theorem State.queueFetch_keeps (j : Fin 32) (w : Fin 4) (s : State) :
    ((s.queueFetch j w).way j w).cancelled = (s.way j w).cancelled ∧
    ((s.queueFetch j w).way j w).entry.map (·.key) = (s.way j w).entry.map (·.key) ∧
    ((s.queueFetch j w).way j w).entry.map (·.pins) = (s.way j w).entry.map (·.pins) := by
  rcases State.queueFetch_cases j w s with same | ⟨e, n, a, x, entry, -, -, -, queued⟩
  · rw [same]
    exact ⟨rfl, rfl, rfl⟩
  · have way : (s.queueFetch j w).way j w = { s.way j w with entry := some { e with state := .fetching n true } } := by
      rw [queued]
      exact State.setWay_way_self s j w _
    rw [way, entry]
    exact ⟨rfl, rfl, rfl⟩

/-! ### The answer handed on -/

theorem State.answerNotice_none {k : Key} {r : KeyResult} {s : State} (h : s.noticeWork = none) :
    s.answerNotice k r = s := by
  unfold State.answerNotice
  rw [h]

theorem State.placeNotice_none {s : State} (h : s.noticeWork = none) : s.placeNotice = s := by
  unfold State.placeNotice
  rw [h]

/-- The armed entries have the answer for a key. -/
def State.armedAnswered (k : Key) (r : KeyResult) (s : State) : State :=
  s.setArmed (s.sch.armed.map (Armed.answerKey k r))

/-- With nothing that may fire and no NOTICE that waits, an answer reaches the armed entries alone. -/
theorem State.deliverAnswer_quiet {k : Key} {r : KeyResult} {s : State}
    (quiet : s.ctl.engine ≠ .running ∨ s.sch.freeze = true) (notice : s.noticeWork = none) :
    s.deliverAnswer k r = s.armedAnswered k r := by
  have idle : (s.armedAnswered k r).fireAll = s.armedAnswered k r := by
    rcases quiet with still | frozen
    · exact State.fireAll_idle still
    · exact State.fireAll_nothing (.inl frozen)
  show (((s.armedAnswered k r).answerNotice k r).fireAll).placeNotice = s.armedAnswered k r
  rw [State.answerNotice_none (by exact notice), idle, State.placeNotice_none (by exact notice)]

theorem Armed.answerKey_present {k : Key} {r : KeyResult} (e : Armed) (h : r ≠ .faulted) :
    e.answerKey k r = { e with keys := e.keys.map fun p => if p.1 = k ∧ p.2 = .pending then (k, r) else p } := by
  unfold Armed.answerKey
  rw [if_neg fun both => h both.1]

theorem placeNoticeAt_only {s : State} (w : NoticeWork) (p : State × Placed) (i : Screen16) (h : s.onlyScreens p.1) :
    s.onlyScreens (placeNoticeAt w p i).1 := by
  unfold placeNoticeAt
  split
  · dsimp only
    split
    · exact h
    · exact (Screens.only s).placeRequest i _ p.1 h
  · exact h

/-- Placing a NOTICE keeps the armed list empty. -/
theorem State.emptied_placeNotice {r : Option FireRecord} {frozen : Bool} {s : State} (h : s.emptied r frozen) :
    s.placeNotice.emptied r frozen := by
  unfold State.placeNotice
  split
  · exact h
  · next w notice =>
    split
    · refine (Ends.emptied r frozen).complete _ _ _ ?_
      have placed : s.onlyScreens (allScreens.foldl (placeNoticeAt w) (s, { screens := 0, whole := true })).1 :=
        foldl_keeps_fst (P := s.onlyScreens) (placeNoticeAt_only w) allScreens _ s.onlyScreens_refl
      obtain ⟨⟨-, -, sch, -, -⟩, -⟩ := placed
      have released := (State.releaseKeys_only w.keys (allScreens.foldl (placeNoticeAt w) (s,
        { screens := 0, whole := true })).1).1
      refine State.emptied_of_sch (s := s) ?_ h
      rw [released]
      exact sch
    · exact h

/-- The answer to the last PENDING key of a DUE cue alone in the list fires it. -/
theorem State.deliverAnswer_fires {k : Key} {r : KeyResult} {s : State} {y : Armed} (may : s.mayFire = true)
    (notice : s.noticeWork = none) (alone : s.sch.armed = [y]) (due : y.timing = .due)
    (last : ∀ p ∈ y.keys, p.2 = .pending → p.1 = k) (answered : r ≠ .pending) :
    (s.deliverAnswer k r).emptied (some { cue := y.cue, pass := y.pass, appear := y.appear.getD 0 }) s.sch.freeze := by
  have complete : (y.answerKey k r).isComplete = true := by
    rw [Armed.isComplete_iff]
    intro p there
    obtain ⟨q, mem, rfl⟩ := List.mem_map.mp there
    split
    · exact answered
    · next other => exact fun pending => other ⟨last q mem pending, pending⟩
  have fired := (State.fireAll_alone (s := s.armedAnswered k r) (e := y.answerKey k r) may
    (by show List.map _ s.sch.armed = _; rw [alone]; rfl) due complete).2
  show (((s.armedAnswered k r).answerNotice k r).fireAll).placeNotice.emptied _ _
  rw [State.answerNotice_none (by exact notice)]
  exact State.emptied_placeNotice fired

/-! ### An access answered -/

theorem execFetchAccessComplete_answered (t : Time) (d : List Byte) {s : State} {j : Fin 32} {w : Fin 4}
    (h : s.answering (.fetch j w)) (uncancelled : (s.way j w).cancelled = false) :
    exec (.fetchAccessComplete t d) s = .next (State.answerFrom j w ((s.begin t).fetchAnswered j w d)).freePort := by
  refine congrArg Host.Outcome.next (State.answer_eq
    (act := fun s => State.answerFrom j w (s.fetchAnswered j w d)) (State.answering_begin t h) ?_)
  exact if_neg (by rw [show ((s.begin t).way j w).cancelled = false from uncancelled]; simp)

theorem execCancelledReadComplete_answered (t : Time) {s : State} {j : Fin 32} {w : Fin 4}
    (h : s.answering (.fetch j w)) (cancelled : (s.way j w).cancelled = true) :
    exec (.cancelledReadComplete t) s = .next (State.endCancelled j w (s.begin t)).freePort :=
  congrArg Host.Outcome.next (State.answer_eq (act := State.endCancelled j w) (State.answering_begin t h) (if_pos cancelled))

section Fetch

variable {s : State} {j : Fin 32} {w : Fin 4} {e : CacheEntry} {n : Nat} {d : List Byte}
  (entry : (s.way j w).entry = some e) (state : e.state = .fetching n true)
include entry state

/-- A fetch ends at a match, and at its eighth access. -/
theorem State.fetchAnswered_ends (last : matchAccess e.key d ≠ none ∨ 7 ≤ n) :
    s.fetchAnswered j w d = (s.endFetch j w e (matchAccess e.key d), some (e.key, answerOf (matchAccess e.key d))) := by
  unfold State.fetchAnswered
  rw [entry]
  dsimp only
  rw [state]
  refine if_pos ?_
  rcases last with found | eighth
  · simp [Option.isSome_iff_ne_none.mpr found]
  · simp [eighth]

/-- The fetch of a way goes on with its next access. -/
def State.fetchNext (j : Fin 32) (w : Fin 4) (e : CacheEntry) (n : Nat) (s : State) : State :=
  s.setWay j w { s.way j w with entry := some { e with state := .fetching (n + 1) false } }

theorem State.fetchAnswered_goesOn (unmatched : matchAccess e.key d = none) (more : n < 7) :
    s.fetchAnswered j w d = ((s.fetchNext j w e n).queueFetch j w, none) := by
  unfold State.fetchAnswered
  rw [entry]
  dsimp only
  rw [state]
  refine if_neg ?_
  rw [unmatched]
  simpa using more

end Fetch

/-! ### The end of a fetch -/

section Ended

variable {s : State} {j : Fin 32} {w : Fin 4} {e : CacheEntry} {n : Nat} {d : List Byte} {r : Option (BitVec 32 × Nat)}

/-- The state of an entry whose fetch has ended. -/
def entryEnded : Option (BitVec 32 × Nat) → EntryState
  | some (h, c) => .valid h c
  | none => .absent

theorem State.endFetch_way : (s.endFetch j w e r).way j w = { s.way j w with entry := some { e with state := entryEnded r } } :=
  State.setWay_way_self s j w _

theorem answerOf_known : answerOf r ≠ .pending ∧ answerOf r ≠ .faulted := by
  match r with
  | some (h, c) => exact ⟨nofun, nofun⟩
  | none => exact ⟨nofun, nofun⟩

/-- With nothing that may fire, the end of a fetch writes the entry and the answers, and its way may serve. -/
theorem State.answerFrom_ended (quiet : s.ctl.engine ≠ .running ∨ s.sch.freeze = true) (notice : s.noticeWork = none) :
    State.answerFrom j w (s.endFetch j w e r, some (e.key, answerOf r)) =
      ((s.endFetch j w e r).armedAnswered e.key (answerOf r)).serve j w := by
  show ((s.endFetch j w e r).deliverAnswer e.key (answerOf r)).serve j w = _
  rw [State.deliverAnswer_quiet (by exact quiet) (by exact notice)]

/-- What the end of a fetch leaves: the answers in the list, and the rest of the show. -/
theorem State.fetchEnded_show :
    let u := ((s.endFetch j w e r).armedAnswered e.key (answerOf r)).serve j w
    u.trk = s.trk ∧ u.wlk = s.wlk ∧ u.desk = s.desk ∧ u.arb = s.arb ∧ u.links = s.links ∧ u.ctl = s.ctl ∧
      s.answeredWith u e.key (answerOf r) := by
  intro u
  have served := (State.serve_onWay j w ((s.endFetch j w e r).armedAnswered e.key (answerOf r))).frame
  have answers : u.sch = ((s.endFetch j w e r).armedAnswered e.key (answerOf r)).sch := by
    unfold u
    rw [served]
  refine ⟨by unfold u; rw [served]; rfl, by unfold u; rw [served]; rfl, by unfold u; rw [served]; rfl,
    by unfold u; rw [served]; rfl, by unfold u; rw [served]; rfl, by unfold u; rw [served]; rfl, ?_⟩
  have each : s.sch.armed.map (Armed.answerKey e.key (answerOf r)) = s.sch.armed.map fun x => { x with
      keys := x.keys.map fun p => if p.1 = e.key ∧ p.2 = .pending then (e.key, answerOf r) else p } :=
    List.map_congr_left fun x _ => x.answerKey_present answerOf_known.2
  unfold State.answeredWith
  rw [answers, ← each]
  rfl

/-- A pinned entry keeps its way. -/
theorem State.fetchEnded_pinned (pinned : 0 < e.pins) :
    ((s.endFetch j w e r).armedAnswered e.key (answerOf r)).serve j w =
      (s.endFetch j w e r).armedAnswered e.key (answerOf r) := by
  have closed : (((s.endFetch j w e r).way j w).isFree || ((s.endFetch j w e r).way j w).eligible) = false := by
    rw [State.endFetch_way]
    simp [Way.isFree, Way.eligible, Nat.ne_of_gt pinned]
  exact if_neg (Bool.not_eq_true _ ▸ closed)

/-- The way of an unpinned entry goes to the oldest waiting item of its set. -/
theorem State.fetchEnded_unpinned (unpinned : e.pins = 0) :
    s.servedOr (((s.endFetch j w e r).armedAnswered e.key (answerOf r)).serve j w) j w
      (some { e with state := entryEnded r }) := by
  have way : ((s.endFetch j w e r).armedAnswered e.key (answerOf r)).way j w =
      { s.way j w with entry := some { e with state := entryEnded r } } := State.endFetch_way
  have open_ : ((((s.endFetch j w e r).armedAnswered e.key (answerOf r)).way j w).isFree ||
      (((s.endFetch j w e r).armedAnswered e.key (answerOf r)).way j w).eligible) = true := by
    rw [way]
    match r with
    | some (h, c) => simp [Way.eligible, entryEnded, EntryState.isFetching, unpinned]
    | none => simp [Way.eligible, entryEnded, EntryState.isFetching, unpinned]
  have served := State.serve_servedOr (s := s) (v := (s.endFetch j w e r).armedAnswered e.key (answerOf r)) rfl open_
  rw [way] at served
  exact served

end Ended

/-- What the next access of a fetch leaves: the entry at its place, and the rest of the show. -/
theorem State.fetchNext_goesOn {s : State} {j : Fin 32} {w : Fin 4} {e : CacheEntry} {n : Nat}
    (uncancelled : (s.way j w).cancelled = false) :
    let u := (s.fetchNext j w e n).queueFetch j w
    u.trk = s.trk ∧ u.wlk = s.wlk ∧ u.desk = s.desk ∧ u.arb = s.arb ∧ u.links = s.links ∧ u.ctl = s.ctl ∧
      u.sch = s.sch ∧ u.du.queue = s.du.queue ∧
      (∃ q, (u.way j w).entry = some { e with state := .fetching (n + 1) q }) ∧
      ∀ (f : InFlight) (a x : Nat), s.smi.port.inFlight = some f → s.du.table = some (a, x) →
        (u.way j w).entry = some { e with state := .fetching (n + 1) true } ∧
        u.freePort.smi.port.holds (.read (.fetch j w) (fetchAddress a x e.key (n + 1)) 32
          (if 0 < e.pins then .urgent else .background) (fetchDetail a x e.key (n + 1))) := by
  intro u
  have way : (s.fetchNext j w e n).way j w = { s.way j w with entry := some { e with state := .fetching (n + 1) false } } :=
    State.setWay_way_self s j w _
  have frame := (State.queueFetch_onWay j w (s.fetchNext j w e n)).frame
  refine ⟨by unfold u; rw [frame]; rfl, by unfold u; rw [frame]; rfl, by unfold u; rw [frame]; rfl,
    by unfold u; rw [frame]; rfl, by unfold u; rw [frame]; rfl, by unfold u; rw [frame]; rfl,
    by unfold u; rw [frame]; rfl, State.queueFetch_queue j w _, ?_, fun f a x busy table => ?_⟩
  · obtain ⟨q, fetching⟩ := State.queueFetch_way (congrArg Way.entry way) rfl
    exact ⟨q, congrArg Way.entry fetching⟩
  · have queued := State.queueFetch_queues (congrArg Way.entry way) rfl (by exact table)
      ((congrArg Way.cancelled way).trans uncancelled)
    unfold u
    rw [queued]
    exact ⟨congrArg Way.entry (State.setWay_way_self (s.fetchNext j w e n) j w _), State.enqueue_freePort_holds _ (by exact busy)⟩

/-- Settles O37: a match and the eighth access end a fetch with its answer, any other access is followed by the next, and
the end of a cancelled read lets a new fetch begin. -/
theorem fetchAnswers : Obligations.FetchAnswers := by
  refine ⟨?pinned, ?unpinned, ?fires, ?cancelled⟩
  case pinned =>
    intro t d s j w e n quiet notice h uncancelled entry state pinned
    obtain ⟨f, busy, -, -⟩ := State.answering_busy h
    have he := execFetchAccessComplete_answered t d h uncancelled
    by_cases last : matchAccess e.key d ≠ none ∨ 7 ≤ n
    · rw [State.fetchAnswered_ends (s := s.begin t) entry state last, State.answerFrom_ended (s := s.begin t) quiet notice]
        at he
      obtain ⟨trk, wlk, desk, arb, links, ctl, answers⟩ := State.fetchEnded_show (s := s.begin t) (j := j) (w := w) (e := e)
        (r := matchAccess e.key d)
      rw [State.fetchEnded_pinned pinned] at he trk wlk desk arb links ctl answers
      have way := State.endFetch_way (s := s.begin t) (j := j) (w := w) (e := e) (r := matchAccess e.key d)
      refine ⟨_, he, trk, wlk, desk, arb, links, ctl, rfl, fun hd c found => ?_, fun unmatched more => ?_,
        fun unmatched _ => ?_⟩
      · rw [found] at way answers ⊢
        exact ⟨congrArg Way.entry way, answers⟩
      · exact absurd last (by simp [unmatched, Nat.not_le.mpr more])
      · rw [unmatched] at way answers ⊢
        exact ⟨congrArg Way.entry way, answers⟩
    · obtain ⟨unmatched, more⟩ := not_or.mp last
      have unmatched := not_not.mp unmatched
      rw [State.fetchAnswered_goesOn (s := s.begin t) entry state unmatched (Nat.not_le.mp more)] at he
      obtain ⟨trk, wlk, desk, arb, links, ctl, sch, queue, fetching, queued⟩ :=
        State.fetchNext_goesOn (s := s.begin t) (j := j) (w := w) (e := e) (n := n) uncancelled
      rw [if_pos pinned] at queued
      exact ⟨_, he, trk, wlk, desk, arb, links, ctl, queue, fun hd c found => absurd (unmatched.symm.trans found) nofun,
        fun _ _ => ⟨fetching, sch, fun a x table => (queued f a x busy table).2⟩, fun _ eighth => absurd eighth more⟩
  case unpinned =>
    intro t d s j w e n quiet notice h uncancelled entry state unpinned
    obtain ⟨f, busy, -, -⟩ := State.answering_busy h
    have he := execFetchAccessComplete_answered t d h uncancelled
    by_cases last : matchAccess e.key d ≠ none ∨ 7 ≤ n
    · rw [State.fetchAnswered_ends (s := s.begin t) entry state last, State.answerFrom_ended (s := s.begin t) quiet notice]
        at he
      obtain ⟨trk, wlk, desk, arb, links, ctl, answers⟩ := State.fetchEnded_show (s := s.begin t) (j := j) (w := w) (e := e)
        (r := matchAccess e.key d)
      have served := State.fetchEnded_unpinned (s := s.begin t) (j := j) (w := w) (r := matchAccess e.key d) unpinned
      refine ⟨_, he, trk, wlk, desk, arb, links, ctl, fun hd c found => ?_, fun unmatched _ => ?_, fun unmatched more => ?_⟩
      · rw [found] at served answers ⊢
        exact ⟨served, answers⟩
      · rw [unmatched] at served answers ⊢
        exact ⟨served, answers⟩
      · exact absurd last (by simp [unmatched, Nat.not_le.mpr more])
    · obtain ⟨unmatched, more⟩ := not_or.mp last
      have unmatched := not_not.mp unmatched
      rw [State.fetchAnswered_goesOn (s := s.begin t) entry state unmatched (Nat.not_le.mp more)] at he
      obtain ⟨trk, wlk, desk, arb, links, ctl, sch, queue, -, queued⟩ :=
        State.fetchNext_goesOn (s := s.begin t) (j := j) (w := w) (e := e) (n := n) uncancelled
      rw [if_neg (Nat.not_lt.mpr (Nat.le_of_eq unpinned))] at queued
      exact ⟨_, he, trk, wlk, desk, arb, links, ctl, fun hd c found => absurd (unmatched.symm.trans found) nofun,
        fun _ eighth => absurd eighth more, fun _ _ => ⟨sch, queue, fun a x table => queued f a x busy table⟩⟩
  case fires =>
    intro t d s j w e n y running unfrozen notice _ h uncancelled entry state alone due mine last
    have he := execFetchAccessComplete_answered t d h uncancelled
    rw [State.fetchAnswered_ends (s := s.begin t) entry state last] at he
    have fired := State.deliverAnswer_fires (k := e.key) (r := answerOf (matchAccess e.key d))
      (s := (s.begin t).endFetch j w e (matchAccess e.key d)) ((State.mayFire_iff _).mpr ⟨running, unfrozen⟩) notice alone
      due mine answerOf_known.1
    have served := (State.serve_onWay j w (((s.begin t).endFetch j w e (matchAccess e.key d)).deliverAnswer e.key
      (answerOf (matchAccess e.key d)))).frame
    obtain ⟨empty, record, -⟩ := State.emptied_of_sch (congrArg State.sch served) fired
    exact ⟨_, he, empty, record⟩
  case cancelled =>
    intro t s j w h cancelled
    obtain ⟨f, busy, -, -⟩ := State.answering_busy h
    have way := State.setWay_way_self (s.begin t) j w { (s.begin t).way j w with cancelled := false }
    obtain ⟨free, key, pins⟩ := State.queueFetch_keeps j w
      ((s.begin t).setWay j w { (s.begin t).way j w with cancelled := false })
    have frame := (State.queueFetch_onWay j w ((s.begin t).setWay j w { (s.begin t).way j w with cancelled := false })).frame
    rw [way] at free key pins
    refine ⟨_, execCancelledReadComplete_answered t h cancelled, free, key, pins, ?_⟩
    unfold State.endCancelled
    refine ⟨by rw [frame]; rfl, by rw [frame]; rfl, by rw [frame]; rfl, by rw [frame]; rfl, by rw [frame]; rfl,
      by rw [frame]; rfl, by rw [frame]; rfl, State.queueFetch_queue j w _, fun e a x entry table state => ?_⟩
    have queued := State.queueFetch_queues ((congrArg Way.entry way).trans entry) state (by exact table)
      (congrArg Way.cancelled way)
    rw [queued]
    exact ⟨congrArg Way.entry (State.setWay_way_self ((s.begin t).setWay j w
      { (s.begin t).way j w with cancelled := false }) j w _), State.enqueue_freePort_holds _ (by exact busy)⟩

end Sys2Proof.Machine
end

section
/-! An access that is not answered in time (R185): the record of the fault, and what each requester makes of it. -/

namespace Sys2Proof.Machine

/-! ### The record of a fault -/

/-- A record changes the journal and the port alone. -/
theorem State.journalAt_frame (t : Time) (b : Journal) (s : State) : ∃ queue phase port,
    s.journalAt t b = { s with smi := { s.smi with
      journalCount := (s.smi.journalCount + 1) % 4294967296, journalQueue := queue, journalPhase := phase
      port := port } } := by
  unfold State.journalAt
  dsimp only
  split
  · unfold State.startJournalWrite
    split <;> exact ⟨_, _, _, rfl⟩
  · exact ⟨_, _, _, rfl⟩

/-- The state when MEMORY FAULT has been recorded: the journal, the port and CAUSE.MEMORY have moved, and what was in
flight is so still. -/
structure State.Noted (s v : State) (f : InFlight) : Prop where
  frame : v = { s with smi := v.smi }
  base : v.smi.base = s.smi.base
  flags : v.smi.flags = s.smi.flags.setFlag .memory
  outcomes : v.smi.outcomes = s.smi.outcomes
  scan : v.smi.scan = s.smi.scan
  request : v.smi.scanRequest = s.smi.scanRequest
  rotation : v.smi.rotation = s.smi.rotation
  sweep : v.smi.sweepPending = s.smi.sweepPending
  refresh : v.smi.refresh = s.smi.refresh
  tag : v.smi.refreshTag = s.smi.refreshTag
  count : v.smi.journalCount = (s.smi.journalCount + 1) % 4294967296
  queue : v.smi.journalQueue = if s.smi.journalQueue.length < 16
    then s.smi.journalQueue ++ [⟨s.smi.journalCount, f.granted, f.access.faultRecord⟩] else s.smi.journalQueue
  busy : ∀ g, s.smi.port.inFlight = some g → v.smi.port.inFlight = some g

theorem State.Noted.sch {s v : State} {f : InFlight} (h : s.Noted v f) : v.sch = s.sch := by rw [h.frame]

theorem State.Noted.ctl {s v : State} {f : InFlight} (h : s.Noted v f) : v.ctl = s.ctl := by rw [h.frame]

theorem State.Noted.way {s v : State} {f : InFlight} (h : s.Noted v f) (j : Fin 32) (w : Fin 4) :
    v.way j w = s.way j w := by
  unfold State.way State.cacheSet
  rw [h.frame]

theorem State.sameBlocks_trans {s u v : State} (h : s.sameBlocks u) (g : u.sameBlocks v) : s.sameBlocks v :=
  ⟨State.sameShow_trans h.1 g.1, g.2.1.trans h.2.1, g.2.2.trans h.2.2⟩

theorem State.Noted.blocks {s v : State} {f : InFlight} (h : s.Noted v f) : s.sameBlocks v := by
  rw [h.frame]
  exact ⟨⟨rfl, rfl, rfl, rfl, rfl⟩, rfl, rfl⟩

theorem State.journalFault_noted (f : InFlight) (s : State) : s.Noted (s.journalFault f) f := by
  obtain ⟨count, queue⟩ := State.journalAt_journal f.granted f.access.faultRecord s
  have busy (g : InFlight) := (Bus.inFlight g).journalAt f.granted f.access.faultRecord s
  have noted : s.journalFault f = (s.journalAt f.granted f.access.faultRecord).setCause .memory := rfl
  rw [noted]
  obtain ⟨q, phase, port, frame⟩ := State.journalAt_frame f.granted f.access.faultRecord s
  rw [frame] at count queue busy ⊢
  exact ⟨rfl, rfl, rfl, rfl, rfl, rfl, rfl, rfl, rfl, rfl, count, queue, busy⟩

/-! ### The access is let go -/

section Overdue

variable {t : Time} {s : State} {f : InFlight} (busy : s.smi.port.inFlight = some f) (held : f.abandoned = false)
  (late : f.granted + 100 ≤ max s.clock t)
include busy held late

theorem execAccessTimeout_fetch {j : Fin 32} {w : Fin 4} (fetch : f.access.purpose = .fetch j w) :
    exec (.accessTimeout t) s = .next (((s.begin t).tellFault (.fetch j w)).journalFault f).freePort := by
  refine congrArg Host.Outcome.next ?_
  unfold State.timeOut
  rw [show (s.begin t).smi.port.inFlight = some f from busy]
  dsimp only
  rw [if_pos (by exact late), if_neg (by simp [held]), fetch]
  rfl

theorem execAccessTimeout_other (journal : f.access.purpose.isJournal = false)
    (fetch : f.access.purpose.isFetch = false) :
    exec (.accessTimeout t) s = .next (((s.begin t).journalFault f).tellFault f.access.purpose).freePort := by
  refine congrArg Host.Outcome.next ?_
  unfold State.timeOut
  rw [show (s.begin t).smi.port.inFlight = some f from busy]
  dsimp only
  rw [if_pos (by exact late), if_neg (by simp [held]), if_neg (by simp [journal]), if_neg (by simp [fetch])]

end Overdue

/-- A requester other than a fetch and the journal is told once the fault has been recorded. -/
theorem execAccessTimeout_told {t : Time} {s : State} {p : Purpose} (h : s.overdue t p) (journal : p.isJournal = false)
    (fetch : p.isFetch = false) : ∃ v f, exec (.accessTimeout t) s = .next (v.tellFault p).freePort ∧
      (s.begin t).Noted v f ∧ v.smi.port.inFlight = some f := by
  obtain ⟨f, busy, held, rfl, late⟩ := h
  have noted := State.journalFault_noted f (s.begin t)
  exact ⟨_, f, execAccessTimeout_other busy held late journal fetch, noted, noted.busy f busy⟩

/-! ### Every fault -/

theorem Ends.inFlight (f : InFlight) : Ends fun s => s.smi.port.inFlight = some f :=
  { Bus.inFlight f with setCtl := fun _ _ h => h }

theorem Show.journaled (x : JournalRecord) : Show fun s => x ∈ s.smi.journalQueue :=
  { Ends.journaled x with
    setScreen := fun _ _ _ _ h => h
    send := fun _ _ _ _ h => h
    setArb := fun _ _ _ h => h
    setLink := fun _ _ _ _ h => h
    transmit := fun _ _ _ h => h
    setTracker := fun _ _ h => h
    setWalker := fun _ _ _ h => h
    setSch := fun _ _ _ _ h => h
    setPort := fun _ _ _ h => h
    setDesk := fun _ _ h => h
    setDu := fun _ _ _ h => h
    setScheduler := fun _ _ h => h
    freePort := fun _ h => h }

theorem Whole.memory : Whole fun s => s.smi.flags.memory = true :=
  Whole.registers (R := fun _ f _ => f.memory = true) fun _ f _ n h =>
    (Cause.within_setFlag (g := f) n (Cause.within_refl f)).2.2.2.2 h

theorem State.journalFaulted_memory (s : State) : s.journalFaulted.smi.flags.memory = true :=
  Whole.memory.dropJournalHead _ rfl

/-- What is granted when the port is freed is granted then. -/
theorem Port.grant_granted {now : Time} {p : Port} {g : InFlight} (idle : p.inFlight = none)
    (h : (p.grant now).inFlight = some g) : g.granted = now := by
  unfold Port.grant at h
  rw [idle] at h
  dsimp only at h
  repeat' split at h
  all_goals grind

/-- An access let go long after its grant is not the one granted then. -/
theorem State.freePort_other {s : State} {f : InFlight} (late : f.granted + 100 ≤ s.clock) :
    s.freePort.smi.port.inFlight ≠ some f := by
  intro same
  have granted : f.granted = s.clock := Port.grant_granted rfl same
  rw [granted] at late
  exact absurd late (Nat.not_le.mpr (Nat.lt_add_of_pos_right (by decide)))

/-- The clock stands while a requester is told. -/
theorem State.tellFault_clock (p : Purpose) (s : State) : (s.tellFault p).clock = s.clock :=
  ((Whole.stands s.pending s.clock).tellFault p s ⟨rfl, rfl⟩).2

/-! ### What the requesters make of it -/

theorem State.startOwedScan_idem (s : State) : s.startOwedScan.startOwedScan = s.startOwedScan := by
  by_cases starts : s.smi.scanRequest = true ∧ s.scanFree = true
  · refine State.startOwedScan_none ?_
    rw [State.startOwedScan_free starts.1 starts.2]
    exact (State.scanOutcomes_kept s.clearRequest).1
  · have stands : s.startOwedScan = s := if_neg (by simpa using starts)
    rw [stands, stands]

/-- A directive in progress that ends as an access is answered or faulted hands its outcome back. -/
theorem State.complete_answered {v : State} {p : Progress} {f : InFlight} (code : OutcomeCode) (ws : List Nat)
    (hp : v.ctl.progress = some p) (hf : v.smi.port.inFlight = some f) :
    v.outcomeAdded (v.complete code ws).freePort p.slot code ws := by
  have added := State.complete_added code ws hp hf
  rwa [State.complete_eq hp, State.startOwedScan_idem, ← State.complete_eq hp] at added

/-- An outcome handed back after those of `v` is handed back after those of a state with the same ones. -/
theorem State.handedBack_of {s v u : State} {slot : Slot} {code : OutcomeCode} {ws : List Nat}
    (outcomes : v.smi.outcomes = s.smi.outcomes) (base : v.smi.base = s.smi.base) (h : v.handedBack u slot code ws) :
    s.handedBack u slot code ws := by
  unfold State.handedBack State.resultAddress State.slotAddress at *
  rwa [outcomes, base] at h

/-- A LOAD without a script ends: IDLE, and with its outcome (R168). -/
theorem State.failLoad_ended {v : State} {p : Progress} {f : InFlight} (code : OutcomeCode) (table : TableName)
    (index fault : Nat) (hp : v.ctl.progress = some p) (hf : v.smi.port.inFlight = some f) :
    v.sameBlocks (v.failLoad code table index fault).freePort ∧
      (v.failLoad code table index fault).freePort.ctl = { v.ctl with engine := .idle, progress := none } ∧
      v.handedBack (v.failLoad code table index fault).freePort p.slot code [table.code, index, fault, 0] := by
  have scan := State.changeEngine_sameScan .idle .loadEnd v.progressSlot 0 code.code v
  have frame := State.changeEngine_frame .idle .loadEnd v.progressSlot 0 code.code v
  obtain ⟨handed, ended, -⟩ := State.complete_answered code [table.code, index, fault, 0]
    (v := v.changeEngine .idle .loadEnd v.progressSlot 0 code.code) (p := p)
    (by rw [State.changeEngine_ctl]; exact hp) ((Ends.inFlight f).changeEngine _ _ _ _ _ _ hf)
  refine ⟨?_, ?_, State.handedBack_of scan.2.2.2.1 scan.1 handed⟩
  · unfold State.failLoad
    rw [ended, frame]
    exact ⟨⟨rfl, rfl, rfl, rfl, rfl⟩, rfl, rfl⟩
  · unfold State.failLoad
    rw [ended, frame]

theorem State.startOwedScan_kept (s : State) : s.startOwedScan.smi.flags = s.smi.flags ∧
    s.startOwedScan.smi.rotation = s.smi.rotation ∧ s.startOwedScan.smi.sweepPending = s.smi.sweepPending := by
  unfold State.startOwedScan
  split
  · obtain ⟨-, -, flags, rotation, sweep⟩ := State.scanOutcomes_kept s.clearRequest
    exact ⟨flags, rotation, sweep⟩
  · exact ⟨rfl, rfl, rfl⟩

theorem State.actOwedGo_none {s : State} (unowed : s.wlk.owedGo = none) : s.actOwedGo = s := by
  unfold State.actOwedGo
  rw [unowed]

/-- With no GO owed only the fire cursor moves (R58). -/
theorem State.moveFireCursor_unowed {s : State} (c : Nat) (unowed : s.wlk.owedGo = none) :
    ∃ x, s.moveFireCursor c = s.setWalker { s.wlk with fireCursor := x } := by
  have stands : ∃ x, s = s.setWalker { s.wlk with fireCursor := x } := ⟨s.wlk.fireCursor, rfl⟩
  unfold State.moveFireCursor
  split
  · split
    · next x sec =>
      split
      · exact ⟨some (s.wlk.fireFrom x c), State.actOwedGo_none unowed⟩
      · exact stands
    · exact stands
  · exact stands

/-- With no GO owed a cue passed over moves the cursors and the list of cues not handed alone. -/
theorem State.passCue_unowed {s : State} (c : Cursor) (unhanded : Bool) (unowed : s.wlk.owedGo = none) :
    ∃ x, s.passCue c unhanded = s.setWalker { s.wlk with
      cursor := some { c with cue := c.cue + 1 }, waiting := none, heldBack := false
      unhanded := if unhanded then addOnce (c.cue, c.pass) s.wlk.unhanded else s.wlk.unhanded, fireCursor := x } := by
  unfold State.passCue
  dsimp only
  split
  · exact State.moveFireCursor_unowed (s := s.setWalker _) c.cue unowed
  · exact ⟨s.wlk.fireCursor, rfl⟩

theorem mem_addOnce (p : Nat × Nat) (l : List (Nat × Nat)) : p ∈ addOnce p l := by
  unfold addOnce
  split
  · next there => exact there
  · simp

theorem Armed.awaits_iff {k : Key} {e : Armed} : e.awaits k = true ↔ (k, KeyResult.pending) ∈ e.keys := by
  simp [Armed.awaits]

theorem State.endCancelled_onWay (j : Fin 32) (w : Fin 4) (s : State) : OnWay j w s (s.endCancelled j w) :=
  (OnWay.setWay j w _ s).trans (State.queueFetch_onWay j w _)

/-- The way of a faulted fetch is free, and the armed entries that wait for its key have the answer FAULTED. -/
def State.fetchLost (j : Fin 32) (w : Fin 4) (k : Key) (s : State) : State :=
  (s.setWay j w { s.way j w with entry := none }).armedAnswered k .faulted

theorem State.tellFault_fetch {s : State} {j : Fin 32} {w : Fin 4} {e : CacheEntry} (live : (s.way j w).cancelled = false)
    (entry : (s.way j w).entry = some e) (still : s.ctl.engine ≠ .running) (free : s.ctl.progress = none) :
    s.tellFault (.fetch j w) = (s.fetchLost j w e.key).serve j w := by
  have told : s.tellFault (.fetch j w) = State.answerFrom j w (s.fetchFaulted j w) := if_neg (by simp [live])
  have faulted : s.fetchFaulted j w = (s.setWay j w { s.way j w with entry := none }, some (e.key, .faulted)) := by
    unfold State.fetchFaulted
    rw [entry]
  have notice : s.noticeWork = none := by
    unfold State.noticeWork
    rw [free]
  have delivered : (s.setWay j w { s.way j w with entry := none }).deliverAnswer e.key .faulted = s.fetchLost j w e.key :=
    State.deliverAnswer_quiet (.inl still) notice
  rw [told, faulted]
  exact congrArg (State.serve j w) delivered

theorem State.fetchLost_way (s : State) (j : Fin 32) (w : Fin 4) (k : Key) :
    (s.fetchLost j w k).way j w = { s.way j w with entry := none } := State.setWay_way_self s j w _

/-- An outcome whose write faulted is unwritten again (R188). -/
def State.outcomeUnwritten (o : OutcomeRecord) (s : State) : State :=
  s.setOutcomes (s.smi.outcomes.map fun q => if q = o then { q with writing := false } else q)

theorem State.outcomeFaulted_stays {s : State} {slot : Slot} {o : OutcomeRecord}
    (writing : s.writingOutcome slot = some o) (elsewhere : ∀ b, s.smi.scan ≠ .outcomes b) :
    s.outcomeFaulted slot = s.outcomeUnwritten o := by
  unfold State.outcomeFaulted
  rw [writing]
  dsimp only
  split
  · next b waits => exact absurd waits (elsewhere b)
  · rfl

theorem State.outcomeFaulted_waits {s : State} {slot : Slot} {o : OutcomeRecord} {b : Bool}
    (writing : s.writingOutcome slot = some o) (waits : s.smi.scan = .outcomes b) :
    s.outcomeFaulted slot = if (s.outcomeUnwritten o).smi.outcomes.any (·.writing)
      then (s.outcomeUnwritten o).setScan (.outcomes true) else (s.outcomeUnwritten o).endScan := by
  have settled : s.outcomeFaulted slot = ((s.outcomeUnwritten o).setScan (.outcomes true)).outcomesSettled := by
    unfold State.outcomeFaulted
    rw [writing]
    dsimp only
    split
    · rfl
    · next elsewhere => exact absurd waits (elsewhere b)
  exact settled

/-- Every fault sets CAUSE.MEMORY, is recorded unless it is the journal's own, and leaves the port. -/
theorem timeout_recorded :
    ∀ (t : Time) (s : State) (f : InFlight), s.smi.port.inFlight = some f → f.abandoned = false →
    f.granted + 100 ≤ max s.clock t →
    ∃ u, exec (.accessTimeout t) s = .next u ∧ u.smi.flags.memory = true ∧ u.smi.port.sound ∧
      u.smi.port.inFlight ≠ some f ∧
      (f.access.purpose.isJournal = false → (∀ j w, f.access.purpose ≠ .fetch j w) →
        s.smi.journalQueue.length < 16 →
        (⟨s.smi.journalCount, f.granted, f.access.faultRecord⟩ : JournalRecord) ∈ u.smi.journalQueue) ∧
      ∀ j w, f.access.purpose = .fetch j w → u.smi.journalQueue.length < 16 →
        ∃ rs n, u.smi.journalQueue = rs ++ [⟨n, f.granted, f.access.faultRecord⟩] ∧
          (n + 1) % 4294967296 = u.smi.journalCount := by
  intro t s f busy held late
  have other (v : State) (clock : v.clock = max s.clock t) : v.freePort.smi.port.inFlight ≠ some f :=
    State.freePort_other (by rw [clock]; exact late)
  cases journal : f.access.purpose.isJournal with
  | true =>
    have written : f.access.purpose = .journalRecord ∨ f.access.purpose = .journalCount := by
      cases purpose : f.access.purpose
      case journalRecord => exact .inl rfl
      case journalCount => exact .inr rfl
      all_goals rw [purpose] at journal; cases journal
    refine ⟨_, execAccessTimeout_journal t busy held late written, State.journalFaulted_memory _, State.freePort_sound _,
      other (s.begin t).journalFaulted
      ((Whole.stands s.pending (max s.clock t)).journalFaulted (s.begin t) ⟨rfl, rfl⟩).2, nofun, fun j w fetch => ?_⟩
    rw [fetch] at journal
    cases journal
  | false =>
    cases isFetch : f.access.purpose.isFetch with
    | true =>
      cases purpose : f.access.purpose
      case fetch j w =>
        have noted := State.journalFault_noted f ((s.begin t).tellFault (.fetch j w))
        have clock : (((s.begin t).tellFault (.fetch j w)).journalFault f).clock = max s.clock t := by
          rw [noted.frame]
          exact State.tellFault_clock _ _
        refine ⟨_, execAccessTimeout_fetch busy held late purpose, ?_, State.freePort_sound _, other _ clock,
          fun _ none => absurd rfl (none j w), fun j' w' _ room => ?_⟩
        · show (((s.begin t).tellFault (.fetch j w)).journalFault f).smi.flags.memory = true
          rw [noted.flags]
          rfl
        · have queue := noted.queue
          split at queue
          · exact ⟨_, _, queue, noted.count.symm⟩
          · next full =>
            have room : (((s.begin t).tellFault (.fetch j w)).journalFault f).smi.journalQueue.length < 16 := room
            exact absurd (queue ▸ room) full
      all_goals rw [purpose] at isFetch; cases isFetch
    | false =>
      have noted := State.journalFault_noted f (s.begin t)
      have clock : ((s.begin t).journalFault f).clock = max s.clock t := by
        rw [noted.frame]
        rfl
      refine ⟨_, execAccessTimeout_other busy held late journal isFetch, ?_, State.freePort_sound _,
        other _ ((State.tellFault_clock _ _).trans clock), fun _ _ room => ?_, fun j w fetch => ?_⟩
      · refine Whole.memory.tellFault _ _ ?_
        rw [noted.flags]
        rfl
      · refine (Show.journaled _).tellFault _ _ journal ?_
        rw [noted.queue, if_pos (by exact room)]
        exact List.mem_append_right _ List.mem_cons_self
      · rw [fetch] at isFetch
        cases isFetch

/-- An access that a soft reset abandoned is let go without a record. -/
theorem timeout_abandoned :
    ∀ (t : Time) (s : State) (f : InFlight), s.smi.port.inFlight = some f → f.abandoned = true →
    f.granted + 100 ≤ max s.clock t → exec (.accessTimeout t) s = .next (s.begin t).freePort := by
  intro t s f busy let_go late
  refine congrArg Host.Outcome.next ?_
  unfold State.timeOut
  rw [show (s.begin t).smi.port.inFlight = some f from busy]
  dsimp only
  rw [if_pos (by exact late), if_pos let_go]

/-- Before 100 µs nothing happens. -/
theorem timeout_early :
    ∀ (t : Time) (s : State) (f : InFlight), s.smi.port.inFlight = some f → max s.clock t < f.granted + 100 →
    exec (.accessTimeout t) s = .next (s.begin t) := by
  intro t s f busy early
  refine congrArg Host.Outcome.next ?_
  unfold State.timeOut
  rw [show (s.begin t).smi.port.inFlight = some f from busy]
  exact if_neg (Nat.not_le.mpr early)

/-- A LOAD ends with MEMORY FAULT. -/
theorem timeout_load :
    ∀ (t : Time) (s : State) (p : Progress) (w : LoadWork), s.overdue t .load → s.ctl.progress = some p →
    p.work = .load w →
    ∃ u, exec (.accessTimeout t) s = .next u ∧ s.sameBlocks u ∧
      u.ctl = { s.ctl with engine := .idle, progress := none } ∧
      s.handedBack u p.slot .memoryFault [w.table.code, w.index, 0, 0] := by
  intro t s p w h progress work
  obtain ⟨v, f, he, noted, busy⟩ := execAccessTimeout_told h rfl rfl
  have held : v.ctl.progress = some p := by
    rw [noted.frame]
    exact progress
  have told : v.tellFault .load = v.failLoad .memoryFault w.table w.index 0 := by
    unfold State.tellFault State.loadWork
    rw [held]
    dsimp only
    rw [work]
  rw [told] at he
  obtain ⟨blocks, ctl, handed⟩ := State.failLoad_ended .memoryFault w.table w.index 0 held busy
  rw [noted.ctl] at ctl
  exact ⟨_, he, State.sameBlocks_trans noted.blocks blocks, ctl, State.handedBack_of noted.outcomes noted.base handed⟩

/-- An AMEND CUE ends with MEMORY FAULT. -/
theorem timeout_amend :
    ∀ (t : Time) (s : State) (p : Progress) (c : Nat), s.overdue t .amend → s.ctl.progress = some p →
    p.work = .amend c →
    ∃ u, exec (.accessTimeout t) s = .next u ∧ s.sameBlocks u ∧ u.ctl = { s.ctl with progress := none } ∧
      s.handedBack u p.slot .memoryFault [] := by
  intro t s p c h progress work
  obtain ⟨v, f, he, noted, busy⟩ := execAccessTimeout_told h rfl rfl
  obtain ⟨handed, ended, -⟩ := State.complete_answered .memoryFault [] (v := v) (p := p)
    (by rw [noted.frame]; exact progress) busy
  refine ⟨_, he, ?_, ?_, State.handedBack_of noted.outcomes noted.base handed⟩
  · unfold State.tellFault
    rw [ended, noted.frame]
    exact ⟨⟨rfl, rfl, rfl, rfl, rfl⟩, rfl, rfl⟩
  · unfold State.tellFault
    rw [ended, noted.frame]
    rfl

/-- An offer in ARMED is dropped, and the cursor moves on. -/
theorem timeout_offer :
    ∀ (t : Time) (s : State) (c : Cursor) (x : Section), s.overdue t (.offer false) → s.ctl.engine = .armed →
    s.wlk.cursor = some c → s.wlk.sec c.sec = some x → c.cue + 1 < x.cueEnd → s.wlk.owedGo = none →
    s.smi.journalQueue.length < 15 →
    ∃ u, exec (.accessTimeout t) s = .next u ∧ u.sch = s.sch ∧ u.du = s.du ∧ u.trk = s.trk ∧ u.arb = s.arb ∧
      u.links = s.links ∧ u.ctl = s.ctl ∧ u.wlk.cursor = some { c with cue := c.cue + 1 } ∧
      (c.cue, c.pass) ∈ u.wlk.unhanded ∧
      (⟨(s.smi.journalCount + 1) % 4294967296, max s.clock t, .cueRejected 11 c.cue 0 0⟩ : JournalRecord) ∈
        u.smi.journalQueue := by
  intro t s c x h armed cursor sec more unowed room
  obtain ⟨v, f, he, noted, busy⟩ := execAccessTimeout_told h rfl rfl
  have wlk : v.wlk = s.wlk := by rw [noted.frame]; rfl
  have engine : v.ctl.engine = .armed := by rw [noted.frame]; exact armed
  let r := v.setWalker { v.wlk with reading := false }
  let b : Journal := .cueRejected 11 c.cue 0 0
  have dropped : v.tellFault (.offer false) = (((r.journal b).passCue c true).fireAll).reviewOffers := by
    unfold State.tellFault State.endOffer
    dsimp only
    rw [show (v.setWalker { v.wlk with reading := false }).wlk.cursor = some c from (congrArg Walker.cursor wlk).trans cursor]
    rfl
  obtain ⟨x', passed⟩ := State.passCue_unowed (s := r.journal b) c true (by
    rw [State.journal_wlk]
    exact (congrArg Walker.owedGo wlk).trans unowed)
  rw [State.journal_wlk] at passed
  have still : ((r.journal b).passCue c true).fireAll = (r.journal b).passCue c true := State.fireAll_idle (by
    rw [passed]
    show (r.journal b).ctl.engine ≠ .running
    rw [State.journal_ctl]
    exact engine.trans_ne nofun)
  have record : (⟨(s.smi.journalCount + 1) % 4294967296, max s.clock t, b⟩ : JournalRecord) ∈
      (r.journal b).smi.journalQueue := by
    have joined := State.journal_mem (s := r) b (by
      show v.smi.journalQueue.length < 16
      rw [noted.queue]
      split
      · rw [List.length_append]
        exact Nat.succ_lt_succ room
      · exact Nat.lt_succ_of_lt room)
    have count : r.smi.journalCount = (s.smi.journalCount + 1) % 4294967296 := noted.count
    have clock : r.clock = max s.clock t := by
      show v.clock = _
      rw [noted.frame]
      rfl
    rwa [count, clock] at joined
  rw [dropped, still, passed] at he
  have bus := State.journalAt_onlyBus r.clock b r.onlyBus_refl
  have journaled : r.journal b = { r with smi := (r.journal b).smi } := bus
  generalize r.journal b = n at *
  let w := n.setWalker { r.wlk with
    cursor := some { c with cue := c.cue + 1 }, waiting := none, heldBack := false
    unhanded := addOnce (c.cue, c.pass) r.wlk.unhanded, fireCursor := x' }
  have cursor' : w.reviewOffers.wlk.cursor = some { c with cue := c.cue + 1 } :=
    State.reviewOffers_cursor (s := w) (x := x) rfl (by
      show v.wlk.sec c.sec = some x
      rw [wlk]
      exact sec) more
  obtain ⟨frame, walk, -, -⟩ := State.reviewOffers_only w
  have kept : Offers fun q => (⟨(s.smi.journalCount + 1) % 4294967296, max s.clock t, b⟩ : JournalRecord) ∈
      q.smi.journalQueue := ⟨fun _ _ h => h, fun _ _ _ h => h⟩
  have shown : v.sch = s.sch ∧ v.du = s.du ∧ v.trk = s.trk ∧ v.arb = s.arb ∧ v.links = s.links ∧ v.ctl = s.ctl := by
    rw [noted.frame]
    exact ⟨rfl, rfl, rfl, rfl, rfl, rfl⟩
  obtain ⟨sch, du, trk, arb, links, ctl⟩ := shown
  refine ⟨_, he, ?_, ?_, ?_, ?_, ?_, ?_, cursor', ?_, kept.reviewOffers w record⟩
  · exact (congrArg State.sch frame).trans ((congrArg State.sch journaled).trans sch)
  · exact (congrArg State.du frame).trans ((congrArg State.du journaled).trans du)
  · exact (congrArg State.trk frame).trans ((congrArg State.trk journaled).trans trk)
  · exact (congrArg State.arb frame).trans ((congrArg State.arb journaled).trans arb)
  · exact (congrArg State.links frame).trans ((congrArg State.links journaled).trans links)
  · exact (congrArg State.ctl frame).trans ((congrArg State.ctl journaled).trans ctl)
  · show _ ∈ w.reviewOffers.wlk.unhanded
    rw [walk]
    exact mem_addOnce _ _

/-- A fetch answers FAULTED and frees its way. -/
theorem timeout_fetch :
    ∀ (t : Time) (s : State) (j : Fin 32) (w : Fin 4) (e : CacheEntry), s.overdue t (.fetch j w) →
    (s.way j w).cancelled = false → (s.way j w).entry = some e → s.ctl.engine ≠ .running → s.ctl.progress = none →
    ∃ u, exec (.accessTimeout t) s = .next u ∧ u.trk = s.trk ∧ u.wlk = s.wlk ∧ u.arb = s.arb ∧ u.links = s.links ∧
      u.ctl = s.ctl ∧
      u.sch = { s.sch with armed := s.sch.armed.map fun x => { x with
        keys := x.keys.map fun r => if r.1 = e.key ∧ r.2 = .pending then (e.key, .faulted) else r
        unpinned := if (e.key, .pending) ∈ x.keys ∧ e.key ∉ x.unpinned then x.unpinned ++ [e.key] else x.unpinned } } ∧
      u.smi.journalCount = (s.smi.journalCount + 1) % 4294967296 ∧
      ((∀ i ∈ s.du.queue, setOf i.key ≠ j) → (u.way j w).entry = none ∧ u.du.queue = s.du.queue) ∧
      ∀ (i : WaitItem) (is : List WaitItem), s.du.queue = i :: is → setOf i.key = j →
        u.du.queue = is ∧ ∃ q, (u.way j w).entry = some { key := i.key, state := .fetching 0 q, pins := i.pins } := by
  intro t s j w e h live entry still free
  obtain ⟨f, busy, held, purpose, late⟩ := h
  have he := execAccessTimeout_fetch busy held late purpose
  rw [State.tellFault_fetch (s := s.begin t) live entry still free] at he
  have noted := State.journalFault_noted f (((s.begin t).fetchLost j w e.key).serve j w)
  have lost := State.fetchLost_way (s.begin t) j w e.key
  have served := (State.serve_onWay j w ((s.begin t).fetchLost j w e.key)).frame
  obtain ⟨nobody, first⟩ := State.serve_servedOr (s := s) (v := (s.begin t).fetchLost j w e.key) (j := j) (w := w) rfl
    (by rw [lost]; rfl)
  rw [lost] at nobody
  have count := noted.count
  generalize (((s.begin t).fetchLost j w e.key).serve j w).journalFault f = u at *
  have du : u.du = (((s.begin t).fetchLost j w e.key).serve j w).du := by rw [noted.frame]
  have answers : s.sch.armed.map (Armed.answerKey e.key .faulted) = s.sch.armed.map fun x => { x with
      keys := x.keys.map fun r => if r.1 = e.key ∧ r.2 = .pending then (e.key, .faulted) else r
      unpinned := if (e.key, .pending) ∈ x.keys ∧ e.key ∉ x.unpinned then x.unpinned ++ [e.key] else x.unpinned } := by
    refine List.map_congr_left fun x _ => ?_
    unfold Armed.answerKey
    simp only [true_and, Armed.awaits_iff]
  refine ⟨_, he, ?_, ?_, ?_, ?_, ?_, ?_, ?_, fun empty => ?_, fun i is queue ours => ?_⟩
  · show u.trk = _
    rw [noted.frame, served]
    rfl
  · show u.wlk = _
    rw [noted.frame, served]
    rfl
  · show u.arb = _
    rw [noted.frame, served]
    rfl
  · show u.links = _
    rw [noted.frame, served]
    rfl
  · show u.ctl = _
    rw [noted.frame, served]
    rfl
  · show u.sch = _
    rw [noted.frame, served, ← answers]
    rfl
  · show u.smi.journalCount = _
    rw [count, served]
    rfl
  · have stays := nobody empty
    unfold State.way State.cacheSet at stays ⊢
    rw [← du] at stays
    exact stays
  · have taken := first [] i is queue ours (fun x none => absurd none (List.not_mem_nil))
    unfold State.way State.cacheSet at taken ⊢
    rw [← du] at taken
    exact taken

/-- A cancelled read just ends. -/
theorem timeout_cancelledRead :
    ∀ (t : Time) (s : State) (j : Fin 32) (w : Fin 4), s.overdue t (.fetch j w) → (s.way j w).cancelled = true →
    ∃ u, exec (.accessTimeout t) s = .next u ∧ (u.way j w).cancelled = false ∧
      (u.way j w).entry.map (·.key) = (s.way j w).entry.map (·.key) ∧
      (u.way j w).entry.map (·.pins) = (s.way j w).entry.map (·.pins) ∧ u.sch = s.sch ∧ u.ctl = s.ctl := by
  intro t s j w h cancelled
  obtain ⟨f, busy, held, purpose, late⟩ := h
  have he := execAccessTimeout_fetch busy held late purpose
  have told : (s.begin t).tellFault (.fetch j w) = (s.begin t).endCancelled j w := if_pos cancelled
  rw [told] at he
  have noted := State.journalFault_noted f ((s.begin t).endCancelled j w)
  have way := State.setWay_way_self (s.begin t) j w { (s.begin t).way j w with cancelled := false }
  have kept := State.queueFetch_keeps j w ((s.begin t).setWay j w { (s.begin t).way j w with cancelled := false })
  have ended := State.endCancelled_onWay j w (s.begin t)
  rw [way] at kept
  obtain ⟨live, key, pins⟩ := kept
  have same := noted.way j w
  have sch := noted.sch.trans (congrArg State.sch ended.frame)
  have ctl := noted.ctl.trans (congrArg State.ctl ended.frame)
  generalize ((s.begin t).endCancelled j w).journalFault f = u at *
  refine ⟨_, he, ?_, ?_, ?_, sch, ctl⟩
  · exact (congrArg Way.cancelled same).trans live
  · exact (congrArg (fun x : Way => x.entry.map (·.key)) same).trans key
  · exact (congrArg (fun x : Way => x.entry.map (·.pins)) same).trans pins

/-- A scan or a sweep ends. -/
theorem timeout_scan :
    ∀ (t : Time) (s : State) (p : Purpose) (slot : Slot), s.overdue t p →
    p = .scanState slot ∨ p = .scanSlot slot false ∨ p = .scanSlot slot true ∨ p = .take slot ∨ p = .sweepState slot ∨
      p = .sweepResults slot ∨ p = .sweepDone slot → s.smi.scanRequest = false →
    ∃ u, exec (.accessTimeout t) s = .next u ∧ s.sameBlocks u ∧ u.ctl = s.ctl ∧ u.smi.scan = .idle ∧
      u.smi.rotation = s.smi.rotation ∧ u.smi.sweepPending = s.smi.sweepPending ∧
      u.smi.outcomes = s.smi.outcomes := by
  intro t s p slot h purpose unrequested
  have told (v : State) : v.tellFault p = v.endScan := by
    rcases purpose with rfl | rfl | rfl | rfl | rfl | rfl | rfl <;> rfl
  have neither : p.isJournal = false ∧ p.isFetch = false := by
    rcases purpose with rfl | rfl | rfl | rfl | rfl | rfl | rfl <;> exact ⟨rfl, rfl⟩
  obtain ⟨v, f, he, noted, busy⟩ := execAccessTimeout_told h neither.1 neither.2
  rw [told, State.endScan_none (noted.request.trans unrequested)] at he
  refine ⟨_, he, ?_, ?_, rfl, noted.rotation, noted.sweep, noted.outcomes⟩
  · rw [noted.frame]
    exact ⟨⟨rfl, rfl, rfl, rfl, rfl⟩, rfl, rfl⟩
  · rw [noted.frame]
    rfl

/-- An outcome is unwritten again. -/
theorem timeout_outcome :
    ∀ (t : Time) (s : State) (slot : Slot) (o : OutcomeRecord),
    s.overdue t (.resultWords slot) ∨ s.overdue t (.doneWord slot) → s.writingOutcome slot = some o →
    ∃ u, exec (.accessTimeout t) s = .next u ∧ s.sameBlocks u ∧ u.ctl = s.ctl ∧
      (s.smi.scanRequest = false ∨ (∀ b, s.smi.scan ≠ .outcomes b) →
        u.smi.outcomes = s.smi.outcomes.map fun q => if q = o then { q with writing := false } else q) ∧
      u.smi.flags.directive = s.smi.flags.directive ∧
      ((∀ b, s.smi.scan ≠ .outcomes b) → u.smi.scan = s.smi.scan) ∧
      ∀ b, s.smi.scan = .outcomes b → (∀ q ∈ s.smi.outcomes, q ≠ o → q.writing = false) →
        s.smi.scanRequest = false → u.smi.scan = .idle := by
  intro t s slot o h writing
  obtain ⟨v, f, he, noted, busy⟩ : ∃ v f, exec (.accessTimeout t) s = .next (v.outcomeFaulted slot).freePort ∧
      (s.begin t).Noted v f ∧ v.smi.port.inFlight = some f := by
    rcases h with h | h
    · exact execAccessTimeout_told h rfl rfl
    · exact execAccessTimeout_told h rfl rfl
  have held : v.writingOutcome slot = some o := by
    unfold State.writingOutcome at *
    rw [noted.outcomes]
    exact writing
  have bus := (Bus.only v).outcomeFaulted slot v v.onlyBus_refl
  have blocks : s.sameBlocks (v.outcomeFaulted slot) ∧ (v.outcomeFaulted slot).ctl = s.ctl := by
    rw [bus, noted.frame]
    exact ⟨⟨⟨rfl, rfl, rfl, rfl, rfl⟩, rfl, rfl⟩, rfl⟩
  have unwritten : (v.outcomeUnwritten o).smi.outcomes =
      s.smi.outcomes.map fun q => if q = o then { q with writing := false } else q :=
    congrArg (List.map _) noted.outcomes
  have flag : v.smi.flags.directive = s.smi.flags.directive := by
    rw [noted.flags]
    rfl
  refine ⟨_, he, blocks.1, blocks.2, ?_⟩
  by_cases elsewhere : ∀ b, s.smi.scan ≠ .outcomes b
  · rw [State.outcomeFaulted_stays held fun b waits => elsewhere b (noted.scan.symm.trans waits)]
    exact ⟨fun _ => unwritten, flag, fun _ => noted.scan, fun b waits => absurd waits (elsewhere b)⟩
  · obtain ⟨b, waits⟩ := not_forall_not.mp elsewhere
    rw [State.outcomeFaulted_waits held (noted.scan.trans waits)]
    have ended (unrequested : s.smi.scanRequest = false) : (v.outcomeUnwritten o).endScan =
        (v.outcomeUnwritten o).setScan .idle := State.endScan_none (noted.request.trans unrequested)
    have flags : (v.outcomeUnwritten o).endScan.smi.flags = v.smi.flags :=
      (State.startOwedScan_kept ((v.outcomeUnwritten o).setScan .idle)).1
    refine ⟨fun which => ?_, ?_, fun none => absurd waits (none b), fun _ _ settled unrequested => ?_⟩
    · have unrequested := which.resolve_right elsewhere
      rw [ended unrequested]
      split <;> exact unwritten
    · split
      · exact flag
      · exact (congrArg Cause.directive flags).trans flag
    · have done : (v.outcomeUnwritten o).smi.outcomes.any (·.writing) = false := by
        rw [unwritten, List.any_eq_false]
        intro q there
        obtain ⟨p, mem, rfl⟩ := List.mem_map.mp there
        split
        · simp
        · next other => simp [settled p mem other]
      rw [if_neg (by simp [done]), ended unrequested]
      rfl

/-- A refresh ends, or an owed one starts. -/
theorem timeout_status :
    ∀ (t : Time) (s : State) (rest : List (Nat × List Byte)) (owed : Bool), s.overdue t .status →
    s.smi.refresh = .writing rest owed →
    ∃ u, exec (.accessTimeout t) s = .next u ∧ s.sameBlocks u ∧ u.ctl = s.ctl ∧
      (owed = false → u.smi.refresh = .idle ∧ u.smi.refreshTag = s.smi.refreshTag) ∧
      (owed = true → u.smi.refreshTag = (s.smi.refreshTag + 1) % 4294967296) := by
  intro t s rest owed h refresh
  obtain ⟨v, f, he, noted, busy⟩ := execAccessTimeout_told h rfl rfl
  have told : v.tellFault .status = if owed then v.refreshEnded.startRefresh else v.refreshEnded := by
    unfold State.tellFault State.endRefresh
    rw [noted.refresh.trans refresh]
    rfl
  have bus := (Bus.only v).endRefresh v v.onlyBus_refl
  have blocks : s.sameBlocks (v.tellFault .status) ∧ (v.tellFault .status).ctl = s.ctl := by
    show s.sameBlocks v.endRefresh ∧ v.endRefresh.ctl = s.ctl
    rw [bus, noted.frame]
    exact ⟨⟨⟨rfl, rfl, rfl, rfl, rfl⟩, rfl, rfl⟩, rfl⟩
  refine ⟨_, he, blocks.1, blocks.2, fun unowed => ?_, fun owing => ?_⟩
  · rw [told, unowed, if_neg (by simp)]
    exact ⟨rfl, noted.tag⟩
  · rw [told, owing, if_pos rfl, State.startRefresh_eq]
    exact congrArg (fun n => (n + 1) % 4294967296) noted.tag

/-- Settles O42: the fault is recorded, the requester is told, and the port grants the next access. -/
theorem accessTimedOut : Obligations.AccessTimedOut :=
  ⟨timeout_recorded, timeout_abandoned, timeout_early, timeout_load, timeout_amend, timeout_offer,
    timeout_fetch, timeout_cancelledRead, timeout_scan, timeout_outcome, timeout_status⟩

end Sys2Proof.Machine
end

section
/-! RESUME (R173), and what a fire leaves when no GO is owed and the show has not ended. -/

namespace Sys2Proof.Machine

/-! ### A fire with no GO owed -/

/-- A fire up to the timing of the cue behind it. -/
def State.fireSettled (e : Armed) (s : State) : State := ((s.fireReported e).leaveList e).cueFired e

theorem State.fireEntry_settled (e : Armed) (s : State) :
    s.fireEntry e = (s.fireSettled e).timeFollower e.cue e.pass (e.appear.getD 0) := rfl

/-- Nothing ends while the show has not, or with a cue armed (R175). -/
theorem State.testEnd_stays {s : State} (stays : s.wlk.inForce ≠ .endOfShow ∨ s.sch.armed ≠ []) : s.testEnd = s := by
  unfold State.testEnd
  exact if_neg fun ended => stays.elim (fun shown => shown ended.2.1) fun armed => armed ended.2.2

/-- The armed list of a show that has not ended may empty without a report (R175). -/
theorem State.testEnd_shown {s : State} (shown : s.wlk.inForce ≠ .endOfShow) : s.testEnd = s :=
  State.testEnd_stays (.inl shown)

theorem Walker.remembers_frame (e : Armed) (screens : BitVec 16) (w : Walker) :
    w.remembers e screens = { w with history := (w.remembers e screens).history } := by
  unfold Walker.remembers
  cases e.copy.action <;> rfl

/-- With no GO owed a fire reported to the walker moves the fire cursor and the offers alone. -/
theorem State.cueFired_walks {s : State} (e : Armed) (unowed : s.wlk.owedGo = none) :
    ∃ w : Walker, w.inForce = s.wlk.inForce ∧ w.owedGo = none ∧ w.history = s.wlk.history ∧
      s.cueFired e = (s.setWalker w).reviewOffers := by
  unfold State.cueFired
  extract_lets called counted_ counted moved
  have h1 : ∃ w : Walker, w.inForce = s.wlk.inForce ∧ w.owedGo = none ∧ w.history = s.wlk.history ∧
      counted = s.setWalker w := by
    unfold counted
    split
    · exact ⟨{ s.wlk with calledOffers := s.wlk.calledOffers - 1 }, rfl, unowed, rfl, rfl⟩
    · exact ⟨s.wlk, rfl, unowed, rfl, rfl⟩
  have h2 : ∃ w : Walker, w.inForce = s.wlk.inForce ∧ w.owedGo = none ∧ w.history = s.wlk.history ∧
      moved = s.setWalker w := by
    obtain ⟨w, inForce, none, history, same⟩ := h1
    unfold moved
    rw [same]
    split
    · obtain ⟨x, advanced⟩ := State.moveFireCursor_unowed (s := s.setWalker w) (e.cue + 1) none
      exact ⟨{ w with fireCursor := x }, inForce, none, history, advanced⟩
    · exact ⟨w, inForce, none, history, rfl⟩
  obtain ⟨w, inForce, none, history, same⟩ := h2
  exact ⟨w, inForce, none, history, congrArg State.reviewOffers same⟩

theorem State.cueFired_unowed {s : State} (e : Armed) (unowed : s.wlk.owedGo = none) :
    s.cueFired e = { s with wlk := (s.cueFired e).wlk, smi := (s.cueFired e).smi } ∧
      (s.cueFired e).wlk.inForce = s.wlk.inForce ∧ (s.cueFired e).wlk.owedGo = none ∧
      (s.cueFired e).wlk.history = s.wlk.history ∧ s.smi.sameScan (s.cueFired e).smi ∧
      (s.smi.port.inFlight.isSome = true → (s.cueFired e).smi.port.inFlight.isSome = true) := by
  have busy := Walks.busy.cueFired e s
  obtain ⟨w, inForce, none, history, fired⟩ := State.cueFired_walks e unowed
  obtain ⟨frame, walk, scan, -⟩ := State.reviewOffers_only (s.setWalker w)
  rw [fired] at busy ⊢
  generalize (s.setWalker w).reviewOffers = u at *
  refine ⟨frame, ?_, ?_, ?_, scan, busy⟩
  · rw [walk]
    exact inForce
  · rw [walk]
    exact none
  · rw [walk]
    exact history

/-- While an access is in flight, whatever the arbiter does leaves it so. -/
theorem Screens.busy : Screens fun s => s.smi.port.inFlight.isSome = true where
  journalAt t b s h := Walks.busy.journalAt t b s h
  setScreen _ _ _ _ h := h
  send _ _ _ _ h := h
  setArb _ _ _ h := h

theorem Titles.busy : Titles fun s => s.smi.port.inFlight.isSome = true where
  enqueue a s h := Walks.busy.enqueue a s h
  setDu _ _ _ h := h

/-- The registers, the scan and the outcomes stand, and an access in flight stays so. -/
def State.scansOn (s u : State) : Prop := s.smi.sameScan u.smi ∧
  (s.smi.port.inFlight.isSome = true → u.smi.port.inFlight.isSome = true)

theorem State.scansOn_refl (s : State) : s.scansOn s := ⟨Interface.sameScan_refl _, id⟩

theorem State.scansOn_trans {s u v : State} (h : s.scansOn u) (g : u.scansOn v) : s.scansOn v :=
  ⟨Interface.sameScan_trans h.1 g.1, fun busy => g.2 (h.2 busy)⟩

theorem State.journal_scansOn (b : Journal) (s : State) : s.scansOn (s.journal b) :=
  ⟨State.journal_sameScan b s, Walks.busy.journal b s⟩

theorem State.changeEngine_scansOn (e c sl l o) (s : State) : s.scansOn (s.changeEngine e c sl l o) :=
  ⟨State.changeEngine_sameScan e c sl l o s, Walks.busy.changeEngine e c sl l o s⟩

theorem State.trackerChanged_scansOn (o : TrackerState) (c : TrackCause) (s : State) : s.scansOn (s.trackerChanged o c) :=
  ⟨(State.trackerChanged_frame o c s).2, Walks.busy.trackerChanged o c s⟩

theorem State.reviewOffers_scansOn (s : State) : s.scansOn s.reviewOffers :=
  ⟨(State.reviewOffers_only s).2.2.1, Walks.busy.reviewOffers s⟩

theorem State.releaseKeys_scansOn (keys : List (Key × KeyResult)) (s : State) : s.scansOn (s.releaseKeys keys) :=
  ⟨(State.releaseKeys_only keys s).2, Titles.busy.releaseKeys keys s⟩

theorem State.placeRequest_scansOn (i : Screen16) (r : Request) (s : State) : s.scansOn (s.placeRequest i r) :=
  ⟨((Screens.only s).placeRequest i r s s.onlyScreens_refl).2.2.2.2, Screens.busy.placeRequest i r s⟩

theorem State.fired_scansOn (e : Armed) (s : State) : s.scansOn (s.fired e).1 := by
  refine foldl_keeps_fst (P := s.scansOn) (fun p i hp => ?_) allScreens (s, 0) s.scansOn_refl
  have placed (r : Request) : s.scansOn (p.1.placeRequest i r) :=
    State.scansOn_trans hp (State.placeRequest_scansOn i r p.1)
  unfold fireAt
  split
  · split
    · exact placed _
    · dsimp only
      split
      · exact hp
      · exact placed _
  · exact hp

theorem State.journalFire_scansOn (e : Armed) (screens : BitVec 16) (s : State) : s.scansOn (s.journalFire e screens) := by
  unfold State.journalFire
  dsimp only
  split
  · exact State.scansOn_trans (State.journal_scansOn _ s) (State.journal_scansOn _ _)
  · exact State.journal_scansOn _ s

theorem State.journalMissing_scansOn (e : Armed) (ms : List (Lang × Nat)) (s : State) :
    s.scansOn (s.journalMissing e ms) :=
  foldl_keeps (P := s.scansOn) (fun u _ h => State.scansOn_trans h (State.journal_scansOn _ u)) ms s s.scansOn_refl

theorem State.fireReported_scansOn (e : Armed) (s : State) : s.scansOn (s.fireReported e) := by
  refine State.scansOn_trans ?_ (State.releaseKeys_scansOn _ _)
  rw [State.remember_eq]
  exact State.scansOn_trans (State.scansOn_trans (State.fired_scansOn e s) (State.journalFire_scansOn e _ _))
    (State.journalMissing_scansOn e _ _)

/-- A fire in a show that has not ended, with no GO owed: the screens have its requests, the entry has left the list, and
the engine, the tracker and the section in force stand. -/
structure State.FiredQuietly (e : Armed) (s u : State) : Prop where
  frame : u = { (s.fired e).1 with
    wlk := u.wlk, du := (s.fireReported e).du, smi := u.smi, sch := s.sch.left e }
  inForce : u.wlk.inForce = s.wlk.inForce
  owedGo : u.wlk.owedGo = none
  history : u.wlk.history = (s.wlk.remembers e (s.fired e).2).history
  scans : s.scansOn u

theorem State.fireSettled_quietly {e : Armed} {s : State}
    (stays : s.wlk.inForce ≠ .endOfShow ∨ (s.sch.left e).armed ≠ []) (unowed : s.wlk.owedGo = none) : s.FiredQuietly e (s.fireSettled e) := by
  have reported := State.fireReported_frame e s
  obtain ⟨-, sch, -, -, -, wlk⟩ := State.fireReported_show e s
  have scans := State.fireReported_scansOn e s
  have history := Walker.remembers_frame e (s.fired e).2 s.wlk
  let v : State := { s.fireReported e with sch := s.sch.left e }
  have inForce : v.wlk.inForce = s.wlk.inForce := by
    show (s.fireReported e).wlk.inForce = _
    rw [wlk, history]
  have owedGo : v.wlk.owedGo = none := by
    show (s.fireReported e).wlk.owedGo = _
    rw [wlk, history]
    exact unowed
  have left : (s.fireReported e).leaveList e = v := by
    rw [State.leaveList_eq, sch]
    exact State.testEnd_stays (s := v) (by rw [inForce]; exact stays)
  have fired : s.fireSettled e = v.cueFired e := congrArg (State.cueFired e) left
  obtain ⟨frame, force, none, kept, scan, busy⟩ := State.cueFired_unowed (s := v) e owedGo
  have remembered : v.wlk.history = (s.wlk.remembers e (s.fired e).2).history := congrArg Walker.history wlk
  rw [fired]
  refine ⟨?_, force.trans inForce, none, kept.trans remembered, State.scansOn_trans scans ⟨scan, busy⟩⟩
  refine frame.trans ?_
  show { s.fireReported e with sch := s.sch.left e, wlk := (v.cueFired e).wlk, smi := (v.cueFired e).smi } = _
  generalize v.cueFired e = u at *
  generalize s.fireReported e = x at *
  rw [reported]

theorem State.FiredQuietly.show {e : Armed} {s u : State} (h : s.FiredQuietly e u) :
    u.trk = s.trk ∧ u.ctl = s.ctl ∧ u.desk = s.desk ∧ u.clock = s.clock ∧ u.sch = s.sch.left e := by
  obtain ⟨⟨trk, -, -, -, desk⟩, ctl, clock, -⟩ := State.fired_only e s
  rw [h.frame]
  exact ⟨trk, ctl, desk, clock, rfl⟩

/-- A complete DUE entry alone in the list fires in such a show: nothing is armed then, and the engine stands. -/
theorem State.fireAll_quietly {e : Armed} {s : State} (may : s.mayFire = true) (alone : s.sch.armed = [e])
    (due : e.timing = .due) (complete : e.isComplete = true) (shown : s.wlk.inForce ≠ .endOfShow)
    (unowed : s.wlk.owedGo = none) : s.fireAll.emptied (some { cue := e.cue, pass := e.pass, appear := e.appear.getD 0 })
      s.sch.freeze ∧ s.fireAll.ctl = s.ctl ∧ s.scansOn s.fireAll := by
  obtain ⟨fires, empty⟩ := State.fireAll_alone may alone due complete
  have quietly := State.fireSettled_quietly (e := e) (.inl shown) unowed
  obtain ⟨-, ctl, -⟩ := quietly.show
  have same : s.fireAll.ctl = (s.fireSettled e).ctl ∧ s.fireAll.smi = (s.fireSettled e).smi := by
    rw [fires, State.fireEntry_settled]
    exact ⟨rfl, rfl⟩
  refine ⟨empty, same.1.trans ctl, ?_⟩
  unfold State.scansOn
  rw [same.2]
  exact quietly.scans

/-! ### RESUME -/

/-- The tracker at RESUME (R50). -/
def Tracker.relocked (k : Tracker) : Tracker := { k with state := .locking, absorb := 0, bounces := 0, timeout := none }

/-- The show is RUNNING again, and nothing has fired yet (R173). -/
def State.resumeBegun (s : State) : State :=
  (if s.inBeatSection then s.lockForResume else s).changeEngine .running .resume s.progressSlot 0 0

theorem State.lockForResume_eq (s : State) :
    s.lockForResume = (s.setTracker s.trk.relocked).trackerChanged s.trk.state .directive := rfl

theorem State.resumeShow_eq (s : State) :
    s.resumeShow = ((s.resumeBegun.fireAll.resumeFollows).fireAll).completeOk := rfl

/-- RESUME reaches the engine state, the tracker, its view at the scheduler and the journal. -/
theorem State.resumeBegun_frame (s : State) : ∃ view, s.resumeBegun = { s with
    ctl := { s.ctl with engine := .running }, smi := s.resumeBegun.smi
    trk := if s.inBeatSection then s.trk.relocked else s.trk
    sch := { s.sch with view := view, armed := s.resumeBegun.sch.armed } } := by
  unfold State.resumeBegun
  rw [State.changeEngine_frame]
  split
  · rw [State.lockForResume_eq]
    rcases (State.trackerChanged_frame s.trk.state .directive (s.setTracker s.trk.relocked)).1 with same | gated
    · rw [same]
      exact ⟨s.sch.view, rfl⟩
    · rw [gated]
      exact ⟨_, rfl⟩
  · exact ⟨s.sch.view, rfl⟩

theorem State.resumeBegun_scansOn (s : State) : s.scansOn s.resumeBegun := by
  unfold State.resumeBegun
  split
  · exact State.scansOn_trans (State.trackerChanged_scansOn _ _ (s.setTracker s.trk.relocked))
      (State.changeEngine_scansOn _ _ _ _ _ _)
  · exact State.changeEngine_scansOn _ _ _ _ _ _

theorem gatePosition_untimed {e : Armed} (h : e.timing ≠ .timed) : gatePosition e = e := by
  unfold gatePosition
  exact if_neg (by simp [h])

/-- PAUSE has left no entry TIMED, so that RESUME gates none. -/
theorem State.resumeBegun_armed {s : State} (untimed : ∀ e ∈ s.sch.armed, e.timing ≠ .timed) :
    s.resumeBegun.sch.armed = s.sch.armed := by
  unfold State.resumeBegun
  rw [State.changeEngine_sch]
  split
  · obtain ⟨-, -, -, same | gated⟩ := State.trackerChanged_sch s.trk.state .directive (s.setTracker s.trk.relocked)
    · exact same
    · refine gated.trans ?_
      conv_rhs => rw [← List.map_id s.sch.armed]
      exact List.map_congr_left fun e there => gatePosition_untimed (untimed e there)
  · rfl

/-- A RESUME that ends in the state `v`, once what may fire has. -/
theorem State.resume_carriedOut {t : Time} {s v : State} {slot : Slot} {words : List Nat} (taken : s.taken slot 4 words)
    (paused : s.ctl.engine = .paused)
    (ends : ((((s.begin t).taking slot 4 words).resumeBegun.fireAll.resumeFollows).fireAll) = v)
    (ctl : v.ctl = { ((s.begin t).taking slot 4 words).ctl with engine := .running })
    (scans : ((s.begin t).taking slot 4 words).scansOn v) :
    ∃ u, exec (.resume t) s = .next u ∧ s.handedBack u slot .ok [] ∧ u.finished slot ∧
      u = { v with ctl := { v.ctl with progress := none }, smi := u.smi } := by
  have allowed : allowedIn 4 s.ctl.engine = true := by rw [paused]; rfl
  obtain ⟨f, busy⟩ := State.taken_busy taken
  have checked : ((s.begin t).taking slot 4 words).checked 4 noParameters (fun _ => State.resumeShow) words =
      v.complete .ok [] := by
    refine (State.checked_act (s := (s.begin t).taking slot 4 words) (a := ()) (fun _ => State.resumeShow) allowed rfl).trans ?_
    exact congrArg State.completeOk ends
  obtain ⟨handed, finished, frame, -, -⟩ := State.takeDirective_ended t taken (p := ⟨slot, 4, words, .none⟩) checked
    (by rw [ctl]; rfl) rfl (scans.2 (Option.isSome_iff_exists.2 ⟨f, busy⟩)) scans.1
  exact ⟨(s.begin t).takeDirective 4 noParameters fun _ => State.resumeShow, rfl, handed, finished, frame⟩

/-- The FOLLOW entry that PAUSE gated, taken up with the T it held (R96). -/
def Armed.resumed (now : Time) (e : Armed) : Armed :=
  if e.target.isNone && e.timing == .gated then { e with timing := timedOrDue now e.fire } else e

theorem State.resumeFollows_eq (s : State) : s.resumeFollows = s.setArmed (s.sch.armed.map (Armed.resumed s.clock)) := rfl

theorem Armed.resumed_eq (now : Time) (e : Armed) : e.resumed now = match e.target, e.timing, e.fire with
    | none, .gated, some T => { e with timing := if T ≤ now then .due else .timed }
    | _, _, _ => e := by
  unfold Armed.resumed
  cases target : e.target with
  | some p => rfl
  | none =>
    cases timing : e.timing <;> cases fire : e.fire
    case gated.none =>
      obtain ⟨cue, pass, sec, copy, percent, target', appear, fire', lead, timing', keys, unpinned⟩ := e
      simp only at target timing fire
      subst target timing fire
      rfl
    all_goals rfl

/-- RESUME with nothing that may fire before or after the FOLLOW entries are taken up. -/
theorem State.resume_unfired {t : Time} {s : State} {slot : Slot} {words : List Nat} (taken : s.taken slot 4 words)
    (paused : s.ctl.engine = .paused) (untimed : ∀ e ∈ s.sch.armed, e.timing ≠ .timed)
    (quiet : s.nothingFires) : ∃ u, exec (.resume t) s = .next u ∧ s.handedBack u slot .ok [] ∧ u.finished slot ∧
      u.ctl.engine = .running ∧ u.wlk = s.wlk ∧ u.du = s.du ∧ u.desk = s.desk ∧ u.arb = s.arb ∧ u.links = s.links ∧
      u.trk = (if s.inBeatSection then s.trk.relocked else s.trk) ∧
      u.sch.armed = s.sch.armed.map (Armed.resumed (max s.clock t)) := by
  obtain ⟨view, frame⟩ := State.resumeBegun_frame ((s.begin t).taking slot 4 words)
  have armed := State.resumeBegun_armed (s := (s.begin t).taking slot 4 words) untimed
  have scans := State.resumeBegun_scansOn ((s.begin t).taking slot 4 words)
  have ends := State.resumeFollows_eq ((s.begin t).taking slot 4 words).resumeBegun
  generalize begun : ((s.begin t).taking slot 4 words).resumeBegun = v at *
  have freeze : v.sch.freeze = s.sch.freeze := by rw [frame]; rfl
  have clock : v.clock = max s.clock t := by rw [frame]; rfl
  have same : v.sch.armed = s.sch.armed := armed
  have first : v.fireAll = v := State.fireAll_nothing (by
    rcases quiet with frozen | empty
    · exact .inl (freeze.trans frozen)
    · exact .inr (same.trans empty))
  have second : v.resumeFollows.fireAll = v.resumeFollows := State.fireAll_nothing (by
    rcases quiet with frozen | empty
    · exact .inl (freeze.trans frozen)
    · exact .inr (by rw [ends, same, empty]; rfl))
  obtain ⟨u, he, handed, finished, ended⟩ := State.resume_carriedOut (v := v.resumeFollows) taken paused
    (by rw [begun, first, second]) (by show v.ctl = _; rw [frame]) scans
  have list : v.resumeFollows.sch.armed = s.sch.armed.map (Armed.resumed (max s.clock t)) := by
    rw [ends, clock, same]
    rfl
  refine ⟨u, he, handed, finished, ?_⟩
  rw [ended]
  refine ⟨?_, ?_, ?_, ?_, ?_, ?_, ?_, list⟩
  · show v.ctl.engine = _
    rw [frame]
  all_goals
    rw [ends, frame]
    rfl

/-- RESUME with one entry that may fire, DUE before or once the FOLLOW entries are taken up. -/
theorem State.resume_fires {t : Time} {s : State} {slot : Slot} {words : List Nat} {e : Armed}
    (taken : s.taken slot 4 words) (paused : s.ctl.engine = .paused) (unfrozen : s.sch.freeze = false)
    (alone : s.sch.armed = [e]) (complete : ∀ p ∈ e.keys, p.2 ≠ .pending) (unowed : s.wlk.owedGo = none)
    (shown : s.wlk.inForce ≠ .endOfShow) (untimed : e.timing ≠ .timed) (due : (e.resumed (max s.clock t)).timing = .due) :
    ∃ u, exec (.resume t) s = .next u ∧ s.handedBack u slot .ok [] ∧ u.finished slot ∧ u.ctl.engine = .running ∧
      u.sch.armed = [] ∧ u.sch.fireRecord = some { cue := e.cue, pass := e.pass, appear := e.appear.getD 0 } := by
  obtain ⟨view, frame⟩ := State.resumeBegun_frame ((s.begin t).taking slot 4 words)
  have armed := State.resumeBegun_armed (s := (s.begin t).taking slot 4 words) (by
    intro x there
    have there : x ∈ s.sch.armed := there
    rw [alone, List.mem_singleton] at there
    rw [there]
    exact untimed)
  have scans := State.resumeBegun_scansOn ((s.begin t).taking slot 4 words)
  generalize begun : ((s.begin t).taking slot 4 words).resumeBegun = v at *
  have ctl : v.ctl = { ((s.begin t).taking slot 4 words).ctl with engine := .running } := by rw [frame]
  have wlk : v.wlk = s.wlk := by rw [frame]; rfl
  have clock : v.clock = max s.clock t := by rw [frame]; rfl
  have open_ : v.sch.freeze = false := by rw [frame]; exact unfrozen
  have alone : v.sch.armed = [e] := armed.trans alone
  have may : v.mayFire = true := (State.mayFire_iff v).mpr ⟨by rw [ctl], open_⟩
  have shown : v.wlk.inForce ≠ .endOfShow := by rw [wlk]; exact shown
  have unowed : v.wlk.owedGo = none := by rw [wlk]; exact unowed
  have whole : e.isComplete = true := e.isComplete_iff.mpr complete
  have empty : ∃ w, v.fireAll.resumeFollows.fireAll = w ∧
      w.emptied (some { cue := e.cue, pass := e.pass, appear := e.appear.getD 0 }) v.sch.freeze ∧ w.ctl = v.ctl ∧
      v.scansOn w := by
    by_cases now : e.timing = .due
    · obtain ⟨empty, ctl, scans⟩ := State.fireAll_quietly may alone now whole shown unowed
      have still : v.fireAll.resumeFollows.emptied _ _ := State.emptied_map empty (Armed.resumed v.fireAll.clock)
      exact ⟨_, State.fireAll_nothing (.inr still.1), still, ctl, scans⟩
    · have waits : v.fireAll = v := State.fireAll_none fun _ => by
        rw [alone]
        exact (if_neg now : State.firstFirable v [e] = _).trans rfl
      have follows : v.resumeFollows.sch.armed = [e.resumed (max s.clock t)] := by
        rw [State.resumeFollows_eq, clock]
        show v.sch.armed.map _ = _
        rw [alone]
        rfl
      have same : e.resumed (max s.clock t) = { e with timing := (e.resumed (max s.clock t)).timing } := by
        unfold Armed.resumed
        split <;> rfl
      have keys : (e.resumed (max s.clock t)).isComplete = true := by
        rw [same]
        exact whole
      obtain ⟨empty, ctl, scans⟩ := State.fireAll_quietly (s := v.resumeFollows) may follows due keys shown unowed
      rw [same] at empty
      rw [waits]
      exact ⟨_, rfl, empty, ctl, scans⟩
  obtain ⟨w, ends, ⟨none, record, -⟩, same, after⟩ := empty
  obtain ⟨u, he, handed, finished, ended⟩ := State.resume_carriedOut (v := w) taken paused (by rw [begun, ends])
    (same.trans ctl) (State.scansOn_trans scans after)
  refine ⟨u, he, handed, finished, ?_, ?_, ?_⟩
  · rw [ended, same, ctl]
  · rw [ended]
    exact none
  · rw [ended]
    exact record

/-- Settles O22: the engine is RUNNING, the tracker locks again, and what may fire fires. -/
theorem resumeCarriedOut : Obligations.ResumeCarriedOut := by
  refine ⟨?unarmed, ?frozen, ?fires⟩
  case unarmed =>
    intro t s slot words taken paused unarmed
    obtain ⟨u, he, handed, finished, running, wlk, du, desk, arb, links, trk, armed⟩ :=
      State.resume_unfired (t := t) taken paused (by simp [unarmed]) (.inr unarmed)
    refine ⟨u, he, handed, finished, running, wlk, du, desk, arb, links, by rw [armed, unarmed]; rfl, fun beat => ?_,
      fun elsewhere => ?_⟩
    · rw [trk, if_pos beat]
      rfl
    · rw [trk, if_neg (by simp [elsewhere])]
  case frozen =>
    intro t s slot words taken paused frozen untimed
    obtain ⟨u, he, handed, finished, running, wlk, du, -, arb, links, -, armed⟩ :=
      State.resume_unfired (t := t) taken paused untimed (.inl frozen)
    exact ⟨u, he, handed, finished, running, wlk, du, arb, links,
      armed.trans (List.map_congr_left fun e _ => e.resumed_eq (max s.clock t))⟩
  case fires =>
    intro t s slot words e taken paused unfrozen alone complete unowed shown which
    refine State.resume_fires taken paused unfrozen alone complete unowed shown ?_ ?_
    · rcases which with due | ⟨gated, -⟩
      · rw [due]
        exact nofun
      · rw [gated]
        exact nofun
    · rw [Armed.resumed_eq]
      rcases which with due | ⟨gated, untargeted, T, fire, come⟩
      · rw [due]
        split
        · next gated _ => cases gated
        · exact due
      · rw [gated, untargeted, fire]
        exact if_pos come

end Sys2Proof.Machine
end

section
/-! AMEND CUE (R97, R177). -/

namespace Sys2Proof.Machine

/-! ### The read -/

theorem State.beginAmend_eq {s : State} {sc : Script} (c : Nat) (script : s.wlk.script = some sc) :
    s.beginAmend c = (s.setWork (.amend c)).enqueue (.read .amend (sc.cueTable + 32 * c) 32 .urgent
      { FaultDetail.none with table := 4, index := c }) := by
  unfold State.beginAmend
  rw [script]
  rfl

/-- The record of the cue is read (R177). -/
theorem amendCue_reads {t : Time} {s : State} {slot : Slot} {words : List Nat} {sc : Script}
    (taken : s.taken slot 14 words) (started : s.ctl.engine ≠ .idle) (loaded : s.ctl.engine ≠ .loading)
    (script : s.wlk.script = some sc) (known : word words 0 < sc.cueCount) :
    ∃ u, exec (.amendCue t) s = .next u ∧ s.sameBlocks u ∧ u.smi.rotation = slot ∧
      u.ctl = { s.ctl with progress := some ⟨slot, 14, words, .amend (word words 0)⟩ } ∧
      u.smi.outcomes = s.smi.outcomes ∧
      u.smi.port.holds (.read .amend (sc.cueTable + 32 * word words 0) 32 .urgent
        { FaultDetail.none with table := 4, index := word words 0 }) := by
  have allowed : allowedIn 14 s.ctl.engine = true := by
    cases engine : s.ctl.engine with
    | idle => exact absurd engine started
    | loading => exact absurd engine loaded
    | _ => rfl
  obtain ⟨f, busy⟩ := State.taken_busy taken
  have read : readCueIndex words ((s.begin t).taking slot 14 words) = some (word words 0) := by
    refine if_pos ?_
    show word words 0 < (s.wlk.script.map (·.cueCount)).getD 0
    rw [script]
    exact known
  have step : (s.begin t).takeDirective 14 readCueIndex State.beginAmend =
      (((((s.begin t).taking slot 14 words)).setWork (.amend (word words 0))).enqueue
        (.read .amend (sc.cueTable + 32 * word words 0) 32 .urgent
          { FaultDetail.none with table := 4, index := word words 0 })).freePort := by
    rw [State.takeDirective_eq t _ _ taken,
      State.checked_act (s := (s.begin t).taking slot 14 words) State.beginAmend allowed read,
      State.beginAmend_eq (s := (s.begin t).taking slot 14 words) _ script, State.startOwedScan_progress (by rfl)]
  refine ⟨_, congrArg Host.Outcome.next step, ⟨⟨rfl, rfl, rfl, rfl, rfl⟩, rfl, rfl⟩, rfl, rfl, rfl, ?_⟩
  exact State.enqueue_freePort_holds
    (s := ((s.begin t).taking slot 14 words).setWork (.amend (word words 0))) _ (by exact busy)

/-! ### The copy amended -/

/-- A copy with the number and the presentation of a record whose title, mask and scope it has already (R97). -/
def Cue.retold (new copy : Cue) : Cue :=
  { copy with number := new.number, speaker := new.speaker, dwellOverride := new.dwellOverride, override := new.override }

theorem Cue.present_eq {copy new : Cue} (title : copy.title = new.title) (langs : copy.langs = new.langs)
    (scope : copy.scope = new.scope) : copy.present new = new.retold copy := by
  unfold Cue.present Cue.retold
  rw [title, langs, scope]

/-- An entry whose keys and screens stay takes the amended copy, and nothing else changes (R97). -/
theorem State.amendEntry_eq {s : State} {new : Cue} {e : Armed} (title : e.copy.title = new.title)
    (langs : e.copy.langs = new.langs) (scope : e.copy.scope = new.scope) :
    s.amendEntry new e = s.updateArmed e.cue e.pass fun x => { x with copy := new.retold e.copy } := by
  unfold State.amendEntry
  rw [Cue.present_eq title langs scope]
  exact if_pos ⟨rfl, rfl, rfl⟩

/-- A cue armed once: its entry alone takes what is given to it. -/
theorem armedOnce_map {es : List Armed} {c : Nat} {e : Armed} (once : (es.filter fun x => x.cue == c) = [e])
    (f : Armed → Armed) (g : Armed → Armed) (same : f e = g e) :
    (es.map fun x => if x.isOf e.cue e.pass then f x else x) = es.map fun x => if x.cue = c then g x else x := by
  have mine : e.cue = c := by
    have there : e ∈ es.filter fun x => x.cue == c := by rw [once]; exact List.mem_singleton_self e
    simpa using (List.mem_filter.mp there).2
  refine List.map_congr_left fun x there => ?_
  by_cases named : x.cue = c
  · have alone : x = e := by
      have kept : x ∈ es.filter fun x => x.cue == c := List.mem_filter.mpr ⟨there, by simpa using named⟩
      rw [once] at kept
      exact List.mem_singleton.mp kept
    rw [alone, if_pos (by simp [Armed.isOf]), if_pos mine]
    exact same
  · rw [if_neg (by simp [Armed.isOf, mine, named]), if_neg named]

/-- Settles O32: the record is read, a fault in it refuses the directive, and a record that passes amends the copy. -/
theorem amendCarriedOut : Obligations.AmendCarriedOut := by
  refine ⟨fun t s slot words sc taken started loaded script known => amendCue_reads taken started loaded script known,
    ?refused, ?amended⟩
  case refused =>
    intro t d s p c sc f h progress work script fault
    obtain ⟨g, busy, -, -⟩ := State.answering_busy h
    have he := execAmendReadComplete_answered t d h (State.amendWork_eq progress work)
    rw [State.amendRead_refused (s := s.begin t) script fault] at he
    obtain ⟨handed, ended, -⟩ := State.complete_answered .refusedParameter [0, 0, f.code] (v := s.begin t) (p := p)
      progress busy
    refine ⟨_, he, ?_, ?_, handed⟩
    · rw [ended]
      exact ⟨⟨rfl, rfl, rfl, rfl, rfl⟩, rfl, rfl⟩
    · rw [ended]
      rfl
  case amended =>
    intro t d s p c sc e h progress work script passes still once title langs scope
    obtain ⟨g, busy, -, -⟩ := State.answering_busy h
    have he := execAmendReadComplete_answered t d h (State.amendWork_eq progress work)
    let v := (s.begin t).updateArmed e.cue e.pass fun x => { x with copy := (parseCue d).retold e.copy }
    have amended : (s.begin t).amendRead c d = v.complete
        (if timingDiffers e.copy d = 0 then .ok else .partialDone) [timingDiffers e.copy d] := by
      unfold State.amendRead
      rw [show (s.begin t).wlk.script = some sc from script]
      dsimp only
      rw [passes]
      dsimp only
      rw [show (s.begin t).sch.armed.filter (fun x => x.cue == c) = [e] from once]
      simp only [List.foldl_cons, List.foldl_nil, Nat.zero_or]
      rw [State.amendEntry_eq title langs scope, State.fireAll_idle (by exact still)]
    rw [amended] at he
    obtain ⟨handed, ended, -⟩ := State.complete_answered
      (if timingDiffers e.copy d = 0 then .ok else .partialDone) [timingDiffers e.copy d] (v := v) (p := p) progress busy
    have list := armedOnce_map once (fun x => { x with copy := (parseCue d).retold e.copy })
      (fun x => { x with copy := (parseCue d).retold x.copy }) rfl
    generalize (v.complete (if timingDiffers e.copy d = 0 then .ok else .partialDone) [timingDiffers e.copy d]).freePort = u
      at *
    refine ⟨u, he, ?_⟩
    rw [ended]
    refine ⟨rfl, rfl, rfl, rfl, rfl, rfl, rfl, ?_, handed⟩
    exact congrArg (fun es => { s.sch with armed := es }) list

end Sys2Proof.Machine
end

section
/-! The checks of a script (R17 to R22), said from the bytes of the records. -/

namespace Sys2Proof.Machine

/-! ### Header, sections, bars -/

theorem signatureOk_iff (d : List Byte) :
    signatureOk d = true ↔ u8 d 0 = 87 ∧ u8 d 1 = 52 ∧ u8 d 2 = 49 ∧ u8 d 3 = 54 := by
  simp [signatureOk, and_assoc]

section Failing

variable {a b c : Bool} {code : FaultCode} {rest : List (Bool × FaultCode)} {r : Option FaultCode} {P : Prop} [Decidable P]

/-- A check fails first, or those after it decide. -/
theorem firstFailing_one (h : a = true ↔ ¬P) (hr : firstFailing rest = r) :
    firstFailing ((a, code) :: rest) = if P then some code else r := by
  subst hr
  show (if a then firstFailing rest else some code) = _
  by_cases fails : P <;> simp [fails, h]

/-- Two checks that give the same fault are one. -/
theorem firstFailing_two (h : a = true ∧ b = true ↔ ¬P) (hr : firstFailing rest = r) :
    firstFailing ((a, code) :: (b, code) :: rest) = if P then some code else r := by
  have both : firstFailing ((a, code) :: (b, code) :: rest) = firstFailing ((a && b, code) :: rest) := by
    cases a <;> rfl
  rw [both]
  exact firstFailing_one (by rw [Bool.and_eq_true]; exact h) hr

/-- Three checks that give the same fault are one. -/
theorem firstFailing_three (h : a = true ∧ b = true ∧ c = true ↔ ¬P) (hr : firstFailing rest = r) :
    firstFailing ((a, code) :: (b, code) :: (c, code) :: rest) = if P then some code else r := by
  have both : firstFailing ((a, code) :: (b, code) :: (c, code) :: rest) =
      firstFailing ((a, code) :: (b && c, code) :: rest) := by
    cases b <;> rfl
  rw [both]
  exact firstFailing_two (by rw [Bool.and_eq_true]; exact h) hr

end Failing

theorem checkHeader_checks : headerChecked := by
  intro d
  unfold checkHeader parseHeader
  simp only [firstFailing, decide_eq_true_eq, signatureOk_iff]
  split_ifs <;> first | rfl | omega

theorem checkSection_checks : sectionChecked := by
  intro lower d
  have called : (parseSection d).mode = .called ↔ u8 d 14 ≠ 0 := by
    show (if u8 d 14 = 0 then Mode.beat else Mode.called) = Mode.called ↔ u8 d 14 ≠ 0
    split <;> simp [*]
  by_cases known : u8 d 14 ≤ 1
  · have called : (parseSection d).mode = .called ↔ u8 d 14 = 1 := called.trans (by omega)
    refine firstFailing_three ?_ (firstFailing_two ?_ (firstFailing_one ?_ (firstFailing_one ?_ (firstFailing_one ?_ rfl))))
    · rw [decide_eq_true_eq, decide_eq_true_eq, decide_eq_true_eq, not_not, and_assoc]
      rfl
    · rw [decide_eq_true_eq, decide_eq_true_eq, not_not]
      rfl
    · have vamp : (parseSection d).vamp = decide (128 ≤ u8 d 15) := rfl
      rw [vamp]
      simp [called, imp_iff_not_or]
    · simp only [Bool.or_eq_true, decide_eq_true_eq, called, not_not]
      rfl
    · rw [decide_eq_true_eq, not_not]
      rfl
  · rw [if_pos fun fits => known fits.1]
    exact (firstFailing_one (P := True) (by simp [known]) rfl).trans (if_pos trivial)

theorem checkBar_checks : barChecked := by
  intro d
  unfold checkBar
  simp only [firstFailing, decide_eq_true_eq]
  split_ifs <;> first | rfl | omega

/-! ### Cues -/

/-- The bar of a position stands in its section, and the beat in the bar (R21). -/
theorem barOf_any (bars : List Bar) (x : Section) (n : Nat) (p : Bar → Bool) :
    (barOf bars x n).isSome = true ∧ (barOf bars x n).any p = true ↔
      1 ≤ n ∧ n ≤ x.barCount ∧ bars[x.firstBar + (n - 1)]?.any p = true := by
  unfold barOf
  split
  · next range =>
    cases bars[x.firstBar + (n - 1)]? <;> simp [range]
  · next range =>
    constructor
    · rintro ⟨some_, -⟩
      cases some_
    · rintro ⟨low, high, -⟩
      exact absurd ⟨low, high⟩ range

theorem checkCue_checks : cueChecked := by
  intro secs bars speakers cue d x owner
  unfold checkCue
  rw [owner]
  dsimp only [Option.bind_some, Option.any_some]
  have position := barOf_any bars x (u16 d 12) fun b => decide (1 ≤ u8 d 14 ∧ u8 d 14 ≤ b.beats)
  have last : firstFailing [] = none := rfl
  refine firstFailing_two ?_ (firstFailing_one ?_ (firstFailing_one ?_ (firstFailing_three ?_ (firstFailing_one ?_
    (firstFailing_two ?_ (firstFailing_one ?_ (firstFailing_one ?_ (firstFailing_one ?_ (firstFailing_one ?_ last)))))))))
  · simp
  · cases x.mode <;> simp
  · simp [imp_iff_not_or]
  · simp [and_assoc]
  · simp [imp_iff_not_or]
  · rw [Bool.or_eq_true, Bool.or_eq_true, ← or_and_left, position]
    simp [imp_iff_not_or, Nat.one_le_iff_ne_zero]
  all_goals simp [imp_iff_not_or]

theorem positionBefore_iff (a b : Nat × Nat × Nat) : positionBefore a b = true ↔
    a.1 < b.1 ∨ (a.1 = b.1 ∧ (a.2.1 < b.2.1 ∨ (a.2.1 = b.2.1 ∧ a.2.2 < b.2.2))) := by
  simp only [positionBefore, Bool.or_eq_true, Bool.and_eq_true, decide_eq_true_eq]

theorem orderOk_checks : orderChecked := by
  intro w first bar beat tick
  unfold LoadWork.orderOk
  cases last : w.lastPosition with
  | none => simp
  | some q =>
    obtain ⟨f, bar', beat', tick'⟩ := q
    simp only [Bool.not_eq_false', Bool.and_eq_true, beq_iff_eq, positionBefore_iff]
    constructor
    · rintro ⟨rfl, early⟩
      exact ⟨bar', beat', tick', rfl, early⟩
    · rintro ⟨bar'', beat'', tick'', same, early⟩
      obtain ⟨rfl, rfl, rfl, rfl⟩ : f = first ∧ bar' = bar'' ∧ beat' = beat'' ∧ tick' = tick'' := by simpa using same
      exact ⟨rfl, early⟩

/-! ### Regions -/

theorem Region.fits_iff (r : Region) :
    (decide (0 < r.length) && !regionFits r.start r.length r.align) = false ↔ r.fits := by
  unfold Region.fits
  rw [← regionFits_iff, ← Nat.le_zero, ← Nat.not_lt]
  by_cases empty : 0 < r.length <;> simp [empty]

theorem shares_iff (r q : Region) : shares r.start r.length q.start q.length = true ↔ r.meets q := by
  unfold shares Region.meets
  simp only [Bool.and_eq_true, decide_eq_true_eq]
  constructor
  · rintro ⟨⟨⟨first, second⟩, before⟩, after⟩
    exact ⟨max r.start q.start, by omega⟩
  · rintro ⟨a, h⟩
    omega

/-- The region meets the control block or one of those above it (R18). -/
def Region.clashes (base : Nat) (above : List Region) (r : Region) : Prop :=
  r.meets ⟨base, 16384, 4, .header⟩ ∨ ∃ q ∈ above, r.meets q

theorem overlapFault_cons (base : Nat) (above : List Region) (r : Region) (rest : List Region) :
    (r.clashes base above → overlapFault base above (r :: rest) = some r.table) ∧
    (¬r.clashes base above → overlapFault base above (r :: rest) = overlapFault base (above ++ [r]) rest) := by
  have found : (shares r.start r.length base Config.controlBlock ||
      above.any (fun q => shares r.start r.length q.start q.length)) = true ↔ r.clashes base above := by
    rw [Bool.or_eq_true, List.any_eq_true]
    exact or_congr (shares_iff r ⟨base, 16384, 4, .header⟩) (exists_congr fun q => and_congr_right fun _ => shares_iff r q)
  exact ⟨fun clash => if_pos (found.mpr clash), fun clear => if_neg fun hit => clear (found.mp hit)⟩

/-- The regions keep clear of the control block, of those above, and of each other. -/
def regionsClear (base : Nat) (above rs : List Region) : Prop :=
  (∀ q ∈ rs, ¬q.meets ⟨base, 16384, 4, .header⟩) ∧ (∀ q ∈ rs, ∀ a ∈ above, ¬q.meets a) ∧
    rs.Pairwise fun q p => ¬p.meets q

theorem regionsClear_cons {base : Nat} {above rs : List Region} {r : Region} (clear : ¬r.clashes base above)
    (rest : regionsClear base (above ++ [r]) rs) : regionsClear base above (r :: rs) := by
  obtain ⟨block, others, each⟩ := rest
  obtain ⟨free, apart⟩ := not_or.mp clear
  refine ⟨?_, ?_, List.pairwise_cons.mpr ⟨fun p there => others p there r (by simp), each⟩⟩
  · simpa using ⟨free, block⟩
  · intro q there a before
    rcases List.mem_cons.mp there with rfl | there
    · exact fun meets => apart ⟨a, before, meets⟩
    · exact others q there a (List.mem_append_left _ before)

theorem overlapFault_none {base : Nat} {above rs : List Region} (h : overlapFault base above rs = none) :
    regionsClear base above rs := by
  induction rs generalizing above with
  | nil => exact ⟨by simp, by simp, List.Pairwise.nil⟩
  | cons r rest ih =>
    obtain ⟨hit, miss⟩ := overlapFault_cons base above r rest
    by_cases clash : r.clashes base above
    · rw [hit clash] at h
      cases h
    · rw [miss clash] at h
      exact regionsClear_cons clash (ih h)

theorem overlapFault_some {base : Nat} {above rs : List Region} {n : TableName}
    (h : overlapFault base above rs = some n) : ∃ before r after, rs = before ++ r :: after ∧ r.table = n ∧
      r.clashes base (above ++ before) ∧ regionsClear base above before := by
  induction rs generalizing above with
  | nil => cases h
  | cons r rest ih =>
    obtain ⟨hit, miss⟩ := overlapFault_cons base above r rest
    by_cases clash : r.clashes base above
    · rw [hit clash] at h
      exact ⟨[], r, rest, rfl, Option.some.inj h, by simpa using clash, by simp, by simp, List.Pairwise.nil⟩
    · rw [miss clash] at h
      obtain ⟨before, q, after, rfl, table, clashes, clear⟩ := ih h
      exact ⟨r :: before, q, after, rfl, table, by simpa using clashes, regionsClear_cons clash clear⟩

theorem extentFault_none {rs : List Region} : extentFault rs = none ↔ ∀ q ∈ rs.tail, q.fits := by
  unfold extentFault
  rw [Option.map_eq_none_iff, List.find?_eq_none]
  refine forall₂_congr fun q _ => ?_
  rw [← Region.fits_iff, Bool.not_eq_true]

theorem extentFault_some {rs : List Region} {n : TableName} (h : extentFault rs = some n) :
    ∃ before r after, rs.tail = before ++ r :: after ∧ r.table = n ∧ ¬r.fits ∧ ∀ q ∈ before, q.fits := by
  unfold extentFault at h
  obtain ⟨r, found, table⟩ := Option.map_eq_some_iff.mp h
  obtain ⟨unfit, before, after, split, fits⟩ := List.find?_eq_some_iff_append.mp found
  refine ⟨before, r, after, split, table, ?_, fun q there => ?_⟩
  · rw [← Region.fits_iff, unfit]
    simp
  · rw [← Region.fits_iff, ← Bool.not_eq_true']
    exact fits q there

theorem checkRegions_checks : regionsChecked := by
  intro base address h
  refine ⟨rfl, fun n c fault => ?_, fun sound => ?_⟩
  · unfold checkRegions at fault
    dsimp only at fault
    split at fault
    · next t extent =>
      obtain ⟨rfl, rfl⟩ : t = n ∧ FaultCode.extent = c := by simpa using fault
      exact .inl ⟨rfl, extentFault_some extent⟩
    · next extent =>
      obtain ⟨t, overlap, same⟩ := Option.map_eq_some_iff.mp fault
      obtain ⟨rfl, rfl⟩ : t = n ∧ FaultCode.overlap = c := by simpa using same
      obtain ⟨before, r, after, split, table, clashes, block, -, each⟩ := overlapFault_some overlap
      exact .inr ⟨rfl, extentFault_none.mp extent, before, r, after, split, table, clashes, block, each⟩
  · unfold checkRegions at sound
    dsimp only at sound
    split at sound
    · cases sound
    · next extent =>
      obtain ⟨block, -, each⟩ := overlapFault_none (Option.map_eq_none_iff.mp sound)
      exact ⟨extentFault_none.mp extent, block, each⟩

/-! ### Records in turn -/

section Records

variable {base n i : Nat} {d : List Byte} {w : LoadWork}

theorem takeRecords_header (table : w.table = .header) : w.takeRecords base 1 i d = w.takeHeader base d := by
  rw [LoadWork.takeRecords, table]
  dsimp only
  cases w.takeHeader base d <;> rfl

theorem takeRecords_sec (table : w.table = .sec) : w.takeRecords base (n + 1) i d =
    (w.takeSection (d.take 16)).bind (LoadWork.takeRecords base n (i + 1) (d.drop 16)) := by
  have size : w.recordSize = 16 := by unfold LoadWork.recordSize; rw [table]
  rw [LoadWork.takeRecords, table, size]
  dsimp only
  cases w.takeSection (d.take 16) <;> rfl

theorem takeRecords_bar (table : w.table = .bar) : w.takeRecords base (n + 1) i d =
    (w.takeBar (d.take 4)).bind (LoadWork.takeRecords base n (i + 1) (d.drop 4)) := by
  have size : w.recordSize = 4 := by unfold LoadWork.recordSize; rw [table]
  rw [LoadWork.takeRecords, table, size]
  dsimp only
  cases w.takeBar (d.take 4) <;> rfl

theorem takeRecords_speaker (table : w.table = .speaker) : w.takeRecords base (n + 1) i d =
    (w.takeSpeaker (d.take 1)).bind (LoadWork.takeRecords base n (i + 1) (d.drop 1)) := by
  have size : w.recordSize = 1 := by unfold LoadWork.recordSize; rw [table]
  rw [LoadWork.takeRecords, table, size]
  dsimp only
  cases w.takeSpeaker (d.take 1) <;> rfl

theorem takeRecords_cue (table : w.table = .cue) : w.takeRecords base (n + 1) i d =
    (w.takeCue i (d.take 32)).bind (LoadWork.takeRecords base n (i + 1) (d.drop 32)) := by
  have size : w.recordSize = 32 := by unfold LoadWork.recordSize; rw [table]
  rw [LoadWork.takeRecords, table, size]
  dsimp only
  cases w.takeCue i (d.take 32) <;> rfl

end Records

theorem coverageOk_iff (h : Header) (secs : List Section) : (!coverageOk h secs) = true ↔
    ¬((secs.map (·.barCount)).sum = h.barCount ∧ (secs.map (·.cueCount)).sum = h.cueCount) := by
  rw [Bool.not_eq_true', ← Bool.not_eq_true, coverageOk, Bool.and_eq_true, decide_eq_true_eq, decide_eq_true_eq]
  rfl

theorem takeRecords_takes : recordsTakenInTurn := by
  intro base n i d w
  refine ⟨rfl, fun table => ?_, fun table => ?_, fun table => ?_, fun table => ?_⟩
  · rw [takeRecords_sec table]
    unfold LoadWork.takeSection
    dsimp only
    cases checkSection w.sections (d.take 16) with
    | some c => rfl
    | none =>
      simp only [coverageOk_iff]
      split <;> rfl
  · rw [takeRecords_bar table]
    unfold LoadWork.takeBar
    cases checkBar (d.take 4) <;> rfl
  · rw [takeRecords_speaker table]
    have check : checkSpeaker (u8 (d.take 1) 0) = if 24 < u8 (d.take 1) 0 then some .range else none :=
      firstFailing_one (by simp) rfl
    unfold LoadWork.takeSpeaker
    rw [check]
    by_cases loud : 24 < u8 (d.take 1) 0
    · rw [if_pos loud, if_pos loud]
      rfl
    · rw [if_neg loud, if_neg loud]
      rfl
  · rw [takeRecords_cue table]
    unfold LoadWork.takeCue
    cases checkCue w.sections w.bars w.header.speakerCount i (d.take 32) with
    | some c => rfl
    | none =>
      cases parseAnchor (d.take 32) with
      | position bar beat tick =>
        dsimp only
        split <;> rfl
      | _ => rfl

end Sys2Proof.Machine
end

section
/-! The reads of a LOAD (R16, R23, R168). -/

namespace Sys2Proof.Machine

/-! ### The next access, and the end -/

theorem execLoadReadComplete_answered (t : Time) (d : List Byte) {s : State} {p : Progress} {w : LoadWork}
    (h : s.answering .load) (progress : s.ctl.progress = some p) (work : p.work = .load w) :
    exec (.loadReadComplete t d) s = .next ((s.begin t).loadRead w d).freePort := by
  have held : (s.begin t).loadWork = some w := by
    unfold State.loadWork
    rw [show (s.begin t).ctl.progress = some p from progress]
    dsimp only
    rw [work]
  have answered := State.answer_eq (f := fun
    | .load => some fun s => match s.loadWork with
      | some w => s.loadRead w d
      | none => s
    | _ => none) (State.answering_begin t h) rfl
  rw [held] at answered
  exact congrArg Host.Outcome.next answered

/-- The script of a LOAD that has passed every check (R14). -/
def LoadWork.script (w : LoadWork) : Script :=
  { sectionCount := w.header.sectionCount, barCount := w.header.barCount, cueCount := w.header.cueCount
    speakerCount := w.header.speakerCount, cueTable := w.header.cueTable, sections := w.sections, bars := w.bars
    speakers := w.speakers }

/-- The blocks hold the script (R2, R14, R111). -/
def State.scriptHeld (w : LoadWork) (s : State) : State :=
  { s with
    wlk := { s.wlk with script := some w.script }
    du := { s.du with table := some (w.header.titleTable, w.header.exponent) }
    arb := { s.arb with dwellBase := w.header.dwellBase, dwellPerChar := w.header.dwellPerChar } }

theorem State.finishLoad_eq (w : LoadWork) (s : State) : s.finishLoad w =
    ((s.scriptHeld w).changeEngine .loaded .loadEnd s.progressSlot 0 OutcomeCode.ok.code).complete .ok
      [w.header.sectionCount, w.header.barCount, w.header.cueCount, w.header.speakerCount] := rfl

section Reads

variable {s : State} {p : Progress} {f : InFlight} {w : LoadWork} (progress : s.ctl.progress = some p)
  (busy : s.smi.port.inFlight = some f)
include progress busy

/-- The next access of a LOAD is queued behind the one that is answered. -/
theorem State.queueLoad_queued : s.sameBlocks (s.queueLoad w).freePort ∧
    (s.queueLoad w).freePort.smi.outcomes = s.smi.outcomes ∧
    (s.queueLoad w).freePort.ctl = { s.ctl with progress := some { p with work := .load w } } ∧
    (s.queueLoad w).freePort.smi.port.holds (.read .load (w.start + w.next) (min 32 (w.length - w.next))
      .background { FaultDetail.none with table := w.table.code, index := w.next / w.recordSize }) := by
  refine ⟨⟨⟨rfl, rfl, rfl, rfl, rfl⟩, rfl, rfl⟩, rfl, ?_, ?_⟩
  · exact congrArg (fun q => { s.ctl with progress := Option.map (fun p : Progress => { p with work := Work.load w }) q }) progress
  · exact State.enqueue_freePort_holds (s := s.setWork (.load w)) _ busy

/-- A script that passed every check is held, and the LOAD ends with OK (R14, R168). -/
theorem State.finishLoad_ended :
    (s.finishLoad w).freePort.ctl = { s.ctl with engine := .loaded, progress := none } ∧
    s.handedBack (s.finishLoad w).freePort p.slot .ok
      [w.header.sectionCount, w.header.barCount, w.header.cueCount, w.header.speakerCount] ∧
    (∃ sc, (s.finishLoad w).freePort.wlk = { s.wlk with script := some sc } ∧ sc.sections = w.sections ∧
      sc.bars = w.bars ∧ sc.speakers = w.speakers ∧ sc.cueCount = w.header.cueCount ∧
      sc.cueTable = w.header.cueTable) ∧
    (s.finishLoad w).freePort.du = { s.du with table := some (w.header.titleTable, w.header.exponent) } ∧
    (s.finishLoad w).freePort.arb =
      { s.arb with dwellBase := w.header.dwellBase, dwellPerChar := w.header.dwellPerChar } ∧
    (s.finishLoad w).freePort.trk = s.trk ∧ (s.finishLoad w).freePort.sch = s.sch ∧
    (s.finishLoad w).freePort.desk = s.desk ∧ (s.finishLoad w).freePort.links = s.links := by
  rw [State.finishLoad_eq]
  have scan := State.changeEngine_sameScan .loaded .loadEnd s.progressSlot 0 OutcomeCode.ok.code (s.scriptHeld w)
  have frame := State.changeEngine_frame .loaded .loadEnd s.progressSlot 0 OutcomeCode.ok.code (s.scriptHeld w)
  obtain ⟨handed, ended, -⟩ := State.complete_answered .ok
    [w.header.sectionCount, w.header.barCount, w.header.cueCount, w.header.speakerCount]
    (v := (s.scriptHeld w).changeEngine .loaded .loadEnd s.progressSlot 0 OutcomeCode.ok.code) (p := p)
    (by rw [State.changeEngine_ctl]; exact progress) ((Ends.inFlight f).changeEngine _ _ _ _ _ _ busy)
  have back := State.handedBack_of (s := s) scan.2.2.2.1 scan.1 handed
  generalize (((s.scriptHeld w).changeEngine .loaded .loadEnd s.progressSlot 0 OutcomeCode.ok.code).complete .ok
    [w.header.sectionCount, w.header.barCount, w.header.cueCount, w.header.speakerCount]).freePort = u at *
  refine ⟨?_, back, ⟨w.script, ?_, rfl, rfl, rfl, rfl, rfl⟩, ?_⟩
  · rw [ended, frame]
    rfl
  · rw [ended, frame]
    rfl
  · rw [ended, frame]
    exact ⟨rfl, rfl, rfl, rfl, rfl, rfl⟩

end Reads

theorem State.continueLoad_more {s : State} {w : LoadWork} (more : w.next < w.length) :
    s.continueLoad w = s.queueLoad w := if_pos more

theorem State.continueLoad_table {s : State} {w : LoadWork} {n : TableName} (done : w.length ≤ w.next)
    (next : w.nextTable = some n) : s.continueLoad w = s.queueLoad { w with table := n, next := 0, buffer := [] } := by
  unfold State.continueLoad
  rw [if_neg (Nat.not_lt.mpr done), next]

theorem State.continueLoad_end {s : State} {w : LoadWork} (done : w.length ≤ w.next) (last : w.nextTable = none) :
    s.continueLoad w = s.finishLoad w := by
  unfold State.continueLoad
  rw [if_neg (Nat.not_lt.mpr done), last]

/-! ### Records taken -/

/-- The records of an access have been taken: a fault ends the LOAD, and else it goes on from the byte given. -/
def State.recordsTaken (next : Nat) (s : State) : Except LoadFault LoadWork → State
  | .error f => s.failLoad .scriptRejected f.table f.index f.code.code
  | .ok v => s.continueLoad { v with next := next }

theorem State.loadRead_records {s : State} {w : LoadWork} (d : List Byte) (table : w.table ≠ .header) :
    s.loadRead w d = s.recordsTaken (w.next + w.accessLength)
      (w.takeRecords s.smi.base (w.accessLength / w.recordSize) w.index (d.take w.accessLength)) := by
  unfold State.loadRead
  dsimp only
  rw [if_neg fun first => table first.1, if_neg table, if_neg table]
  rfl

theorem State.loadRead_header {s : State} {w : LoadWork} (d : List Byte) (table : w.table = .header)
    (second : w.next = 32) :
    s.loadRead w d = s.recordsTaken 64 (w.takeHeader s.smi.base (w.buffer ++ d.take 32)) := by
  have length : w.accessLength = 32 := by
    unfold LoadWork.accessLength LoadWork.length
    rw [table, second]
    rfl
  unfold State.loadRead
  dsimp only
  rw [if_neg fun first => absurd (second.symm.trans first.2) (by decide), if_pos table, if_pos table, length, second,
    takeRecords_header table]
  rfl

theorem loadRead_first {t : Time} {d : List Byte} {s : State} {p : Progress} {w : LoadWork} (h : s.answering .load)
    (progress : s.ctl.progress = some p) (work : p.work = .load w) (table : w.table = .header) (first : w.next = 0)
    (whole : d.length = 32) : ∃ u, exec (.loadReadComplete t d) s = .next u ∧ s.sameBlocks u ∧
      u.ctl = { s.ctl with progress := some { p with work := .load { w with next := 32, buffer := d } } } ∧
      u.smi.port.holds (.read .load (w.headerAddress + 32) 32 .background { FaultDetail.none with table := 1 }) := by
  obtain ⟨f, busy, -, -⟩ := State.answering_busy h
  have he := execLoadReadComplete_answered t d h progress work
  have length : w.accessLength = 32 := by
    unfold LoadWork.accessLength LoadWork.length
    rw [table, first]
    rfl
  have half : ({ w with next := 32, buffer := d } : LoadWork).length = 64 := by
    unfold LoadWork.length
    rw [table]
  have start : ({ w with next := 32, buffer := d } : LoadWork).start = w.headerAddress := by
    unfold LoadWork.start
    rw [table]
  have size : ({ w with next := 32, buffer := d } : LoadWork).recordSize = 64 := by
    unfold LoadWork.recordSize
    rw [table]
  have read : (s.begin t).loadRead w d = (s.begin t).queueLoad { w with next := 32, buffer := d } := by
    unfold State.loadRead
    dsimp only
    rw [if_pos ⟨table, first⟩, length, List.take_of_length_le (Nat.le_of_eq whole)]
    exact State.continueLoad_more (by rw [half]; exact (by decide : 32 < 64))
  rw [read] at he
  obtain ⟨blocks, -, ctl, holds⟩ := State.queueLoad_queued (s := s.begin t) (w := { w with next := 32, buffer := d })
    progress busy
  rw [half, start, size] at holds
  refine ⟨_, he, blocks, ctl, ?_⟩
  have code : w.table.code = 1 := by rw [table]; rfl
  simp only [code] at holds
  exact holds

/-- The whole header is checked, then the regions, and the section table is read next (R17, R18). -/
theorem loadRead_second {t : Time} {d half : List Byte} {s : State} {p : Progress} {w : LoadWork} (h : s.answering .load)
    (progress : s.ctl.progress = some p) (work : p.work = .load w) (table : w.table = .header) (second : w.next = 32)
    (held : w.buffer = half) :
    (∀ c, checkHeader (half ++ d.take 32) = some c → ∃ u, exec (.loadReadComplete t d) s = .next u ∧ s.sameBlocks u ∧
      u.ctl = { s.ctl with engine := .idle, progress := none } ∧
      s.handedBack u p.slot .scriptRejected [1, 0, c.code, 0]) ∧
    (∀ n c, checkHeader (half ++ d.take 32) = none →
      checkRegions s.smi.base w.headerAddress (parseHeader (half ++ d.take 32)) = some (n, c) →
      ∃ u, exec (.loadReadComplete t d) s = .next u ∧ s.sameBlocks u ∧
        u.ctl = { s.ctl with engine := .idle, progress := none } ∧
        s.handedBack u p.slot .scriptRejected [n.code, 0, c.code, 0]) ∧
    (checkHeader (half ++ d.take 32) = none →
      checkRegions s.smi.base w.headerAddress (parseHeader (half ++ d.take 32)) = none →
      ∃ u, exec (.loadReadComplete t d) s = .next u ∧ s.sameBlocks u ∧ u.smi.outcomes = s.smi.outcomes ∧
        u.ctl = { s.ctl with progress := some { p with work := .load { w with
          header := parseHeader (half ++ d.take 32), table := .sec, next := 0, buffer := [] } } } ∧
        u.smi.port.holds (.read .load (u32 (half ++ d.take 32) 12) (min 32 (16 * u16 (half ++ d.take 32) 4))
          .background { FaultDetail.none with table := 2 })) := by
  obtain ⟨f, busy, -, -⟩ := State.answering_busy h
  have he := execLoadReadComplete_answered t d h progress work
  rw [State.loadRead_header (s := s.begin t) d table second, held] at he
  unfold LoadWork.takeHeader at he
  refine ⟨fun c fault => ?_, fun n c passes fault => ?_, fun passes sound => ?_⟩
  · rw [fault] at he
    dsimp only [State.recordsTaken] at he
    obtain ⟨blocks, ctl, handed⟩ := State.failLoad_ended (v := s.begin t) .scriptRejected .header 0 c.code progress busy
    exact ⟨_, he, blocks, ctl, handed⟩
  · dsimp only at he
    rw [passes] at he
    dsimp only at he
    rw [show checkRegions (s.begin t).smi.base w.headerAddress (parseHeader (half ++ d.take 32)) = some (n, c) from fault]
      at he
    obtain ⟨blocks, ctl, handed⟩ := State.failLoad_ended (v := s.begin t) .scriptRejected n 0 c.code progress busy
    exact ⟨_, he, blocks, ctl, handed⟩
  · dsimp only at he
    rw [passes] at he
    dsimp only at he
    rw [show checkRegions (s.begin t).smi.base w.headerAddress (parseHeader (half ++ d.take 32)) = none from sound] at he
    dsimp only [State.recordsTaken] at he
    rw [State.continueLoad_table (n := .sec) (by
      unfold LoadWork.length
      rw [table]) (by
      unfold LoadWork.nextTable
      rw [table])] at he
    obtain ⟨blocks, outcomes, ctl, holds⟩ := State.queueLoad_queued (s := s.begin t) (w := { w with
      header := parseHeader (half ++ d.take 32), table := .sec, next := 0, buffer := [] }) progress busy
    refine ⟨_, he, blocks, outcomes, ctl, ?_⟩
    rw [Nat.zero_div] at holds
    exact holds

/-- The records of an access are taken, and the LOAD goes on or ends (R16). -/
theorem loadRead_records {t : Time} {d : List Byte} {s : State} {p : Progress} {w : LoadWork} (h : s.answering .load)
    (progress : s.ctl.progress = some p) (work : p.work = .load w) (table : w.table ≠ .header) :
    (∀ f, w.takeRecords s.smi.base (w.accessLength / w.recordSize) w.index (d.take w.accessLength) = .error f →
      ∃ u, exec (.loadReadComplete t d) s = .next u ∧ s.sameBlocks u ∧
        u.ctl = { s.ctl with engine := .idle, progress := none } ∧
        s.handedBack u p.slot .scriptRejected [f.table.code, f.index, f.code.code, 0]) ∧
    ∀ v, w.takeRecords s.smi.base (w.accessLength / w.recordSize) w.index (d.take w.accessLength) = .ok v →
      exec (.loadReadComplete t d) s =
        .next ((s.begin t).continueLoad { v with next := w.next + w.accessLength }).freePort := by
  obtain ⟨f, busy, -, -⟩ := State.answering_busy h
  have he := execLoadReadComplete_answered t d h progress work
  rw [State.loadRead_records (s := s.begin t) d table] at he
  refine ⟨fun f fault => ?_, fun v taken => ?_⟩
  · rw [show w.takeRecords (s.begin t).smi.base _ _ _ = _ from fault] at he
    obtain ⟨blocks, ctl, handed⟩ := State.failLoad_ended (v := s.begin t) .scriptRejected f.table f.index f.code.code
      progress busy
    exact ⟨_, he, blocks, ctl, handed⟩
  · rw [show w.takeRecords (s.begin t).smi.base _ _ _ = _ from taken] at he
    exact he

/-- Settles O35: the accesses of a LOAD in turn, and the checks of every record. -/
theorem loadReads : Obligations.LoadReads := by
  refine ⟨fun t d s p w h progress work table first whole => loadRead_first h progress work table first whole,
    fun t d half s p w h progress work table second held => loadRead_second h progress work table second held, ?_,
    takeRecords_takes, checkHeader_checks, checkRegions_checks, checkSection_checks, checkBar_checks, checkCue_checks,
    orderOk_checks⟩
  intro t d s p w h progress work table
  obtain ⟨f, busy, -, -⟩ := State.answering_busy h
  obtain ⟨rejected, taken⟩ := loadRead_records (t := t) (d := d) h progress work table
  refine ⟨rejected, fun v took => ⟨fun more => ?_, fun n done next => ?_, fun done last => ?_⟩⟩
  · have he := taken v took
    rw [State.continueLoad_more (w := { v with next := w.next + w.accessLength }) more] at he
    obtain ⟨blocks, outcomes, ctl, holds⟩ := State.queueLoad_queued (s := s.begin t)
      (w := { v with next := w.next + w.accessLength }) progress busy
    exact ⟨_, he, blocks, outcomes, ctl, holds⟩
  · have he := taken v took
    rw [State.continueLoad_table (w := { v with next := w.next + w.accessLength }) done next] at he
    obtain ⟨blocks, outcomes, ctl, holds⟩ := State.queueLoad_queued (s := s.begin t)
      (w := { v with table := n, next := 0, buffer := [] }) progress busy
    rw [Nat.zero_div] at holds
    exact ⟨_, he, blocks, outcomes, ctl, holds⟩
  · have he := taken v took
    rw [State.continueLoad_end (w := { v with next := w.next + w.accessLength }) done last] at he
    exact ⟨_, he, State.finishLoad_ended (s := s.begin t) (w := { v with next := w.next + w.accessLength }) progress busy⟩

end Sys2Proof.Machine
end

section
/-! An accepted edge (R156), an arrival that is not acted on (R160, R161), and a review of the offers behind it. -/

namespace Sys2Proof.Machine

/-! ### The edge -/

theorem LinePort.accepts_of {x : LinePort} {now : Time} (h : ∀ e, x.lastEdge = some e → e + 8000 ≤ now) :
    x.accepts now = true := by
  unfold LinePort.accepts
  cases last : x.lastEdge with
  | none => rfl
  | some e => exact decide_eq_true (h e last)

/-- An accepted edge is routed. -/
theorem State.risingEdge_accepted {s : State} {t : Time} {l : Line} (route : State → State) (h : s.acceptsEdge t l) :
    (s.begin t).risingEdge l route = route (s.edgeTaken t l) := by
  have taken : (s.begin t).setLine l (({ s.line l with level := true } : LinePort).accept (max s.clock t)) =
      s.edgeTaken t l := by
    unfold State.edgeTaken LinePort.accept
    rw [bump_min]
  rw [← taken]
  exact if_pos (LinePort.accepts_of h)

/-- Of an accepted edge the rest of the part sees the clock alone. -/
theorem State.edgeTaken_frame (s : State) (t : Time) (l : Line) :
    s.edgeTaken t l = { s with clock := max s.clock t, sent := [], desk := (s.edgeTaken t l).desk } := rfl

/-! ### Nothing acted on -/

/-- A line whose ignored count has risen (R160). -/
def LinePort.ignoredOnce (x : LinePort) : LinePort := { x with ignored := min 4294967295 (x.ignored + 1) }

theorem State.countIgnored_eq (l : Line) (s : State) : s.countIgnored l = s.setLine l (s.line l).ignoredOnce := by
  unfold State.countIgnored LinePort.ignoredOnce
  rw [bump_min]

/-- The record of an arrival that is not acted on. -/
def State.ignoredRecord (l : Line) (reason : IgnoreReason) (s : State) : Journal :=
  .deskIgnored (lineCode l) reason.code s.ctl.engine.code s.wlk.inForce.code s.trk.beat

/-- An arrival that is not acted on reaches its line and the journal alone. -/
theorem State.ignoreDesk_frame (l : Line) (reason : IgnoreReason) (s : State) : s.ignoreDesk l reason =
    { s.setLine l (s.line l).ignoredOnce with smi := (s.journal (s.ignoredRecord l reason)).smi } := by
  have journaled : s.journal (s.ignoredRecord l reason) = { s with smi := (s.journal (s.ignoredRecord l reason)).smi } :=
    State.journalAt_onlyBus s.clock _ s.onlyBus_refl
  show (s.journal (s.ignoredRecord l reason)).countIgnored l = _
  rw [State.countIgnored_eq]
  generalize s.journal (s.ignoredRecord l reason) = u at *
  rw [journaled]
  rfl

theorem State.journal_queue {s : State} (b : Journal) (room : s.smi.journalQueue.length < 16) :
    (s.journal b).smi.journalQueue = s.smi.journalQueue ++ [⟨s.smi.journalCount, s.clock, b⟩] := by
  unfold State.journal
  rw [(State.journalAt_journal s.clock b s).2, if_pos room]

/-- An accepted press that is not acted on (R160, R161). -/
theorem State.edgeTaken_ignored (s : State) (t : Time) (l : Line) (reason : IgnoreReason) :
    s.pressIgnored ((s.edgeTaken t l).ignoreDesk l reason) t l reason.code := by
  rw [State.ignoreDesk_frame]
  refine ⟨?_, fun room => State.journal_queue (s := s.edgeTaken t l) _ room⟩
  unfold LinePort.ignoredOnce
  rw [show ((s.edgeTaken t l).line l).ignored = (s.line l).ignored from by
    unfold State.edgeTaken
    rw [State.setLine_line_self]]

/-! ### The offers behind a step of the walk -/

/-- Only the offer being made has moved since `v`, with the port and the journal, which keeps its records. -/
structure State.OffersMoved (v u : State) : Prop where
  frame : u = { v with wlk := u.wlk, smi := u.smi }
  walk : v.wlk.sameWalk u.wlk
  records : ∀ r ∈ v.smi.journalQueue, r ∈ u.smi.journalQueue

namespace State.OffersMoved

variable {v u w : State}

theorem refl (v : State) : v.OffersMoved v := ⟨rfl, Walker.sameWalk_refl _, fun _ h => h⟩

theorem trans (h : v.OffersMoved u) (g : u.OffersMoved w) : v.OffersMoved w where
  frame := by
    have first := h.frame
    have second := g.frame
    rw [first] at second
    exact second
  walk := Walker.sameWalk_trans h.walk g.walk
  records r there := g.records r (h.records r there)

variable (h : v.OffersMoved u)
include h

theorem blocks : u.trk = v.trk ∧ u.sch = v.sch ∧ u.du = v.du ∧ u.desk = v.desk ∧ u.arb = v.arb ∧ u.links = v.links ∧
    u.ctl = v.ctl ∧ u.clock = v.clock := by
  rw [h.frame]
  exact ⟨rfl, rfl, rfl, rfl, rfl, rfl, rfl, rfl⟩

theorem inForce : u.wlk.inForce = v.wlk.inForce := by rw [h.walk]

theorem pass : u.wlk.pass = v.wlk.pass := by rw [h.walk]

theorem origin : u.wlk.origin = v.wlk.origin := by rw [h.walk]

theorem walked : u.wlk.walked = v.wlk.walked := by rw [h.walk]

theorem owedGo : u.wlk.owedGo = v.wlk.owedGo := by rw [h.walk]

theorem exitFlag : u.wlk.exitFlag = v.wlk.exitFlag := by rw [h.walk]

theorem fireCursor : u.wlk.fireCursor = v.wlk.fireCursor := by rw [h.walk]

theorem history : u.wlk.history = v.wlk.history := by rw [h.walk]

end State.OffersMoved

theorem State.reviewOffers_moved (v : State) : v.OffersMoved v.reviewOffers where
  frame := (State.reviewOffers_only v).1
  walk := (State.reviewOffers_only v).2.1
  records r there :=
    (⟨fun _ _ h => h, fun _ _ _ h => h⟩ : Offers fun s => r ∈ s.smi.journalQueue).reviewOffers v there

/-- A review leaves the journal as it is. -/
theorem State.reviewOffers_queue (v : State) : v.reviewOffers.smi.journalQueue = v.smi.journalQueue ∧
    v.reviewOffers.smi.journalCount = v.smi.journalCount :=
  (⟨fun _ _ h => h, fun _ _ _ h => h⟩ : Offers fun s => s.smi.journalQueue = v.smi.journalQueue ∧
    s.smi.journalCount = v.smi.journalCount).reviewOffers v ⟨rfl, rfl⟩

theorem State.overrun_moved (n : Nat) (o : Option Int) (v : State) : v.OffersMoved (v.overrun n o) := by
  have journaled (w : Walker) (b : Journal) (walk : v.wlk.sameWalk w) :
      v.OffersMoved (((v.setWalker w).discardRead).journal b) := by
    have bus : ((v.setWalker w).discardRead).journal b =
        { (v.setWalker w).discardRead with smi := (((v.setWalker w).discardRead).journal b).smi } :=
      State.journalAt_onlyBus _ b (State.onlyBus_refl _)
    have kept (r : JournalRecord) (there : r ∈ v.smi.journalQueue) :
        r ∈ (((v.setWalker w).discardRead).journal b).smi.journalQueue := (Bus.journaled r).journal b _ there
    generalize ((v.setWalker w).discardRead).journal b = u at *
    exact ⟨bus.trans (by rw [bus]; rfl), by rw [bus]; exact walk, kept⟩
  unfold State.overrun
  split
  · split
    · exact journaled _ _ rfl
    · exact .refl v
  · exact .refl v

end Sys2Proof.Machine
end

section
/-! GO (R57 to R61, R159): a vamp's exit, the fire cursor, and the end of a CALLED section. -/

namespace Sys2Proof.Machine

/-! ### The press -/

theorem execGo_accepted {s : State} {t : Time} (h : s.acceptsEdge t .go) :
    exec (.go t) s = .next (s.edgeTaken t .go).routeGo :=
  congrArg Host.Outcome.next (State.risingEdge_accepted State.routeGo h)

/-- With nothing that may fire, a GO is what the walker makes of it and a review of the offers. -/
theorem State.pressGo_unfired {g : Time} {s : State} (quiet : (s.takeGo g).nothingFires) :
    s.pressGo g = (s.takeGo g).reviewOffers := by
  unfold State.pressGo
  rw [State.fireAll_nothing quiet]

/-- A GO that is not acted on, and the review behind it. -/
theorem State.goIgnored_moved {s u : State} {t : Time} {reason : IgnoreReason}
    (moved : ((s.edgeTaken t .go).ignoreDesk .go reason).OffersMoved u)
    (queue : u.smi.journalQueue = ((s.edgeTaken t .go).ignoreDesk .go reason).smi.journalQueue) :
    s.goIgnored u reason.code := by
  obtain ⟨frame, record⟩ := State.edgeTaken_ignored s t .go reason
  obtain ⟨trk, sch, du, desk, arb, links, ctl, clock⟩ := moved.blocks
  have inForce := moved.inForce
  have exitFlag := moved.exitFlag
  have fireCursor := moved.fireCursor
  have owedGo := moved.owedGo
  generalize (s.edgeTaken t .go).ignoreDesk .go reason = v at *
  rw [frame] at trk sch du desk arb links ctl clock inForce exitFlag fireCursor owedGo
  refine ⟨trk, sch, du, arb, links, ctl, inForce, exitFlag, fireCursor, owedGo, ?_, fun room => ?_⟩
  · unfold State.line
    rw [desk]
    exact congrArg LinePort.ignored (State.setLine_line_self (s := s.edgeTaken t .go) .go _)
  · rw [queue, record room, clock]
    rfl

/-- A GO in RUNNING that the walker turns away. -/
theorem goPress_turnedAway {s : State} {t : Time} {reason : IgnoreReason} (h : s.acceptsEdge t .go)
    (running : s.ctl.engine = .running) (quiet : s.nothingFires)
    (turned : (s.edgeTaken t .go).takeGo (max s.clock t) = (s.edgeTaken t .go).ignoreDesk .go reason) :
    ∃ u, exec (.go t) s = .next u ∧ s.goIgnored u reason.code := by
  have routed : (s.edgeTaken t .go).routeGo = (s.edgeTaken t .go).pressGo (max s.clock t) := by
    unfold State.routeGo
    rw [show (s.edgeTaken t .go).ctl.engine = .running from running]
    rfl
  have still : ((s.edgeTaken t .go).takeGo (max s.clock t)).nothingFires := by
    rw [turned, State.ignoreDesk_frame]
    exact quiet
  refine ⟨_, execGo_accepted h, ?_⟩
  rw [routed, State.pressGo_unfired still, turned]
  exact State.goIgnored_moved (State.reviewOffers_moved _) (State.reviewOffers_queue _).1

theorem State.takeGo_beat {g : Time} {s : State} {n : Nat} {x : Section} (inForce : s.wlk.inForce = .sec n)
    (sec : s.wlk.sec n = some x) (mode : x.mode = .beat) : s.takeGo g =
      if x.vamp then
        if s.wlk.exitFlag then s.ignoreDesk .go .exitAlreadySet else s.setWalker { s.wlk with exitFlag := true }
      else s.ignoreDesk .go .beatSection := by
  unfold State.takeGo
  rw [inForce]
  dsimp only
  rw [sec]
  dsimp only
  rw [mode]

theorem State.takeGo_called {g : Time} {s : State} {n : Nat} {x : Section} (inForce : s.wlk.inForce = .sec n)
    (sec : s.wlk.sec n = some x) (mode : x.mode = .called) : s.takeGo g =
      if s.wlk.owedGo.isSome then s.ignoreDesk .go .goOwed else s.goCalled 300 g := by
  unfold State.takeGo
  rw [inForce]
  dsimp only
  rw [sec]
  dsimp only
  rw [mode]

/-! ### The fire cursor -/

section Cursor

variable {g : Time} {s : State} {k : Nat} {x : Section} {c : Nat} (inForce : s.wlk.inForce = .sec k)
  (sec : s.wlk.sec k = some x) (cursor : s.wlk.fireCursor = some c)
include inForce sec cursor

/-- The cue at the fire cursor is not armed: the GO is owed (R60). -/
theorem State.goCalled_unarmed (n : Nat) (before : c < x.cueEnd) (unarmed : s.armedEntry c s.wlk.pass = none) :
    s.goCalled (n + 1) g = s.setWalker { s.wlk with owedGo := some g } := by
  rw [State.goCalled, inForce]
  dsimp only
  rw [sec, cursor]
  dsimp only
  rw [if_pos before, unarmed]

/-- The cue at the fire cursor is armed: it is made DUE, or the GO is owed when a GO cue is DUE already (R59, R60). -/
theorem State.goCalled_armed (n : Nat) (before : c < x.cueEnd) {e : Armed} (armed : s.armedEntry c s.wlk.pass = some e) :
    s.goCalled (n + 1) g = if !e.copy.isFollow && e.timing == .due then s.setWalker { s.wlk with owedGo := some g }
      else s.updateArmed c s.wlk.pass (s.timeFromGo g) := by
  rw [State.goCalled, inForce]
  dsimp only
  rw [sec, cursor]
  dsimp only
  rw [if_pos before, armed]

theorem State.goCalled_last (n : Nat) (past : x.cueEnd ≤ c) (last : s.wlk.nextSec k = none) :
    s.goCalled (n + 1) g = ((s.passShow .go).overrun k none).testEnd := by
  rw [State.goCalled, inForce]
  dsimp only
  rw [sec, cursor]
  dsimp only
  rw [if_neg (Nat.not_lt.mpr past), last]

theorem State.goCalled_nextCalled (n : Nat) (past : x.cueEnd ≤ c) {m : Nat} {y : Section}
    (next : s.wlk.nextSec k = some m) (there : s.wlk.sec m = some y) (mode : y.mode = .called) :
    s.goCalled (n + 1) g = State.goCalled n g ((s.enterCalled m y .go).overrun k none) := by
  rw [State.goCalled, inForce]
  dsimp only
  rw [sec, cursor]
  dsimp only
  rw [if_neg (Nat.not_lt.mpr past), next]
  dsimp only
  rw [there]
  dsimp only
  rw [mode]

theorem State.goCalled_nextBeat (n : Nat) (past : x.cueEnd ≤ c) {m : Nat} {y : Section}
    (next : s.wlk.nextSec k = some m) (there : s.wlk.sec m = some y) (mode : y.mode = .beat) :
    s.goCalled (n + 1) g = (s.enterBeatByGo m y).overrun k none := by
  rw [State.goCalled, inForce]
  dsimp only
  rw [sec, cursor]
  dsimp only
  rw [if_neg (Nat.not_lt.mpr past), next]
  dsimp only
  rw [there]
  dsimp only
  rw [mode]

end Cursor

theorem Cue.isFollow_iff (c : Cue) : c.isFollow = true ↔ ∃ delay, c.anchor = .follow delay := by
  unfold Cue.isFollow
  cases c.anchor <;> simp

/-- The entry of a cue and pass after it has been changed, its cue and pass kept. -/
theorem State.armedEntry_updated {s : State} {c p : Nat} {e : Armed} {f : Armed → Armed}
    (armed : s.armedEntry c p = some e) (kept : ∀ x, (f x).cue = x.cue ∧ (f x).pass = x.pass) :
    (s.updateArmed c p f).armedEntry c p = some (f e) := by
  unfold State.armedEntry at *
  have same (x : Armed) : (if x.isOf c p then f x else x).isOf c p = x.isOf c p := by
    split
    · unfold Armed.isOf
      rw [(kept x).1, (kept x).2]
    · rfl
  show (s.sch.armed.map fun x => if x.isOf c p then f x else x).find? (fun x => x.isOf c p) = _
  rw [List.find?_map]
  have place : ((fun x : Armed => x.isOf c p) ∘ fun x => if x.isOf c p then f x else x) = fun x => x.isOf c p := funext same
  rw [place, armed]
  have mine : e.isOf c p = true := List.find?_some (p := fun x : Armed => x.isOf c p) armed
  exact congrArg some (if_pos mine)

theorem State.timeFromGo_due (g : Time) (s : State) (e : Armed) : s.timeFromGo g e = s.dueByGo g e := rfl

/-- A list of one entry after a fire or none: Show Control, the desk, the section in force and the GO stand. -/
theorem State.fireAll_lone {e : Armed} {s : State} (alone : s.sch.armed = [e]) (shown : s.wlk.inForce ≠ .endOfShow)
    (unowed : s.wlk.owedGo = none) : s.fireAll.ctl = s.ctl ∧ s.fireAll.desk = s.desk ∧
      s.fireAll.wlk.inForce = s.wlk.inForce ∧ s.fireAll.wlk.owedGo = none := by
  by_cases fires : s.mayFire = true ∧ e.timing = .due ∧ e.isComplete = true
  · obtain ⟨may, due, complete⟩ := fires
    have quietly := State.fireSettled_quietly (e := e) (.inl shown) unowed
    obtain ⟨-, ctl, desk, -⟩ := quietly.show
    rw [(State.fireAll_alone may alone due complete).1, State.fireEntry_settled]
    exact ⟨ctl, desk, quietly.inForce, quietly.owedGo⟩
  · have waits : s.fireAll = s := State.fireAll_none fun may => by
      rw [alone]
      unfold State.firstFirable
      split
      · next due =>
        rw [if_neg fun complete => fires ⟨may, due, complete⟩]
        split <;> rfl
      · rfl
    rw [waits]
    exact ⟨rfl, rfl, rfl, unowed⟩

/-! ### GO in a CALLED section -/

theorem State.fireAll_undue {e : Armed} {s : State} (alone : s.sch.armed = [e]) (undue : e.timing ≠ .due) :
    s.fireAll = s := by
  refine State.fireAll_none fun _ => ?_
  rw [alone]
  exact (if_neg undue : State.firstFirable s [e] = _).trans rfl

/-- The state in which an accepted edge reaches the show: RUNNING, and just made so when it was ARMED (R158, R159). -/
structure State.Ready (s v : State) (t : Time) (l : Line) : Prop where
  frame : v = { s with
    clock := max s.clock t, sent := [], ctl := { s.ctl with engine := .running }
    desk := (s.edgeTaken t l).desk, smi := v.smi }
  records : ∀ r ∈ s.smi.journalQueue, r ∈ v.smi.journalQueue
  started : s.ctl.engine = .armed → s.smi.journalQueue.length < 16 →
    (⟨s.smi.journalCount, max s.clock t, .engineState 4 5 4 255 (lineCode l) 0⟩ : JournalRecord) ∈ v.smi.journalQueue

theorem State.ready_running {s : State} (t : Time) (l : Line) (running : s.ctl.engine = .running) :
    s.Ready (s.edgeTaken t l) t l := by
  have same : { s.ctl with engine := .running } = s.ctl := by rw [← running]
  refine ⟨?_, fun _ h => h, fun armed => absurd (running.symm.trans armed) nofun⟩
  rw [same]
  rfl

/-- The first arrival in ARMED starts the show (R159, R175). -/
theorem State.ready_started {s : State} (t : Time) (l : Line) (armed : s.ctl.engine = .armed)
    (quiet : s.nothingFires ∨ ∃ e, s.sch.armed = [e] ∧ e.timing ≠ .due) :
    s.Ready ((s.edgeTaken t l).startShow l) t l := by
  have started : (s.edgeTaken t l).startShow l =
      (s.edgeTaken t l).changeEngine .running .start none (lineCode l) 0 := by
    unfold State.startShow
    rcases quiet with nothing | ⟨e, alone, undue⟩
    · exact State.fireAll_nothing (by
        unfold State.nothingFires
        rw [State.changeEngine_sch]
        exact nothing)
    · exact State.fireAll_undue (e := e) (by rw [State.changeEngine_sch]; exact alone) undue
  have frame := State.changeEngine_frame .running .start none (lineCode l) 0 (s.edgeTaken t l)
  rw [started]
  refine ⟨frame, fun r there => (Ends.journaled r).changeEngine _ _ _ _ _ _ there, fun _ room => ?_⟩
  have code : s.ctl.engine.code = 4 := by rw [armed]; rfl
  have joined := State.journal_mem (s := { s.edgeTaken t l with ctl := { s.ctl with engine := .running } })
    (.engineState s.ctl.engine.code 5 4 255 (lineCode l) 0) room
  rw [code] at joined
  refine (Bus.journaled _).requestRefresh _ ?_
  have record : (Journal.engineState (s.edgeTaken t l).ctl.engine.code EngineState.running.code
      EngineCause.start.code (((none : Option Slot).map Fin.val).getD 255) (lineCode l) 0) =
      .engineState 4 5 4 255 (lineCode l) 0 := by
    rw [show (s.edgeTaken t l).ctl.engine.code = 4 from code]
    rfl
  rw [record]
  exact joined

namespace State.Ready

variable {s v : State} {t : Time} {l : Line} (ready : s.Ready v t l)
include ready

theorem wlk : v.wlk = s.wlk := by rw [ready.frame]

theorem sch : v.sch = s.sch := by rw [ready.frame]

theorem clock : v.clock = max s.clock t := by rw [ready.frame]

theorem blocks : v.trk = s.trk ∧ v.du = s.du ∧ v.arb = s.arb ∧ v.links = s.links ∧
    v.desk = (s.edgeTaken t l).desk ∧ v.ctl = { s.ctl with engine := .running } := by
  rw [ready.frame]
  exact ⟨rfl, rfl, rfl, rfl, rfl, rfl⟩

theorem cueLead (c : Cue) : v.cueLead c = s.cueLead c := by
  rw [ready.frame]
  rfl

end State.Ready

/-- An accepted GO reaches the walker in RUNNING, and in ARMED at a CALLED section, where it starts the show (R159). -/
theorem goPress_ready {s : State} {t : Time} {n : Nat} {x : Section} (h : s.acceptsEdge t .go)
    (engine : s.ctl.engine = .running ∨ s.ctl.engine = .armed) (inForce : s.wlk.inForce = .sec n)
    (sec : s.wlk.sec n = some x) (mode : x.mode = .called)
    (quiet : s.nothingFires ∨ ∃ e, s.sch.armed = [e] ∧ e.timing ≠ .due) :
    ∃ v, exec (.go t) s = .next (v.pressGo (max s.clock t)) ∧ s.Ready v t .go := by
  have he := execGo_accepted h
  rcases engine with running | armed
  · have routed : (s.edgeTaken t .go).routeGo = (s.edgeTaken t .go).pressGo (max s.clock t) := by
      unfold State.routeGo
      rw [show (s.edgeTaken t .go).ctl.engine = .running from running]
      rfl
    rw [routed] at he
    exact ⟨_, he, State.ready_running t .go running⟩
  · have called : (s.edgeTaken t .go).inCalledSection = true := by
      unfold State.inCalledSection
      rw [show (s.edgeTaken t .go).wlk = s.wlk from rfl, inForce]
      dsimp only
      rw [sec]
      exact decide_eq_true mode
    have ready := State.ready_started t .go armed quiet
    have routed : (s.edgeTaken t .go).routeGo = ((s.edgeTaken t .go).startShow .go).pressGo (max s.clock t) := by
      unfold State.routeGo
      rw [show (s.edgeTaken t .go).ctl.engine = .armed from armed]
      dsimp only
      rw [if_pos called]
      rfl
    rw [routed] at he
    exact ⟨_, he, ready⟩

/-- A GO at the fire cursor of a CALLED section (R59, R60, R84, R86). -/
theorem goPress_cue {s : State} {t : Time} {n : Nat} {x : Section} {c : Nat} (h : s.acceptsEdge t .go)
    (engine : s.ctl.engine = .running ∨ s.ctl.engine = .armed) (inForce : s.wlk.inForce = .sec n)
    (sec : s.wlk.sec n = some x) (mode : x.mode = .called) (unowed : s.wlk.owedGo = none)
    (cursor : s.wlk.fireCursor = some c) (before : c < x.firstCue + x.cueCount)
    (quiet : s.nothingFires ∨ (∃ e, s.sch.armed = [e] ∧ s.armedEntry c s.wlk.pass = some e ∧ e.timing ≠ .due)) :
    ∃ u, exec (.go t) s = .next u ∧ u.wlk.inForce = .sec n ∧ u.ctl = { s.ctl with engine := .running } ∧
      u.desk = (s.edgeTaken t .go).desk ∧
      (s.ctl.engine = .armed → s.smi.journalQueue.length < 16 →
        (⟨s.smi.journalCount, max s.clock t, .engineState 4 5 4 255 (lineCode .go) 0⟩ : JournalRecord) ∈
          u.smi.journalQueue) ∧
      (s.armedEntry c s.wlk.pass = none → u.wlk.owedGo = some (max s.clock t) ∧ u.trk = s.trk ∧
        u.sch = s.sch ∧ u.du = s.du ∧ u.arb = s.arb ∧ u.links = s.links) ∧
      ∀ e, s.armedEntry c s.wlk.pass = some e →
        (s.sch.freeze = true → e.timing = .due → (∀ delay, e.copy.anchor ≠ .follow delay) →
          u.wlk.owedGo = some (max s.clock t) ∧ u.sch = s.sch) ∧
        (s.sch.freeze = true → e.timing = .waiting ∨ (∃ delay, e.copy.anchor = .follow delay) →
          u.armedEntry c s.wlk.pass = some (s.dueByGo (max s.clock t) e) ∧
          u.wlk.owedGo = none ∧ u.trk = s.trk ∧ u.du = s.du ∧ u.arb = s.arb ∧ u.links = s.links) ∧
        (s.sch.freeze = false → s.sch.armed = [e] → (∀ p ∈ e.keys, p.2 ≠ .pending) →
          e.timing = .waiting ∨ (e.timing ≠ .due ∧ ∃ delay, e.copy.anchor = .follow delay) →
          u.sch.armed = [] ∧ u.wlk.owedGo = none ∧
          u.sch.fireRecord = some { cue := e.cue, pass := e.pass, appear := max s.clock t + s.cueLead e.copy }) := by
  obtain ⟨v, he, ready⟩ := goPress_ready h engine inForce sec mode
    (quiet.imp id fun ⟨e, alone, _, undue⟩ => ⟨e, alone, undue⟩)
  have started := ready.started
  have wlk := ready.wlk
  have sch := ready.sch
  obtain ⟨trk, du, arb, links, desk, ctl⟩ := ready.blocks
  have force : v.wlk.inForce = .sec n := by rw [wlk]; exact inForce
  have held : v.wlk.sec n = some x := by rw [wlk]; exact sec
  have at_ : v.wlk.fireCursor = some c := by rw [wlk]; exact cursor
  have entry : v.armedEntry c v.wlk.pass = s.armedEntry c s.wlk.pass := by
    unfold State.armedEntry
    rw [sch, wlk]
  have called : v.takeGo (max s.clock t) = v.goCalled 300 (max s.clock t) := by
    rw [State.takeGo_called force held mode, wlk, unowed]
    rfl
  have records (r : JournalRecord) (there : r ∈ v.smi.journalQueue) : r ∈ (v.pressGo (max s.clock t)).smi.journalQueue :=
    (Show.journaled r).pressGo _ _ there
  by_cases owed : s.armedEntry c s.wlk.pass = none ∨
      ∃ e, s.armedEntry c s.wlk.pass = some e ∧ (!e.copy.isFollow && e.timing == .due) = true
  · have takes : v.takeGo (max s.clock t) = v.setWalker { v.wlk with owedGo := some (max s.clock t) } := by
      rw [called]
      rcases owed with unarmed | ⟨e, armed, due⟩
      · exact State.goCalled_unarmed force held at_ 299 before (entry.trans unarmed)
      · rw [State.goCalled_armed force held at_ 299 before (entry.trans armed), if_pos due]
    have nothing : s.nothingFires := by
      rcases quiet with nothing | ⟨e, -, armed, undue⟩
      · exact nothing
      · rcases owed with unarmed | ⟨e', armed', due⟩
        · exact absurd (armed.symm.trans unarmed) nofun
        · obtain rfl : e = e' := Option.some.inj (armed.symm.trans armed')
          rw [Bool.and_eq_true] at due
          exact absurd (by simpa using due.2) undue
    have moved : (v.setWalker { v.wlk with owedGo := some (max s.clock t) }).OffersMoved (v.pressGo (max s.clock t)) := by
      rw [State.pressGo_unfired (by
        rw [takes]
        show v.nothingFires
        unfold State.nothingFires
        rw [sch]
        exact nothing), takes]
      exact State.reviewOffers_moved _
    obtain ⟨trk', sch', du', desk', arb', links', ctl', -⟩ := moved.blocks
    have gone := moved.owedGo
    refine ⟨_, he, moved.inForce.trans force, ctl'.trans ctl, desk'.trans desk, fun armed room => records _ (started armed room),
      fun _ => ⟨gone, trk'.trans trk, sch'.trans sch, du'.trans du, arb'.trans arb, links'.trans links⟩, fun e armed => ?_⟩
    have due : e.copy.isFollow = false ∧ e.timing = .due := by
      rcases owed with unarmed | ⟨e', armed', due⟩
      · exact absurd (armed.symm.trans unarmed) nofun
      · obtain rfl : e = e' := Option.some.inj (armed.symm.trans armed')
        simpa using due
    have neither (which : e.timing = .waiting ∨ ∃ delay, e.copy.anchor = .follow delay) : False := by
      rcases which with waiting | follow
      · exact absurd (waiting.symm.trans due.2) nofun
      · exact absurd (((Cue.isFollow_iff _).mpr follow).symm.trans due.1) nofun
    exact ⟨fun _ _ _ => ⟨gone, sch'.trans sch⟩, fun _ which => absurd which neither,
      fun _ _ _ which => (neither (which.imp id (·.2))).elim⟩
  · obtain ⟨unlisted, other⟩ := not_or.mp owed
    obtain ⟨e, armed⟩ := Option.ne_none_iff_exists'.mp unlisted
    have undue : ¬(!e.copy.isFollow && e.timing == .due) = true := fun due => other ⟨e, armed, due⟩
    have takes : v.takeGo (max s.clock t) = v.updateArmed c v.wlk.pass (v.timeFromGo (max s.clock t)) := by
      rw [called, State.goCalled_armed force held at_ 299 before (entry.trans armed), if_neg undue]
    have updated := State.armedEntry_updated (f := v.timeFromGo (max s.clock t)) (entry.trans armed) fun _ => ⟨rfl, rfl⟩
    have due : v.timeFromGo (max s.clock t) e = s.dueByGo (max s.clock t) e := by
      rw [State.timeFromGo_due]
      unfold State.dueByGo
      rw [ready.cueLead]
    rw [due] at updated
    have free : (v.updateArmed c v.wlk.pass (v.timeFromGo (max s.clock t))).wlk.owedGo = none := by
      show v.wlk.owedGo = none
      rw [wlk]
      exact unowed
    cases frozen : s.sch.freeze with
    | true =>
      have moved : (v.updateArmed c v.wlk.pass (v.timeFromGo (max s.clock t))).OffersMoved (v.pressGo (max s.clock t)) := by
        rw [State.pressGo_unfired (.inl (by rw [takes]; show v.sch.freeze = true; rw [sch]; exact frozen)), takes]
        exact State.reviewOffers_moved _
      obtain ⟨trk', sch', du', desk', arb', links', ctl', -⟩ := moved.blocks
      have entry' : (v.pressGo (max s.clock t)).armedEntry c s.wlk.pass = some (s.dueByGo (max s.clock t) e) := by
        rw [wlk] at updated
        unfold State.armedEntry at updated ⊢
        rw [sch']
        rw [wlk]
        exact updated
      refine ⟨_, he, moved.inForce.trans force, ctl'.trans ctl, desk'.trans desk,
        fun armed room => records _ (started armed room), fun none => absurd none unlisted, fun e' armed' => ?_⟩
      obtain rfl : e = e' := Option.some.inj (armed.symm.trans armed')
      exact ⟨fun _ now unfollowed => absurd (by
          rw [Bool.and_eq_true, now]
          refine ⟨?_, rfl⟩
          rw [Bool.not_eq_true', ← Bool.not_eq_true, Cue.isFollow_iff]
          exact fun ⟨delay, anchor⟩ => unfollowed delay anchor) undue,
        fun _ _ => ⟨entry', moved.owedGo.trans free, trk'.trans trk, du'.trans du, arb'.trans arb, links'.trans links⟩,
        nofun⟩
    | false =>
      have alone : s.sch.armed = [e] := by
        rcases quiet with (on | empty) | ⟨e', alone, armed', -⟩
        · exact absurd (frozen.symm.trans on) nofun
        · unfold State.armedEntry at armed
          rw [empty] at armed
          cases armed
        · rw [Option.some.inj (armed.symm.trans armed')]
          exact alone
      have mine : e.isOf c v.wlk.pass = true := List.find?_some (p := fun x : Armed => x.isOf c v.wlk.pass) (entry.trans armed)
      have list : (v.updateArmed c v.wlk.pass (v.timeFromGo (max s.clock t))).sch.armed = [s.dueByGo (max s.clock t) e] := by
        show v.sch.armed.map _ = _
        rw [sch, alone, ← due]
        exact congrArg (fun x => [x]) (if_pos mine)
      have shown : (v.updateArmed c v.wlk.pass (v.timeFromGo (max s.clock t))).wlk.inForce ≠ .endOfShow := by
        show v.wlk.inForce ≠ _
        rw [force]
        exact nofun
      obtain ⟨ctl', desk', force', free'⟩ := State.fireAll_lone list shown free
      have fired (complete : ∀ p ∈ e.keys, p.2 ≠ .pending) := (State.fireAll_quietly
        (s := v.updateArmed c v.wlk.pass (v.timeFromGo (max s.clock t)))
        ((State.mayFire_iff _).mpr ⟨by show v.ctl.engine = _; rw [ctl], by show v.sch.freeze = _; rw [sch]; exact frozen⟩)
        list rfl ((Armed.isComplete_iff _).mpr complete) shown free).1
      have pressed : v.pressGo (max s.clock t) =
          (v.updateArmed c v.wlk.pass (v.timeFromGo (max s.clock t))).fireAll.reviewOffers := by
        unfold State.pressGo
        rw [takes]
      have moved : (v.updateArmed c v.wlk.pass (v.timeFromGo (max s.clock t))).fireAll.OffersMoved
          (v.pressGo (max s.clock t)) := by
        rw [pressed]
        exact State.reviewOffers_moved _
      obtain ⟨-, sch'', -, desk'', -, -, ctl'', -⟩ := moved.blocks
      refine ⟨_, he, moved.inForce.trans (force'.trans force), ctl''.trans (ctl'.trans ctl), desk''.trans (desk'.trans desk),
        fun armed room => records _ (started armed room), fun none => absurd none unlisted, fun e' armed' => ?_⟩
      obtain rfl : e = e' := Option.some.inj (armed.symm.trans armed')
      refine ⟨nofun, nofun, fun _ _ complete _ => ?_⟩
      obtain ⟨empty, record, -⟩ := fired complete
      exact ⟨(congrArg Scheduler.armed sch'').trans empty, moved.owedGo.trans free',
        (congrArg Scheduler.fireRecord sch'').trans record⟩

end Sys2Proof.Machine
end

section
/-! The moves of the section in force (R55, R61): the record SECTION ENTERED, the offer cursor overrun (R66), the
automatic end (R175). -/

namespace Sys2Proof.Machine

/-! ### SECTION ENTERED -/

/-- The mode that SECTION ENTERED carries for a section in force, 0 at END. -/
def Walker.modeInForce (w : Walker) : Nat :=
  (match w.inForce with
    | .sec n => (w.sec n).map fun x : Section => x.mode.code
    | _ => none).getD 0

theorem Walker.modeInForce_end {w : Walker} (ended : w.inForce = .endOfShow) : w.modeInForce = 0 := by
  unfold Walker.modeInForce
  rw [ended]
  rfl

theorem Walker.modeInForce_sec {w : Walker} {n : Nat} {x : Section} (inForce : w.inForce = .sec n)
    (sec : w.sec n = some x) : w.modeInForce = x.mode.code := by
  unfold Walker.modeInForce
  rw [inForce]
  dsimp only
  rw [sec]
  rfl

theorem State.journalEntered_eq (cause : EnterCause) (s : State) : s.journalEntered cause = s.journal
    (.sectionEntered s.wlk.modeInForce s.wlk.pass cause.code s.wlk.inForce.code s.wlk.origin s.trk.beat) := rfl

/-- The walk has moved: the walker is `w`, SECTION ENTERED is journalled, and at most the offer being made and the
journal have moved besides. -/
structure State.Moves (s : State) (w : Walker) (cause : EnterCause) (u : State) : Prop where
  frame : u = { s with wlk := u.wlk, smi := u.smi }
  walk : w.sameWalk u.wlk
  records : ∀ r ∈ s.smi.journalQueue, r ∈ u.smi.journalQueue
  entered : s.smi.journalQueue.length < 16 → (⟨s.smi.journalCount, s.clock,
    .sectionEntered w.modeInForce w.pass cause.code w.inForce.code w.origin s.trk.beat⟩ : JournalRecord) ∈
      u.smi.journalQueue

theorem State.moves_entered (s : State) (w : Walker) (cause : EnterCause) :
    s.Moves w cause ((s.setWalker w).journalEntered cause) := by
  rw [State.journalEntered_eq]
  have frame (b : Journal) : (s.setWalker w).journal b =
      { s with wlk := w, smi := ((s.setWalker w).journal b).smi } :=
    State.journalAt_onlyBus _ b (State.onlyBus_refl _)
  have walker (b : Journal) : ((s.setWalker w).journal b).wlk = w := by rw [frame]
  refine ⟨?_, ?_, fun r there => (Bus.journaled r).journal _ _ there, fun room => State.journal_mem (s := s.setWalker w) _ room⟩
  · rw [walker]
    exact frame _
  · rw [walker]
    exact Walker.sameWalk_refl _

namespace State.Moves

variable {s u v : State} {w : Walker} {cause : EnterCause} (h : s.Moves w cause u)
include h

theorem later (offers : u.OffersMoved v) : s.Moves w cause v where
  frame := by
    have first := h.frame
    have second := offers.frame
    rw [first] at second
    exact second
  walk := Walker.sameWalk_trans h.walk offers.walk
  records r there := offers.records r (h.records r there)
  entered room := offers.records _ (h.entered room)

theorem blocks : u.trk = s.trk ∧ u.sch = s.sch ∧ u.du = s.du ∧ u.desk = s.desk ∧ u.arb = s.arb ∧ u.links = s.links ∧
    u.ctl = s.ctl ∧ u.clock = s.clock := by
  rw [h.frame]
  exact ⟨rfl, rfl, rfl, rfl, rfl, rfl, rfl, rfl⟩

theorem inForce : u.wlk.inForce = w.inForce := by rw [h.walk]

theorem pass : u.wlk.pass = w.pass := by rw [h.walk]

theorem origin : u.wlk.origin = w.origin := by rw [h.walk]

theorem walked : u.wlk.walked = w.walked := by rw [h.walk]

theorem exitFlag : u.wlk.exitFlag = w.exitFlag := by rw [h.walk]

theorem fireCursor : u.wlk.fireCursor = w.fireCursor := by rw [h.walk]

theorem owedGo : u.wlk.owedGo = w.owedGo := by rw [h.walk]

theorem nothingFires (quiet : s.nothingFires) : u.nothingFires := by
  rw [h.frame]
  exact quiet

theorem armedEntry (c p : Nat) : u.armedEntry c p = s.armedEntry c p := by
  rw [h.frame]
  rfl

theorem cueLead (c : Cue) : u.cueLead c = s.cueLead c := by
  rw [h.frame]
  rfl

end State.Moves

theorem State.passShow_moves (cause : EnterCause) (n : Nat) (o : Option Int) (s : State) :
    s.Moves { s.wlk with inForce := .endOfShow, fireCursor := none, exitFlag := false } cause
      ((s.passShow cause).overrun n o) :=
  (s.moves_entered _ cause).later (State.overrun_moved n o _)

/-- The walker as it enters the CALLED section `m`. -/
def Walker.called (m : Nat) (y : Section) (w : Walker) : Walker :=
  { w with
    inForce := .sec m, pass := 1, exitFlag := false
    fireCursor := some (Walker.fireFrom { w with inForce := .sec m, pass := 1, exitFlag := false } y y.firstCue) }

theorem State.enterCalled_moves (m : Nat) (y : Section) (cause : EnterCause) (n : Nat) (o : Option Int) (s : State) :
    s.Moves (s.wlk.called m y) cause ((s.enterCalled m y cause).overrun n o) :=
  (s.moves_entered _ cause).later (State.overrun_moved n o _)

/-- On entering a section the fire cursor stands on its first cue when that has not been dropped or passed over (R58). -/
theorem Walker.called_fireCursor {m : Nat} {y : Section} {w : Walker} (handed : (y.firstCue, 1) ∉ w.unhanded) :
    (w.called m y).fireCursor = some y.firstCue := by
  refine congrArg some ?_
  unfold Walker.fireFrom
  cases y.cueCount with
  | zero => rfl
  | succ k =>
    unfold skipUnhanded
    exact if_neg fun skipped => handed skipped.2

/-- The walker as a GO takes it into the BEAT section `m` under this tracker: the origin is the lock beat (R61). -/
def Walker.beatByGo (m : Nat) (k : Tracker) (w : Walker) : Walker :=
  { w with
    inForce := .sec m, pass := 1, origin := if k.counted then (k.beat : Int) + 1 else (k.beat : Int)
    walked := if k.counted then some k.beat else none, fireCursor := none, exitFlag := false }

/-- The tracker as it becomes LOCKING at the first bar of a BEAT section (R48). -/
def Tracker.locked (period : Nat) (k : Tracker) : Tracker :=
  { k with
    state := .locking, period := period, ring := [], confidence := .loose, absorb := 0, synthetic := 0, bounces := 0
    timeout := none }

theorem State.lockFromCalled_frame (y : Section) (s : State) : s.lockFromCalled y = { s with
    trk := s.trk.locked (s.wlk.tempoAt y 1), sch := (s.lockFromCalled y).sch, smi := (s.lockFromCalled y).smi } := by
  have changed := (State.trackerChanged_frame s.trk.state .sectionChange
    (s.setTracker (s.trk.locked (s.wlk.tempoAt y 1)))).1
  rw [show (s.setTracker (s.trk.locked (s.wlk.tempoAt y 1))).trackerChanged s.trk.state .sectionChange =
    s.lockFromCalled y from rfl] at changed
  generalize s.lockFromCalled y = u at *
  rcases changed with stands | moved
  · subst stands
    rfl
  · rw [moved]
    rfl

theorem State.lockFromCalled_quiet (y : Section) {s : State} (quiet : s.nothingFires) :
    (s.lockFromCalled y).nothingFires := by
  obtain ⟨-, -, freeze, armed⟩ := State.trackerChanged_sch s.trk.state .sectionChange
    (s.setTracker (s.trk.locked (s.wlk.tempoAt y 1)))
  refine quiet.imp (freeze.trans ·) fun empty => ?_
  rcases armed with stands | gated
  · exact stands.trans empty
  · refine gated.trans ?_
    show s.sch.armed.map gatePosition = []
    rw [empty]
    rfl

/-! ### The automatic end -/

/-- The show has ended: the tracker is SUSPENDED, the history empty, no GO owed (R175). -/
structure State.ShowEnded (s u : State) : Prop where
  frame : u = { s with trk := s.trk.suspended, wlk := u.wlk, sch := u.sch, ctl := u.ctl, smi := u.smi }
  engine : u.ctl = { s.ctl with engine := .ended }
  walker : u.wlk = { s.wlk with history := [], owedGo := none }
  armed : u.sch.armed = []
  records : ∀ r ∈ s.smi.journalQueue, r ∈ u.smi.journalQueue

theorem State.testEnd_ends {s : State} (running : s.ctl.engine = .running) (ended : s.wlk.inForce = .endOfShow)
    (empty : s.sch.armed = []) : s.ShowEnded s.testEnd := by
  have fires : s.testEnd = ((((s.suspendTracker .sectionChange).setWalker
      { (s.suspendTracker .sectionChange).wlk with history := [], owedGo := none }).discardRead).changeEngine .ended
        .automaticEnd none 0 0) := by
    unfold State.testEnd
    exact if_pos ⟨running, ended, empty⟩
  have kept (r : JournalRecord) (there : r ∈ s.smi.journalQueue) : r ∈ (s.suspendTracker .sectionChange).smi.journalQueue :=
    (Show.journaled r).toWalks.suspendTracker _ _ there
  have suspended := State.trackerChanged_frame s.trk.state .sectionChange (s.setTracker s.trk.suspended)
  rw [show (s.setTracker s.trk.suspended).trackerChanged s.trk.state .sectionChange = s.suspendTracker .sectionChange
    from rfl] at suspended
  have moved : s.suspendTracker .sectionChange = { s with
      trk := s.trk.suspended, sch := (s.suspendTracker .sectionChange).sch
      smi := (s.suspendTracker .sectionChange).smi } ∧ (s.suspendTracker .sectionChange).sch.armed = [] := by
    rcases suspended.1 with stands | changed
    · generalize s.suspendTracker .sectionChange = v at *
      subst stands
      exact ⟨rfl, empty⟩
    · generalize s.suspendTracker .sectionChange = v at *
      rw [changed]
      refine ⟨rfl, ?_⟩
      show s.sch.armed.map gatePosition = []
      rw [empty]
      rfl
  rw [fires]
  generalize s.suspendTracker .sectionChange = v at *
  obtain ⟨frame, none⟩ := moved
  have engine := State.changeEngine_frame .ended .automaticEnd Option.none 0 0
    (v.setWalker { v.wlk with history := [], owedGo := Option.none }).discardRead
  have later (r : JournalRecord) (there : r ∈ v.smi.journalQueue) :
      r ∈ ((v.setWalker { v.wlk with history := [], owedGo := Option.none }).discardRead.changeEngine .ended
        .automaticEnd Option.none 0 0).smi.journalQueue := (Ends.journaled r).changeEngine _ _ _ _ _ _ there
  generalize (v.setWalker { v.wlk with history := [], owedGo := Option.none }).discardRead.changeEngine .ended
    .automaticEnd Option.none 0 0 = u at *
  constructor
  case frame =>
    rw [engine, frame]
    rfl
  case engine =>
    rw [engine, frame]
    rfl
  case walker =>
    rw [engine, frame]
    rfl
  case armed =>
    rw [engine]
    exact none
  case records => exact fun r there => later r (kept r there)

theorem State.testEnd_armed {s : State} (armed : s.sch.armed ≠ []) : s.testEnd = s := by
  unfold State.testEnd
  exact if_neg fun ended => armed ended.2.2

theorem State.testEnd_idle {s : State} (idle : s.ctl.engine ≠ .running) : s.testEnd = s := by
  unfold State.testEnd
  exact if_neg fun ended => idle ended.1

end Sys2Proof.Machine
end

section
/-! GO beyond the fire cursor (R57, R61, R160): a vamp's exit, the end of a CALLED section, and nothing to act on. -/

namespace Sys2Proof.Machine

/-! ### RUNNING -/

theorem execGo_running {s : State} {t : Time} (h : s.acceptsEdge t .go) (running : s.ctl.engine = .running) :
    exec (.go t) s = .next ((s.edgeTaken t .go).pressGo (max s.clock t)) := by
  have routed : (s.edgeTaken t .go).routeGo = (s.edgeTaken t .go).pressGo (max s.clock t) := by
    unfold State.routeGo
    rw [show (s.edgeTaken t .go).ctl.engine = .running from running]
    rfl
  rw [execGo_accepted h, routed]

/-- A vamp in force whose exit flag is clear (R57). -/
theorem goPress_exits {s : State} {t : Time} {n : Nat} {x : Section} (h : s.acceptsEdge t .go)
    (running : s.ctl.engine = .running) (inForce : s.wlk.inForce = .sec n) (sec : s.wlk.sec n = some x)
    (quiet : s.nothingFires) (mode : x.mode = .beat) (vamp : x.vamp = true) (clear : s.wlk.exitFlag = false) :
    ∃ u, exec (.go t) s = .next u ∧ u.wlk.exitFlag = true ∧ u.wlk.inForce = s.wlk.inForce ∧ u.trk = s.trk ∧
      u.sch = s.sch ∧ u.du = s.du ∧ u.arb = s.arb ∧ u.links = s.links ∧ u.ctl = s.ctl := by
  have takes : (s.edgeTaken t .go).takeGo (max s.clock t) =
      (s.edgeTaken t .go).setWalker { s.wlk with exitFlag := true } := by
    rw [State.takeGo_beat (s := s.edgeTaken t .go) inForce sec mode, if_pos vamp,
      show (s.edgeTaken t .go).wlk = s.wlk from rfl, clear]
    rfl
  refine ⟨_, execGo_running h running, ?_⟩
  rw [State.pressGo_unfired (by rw [takes]; exact quiet), takes]
  have moved := State.reviewOffers_moved ((s.edgeTaken t .go).setWalker { s.wlk with exitFlag := true })
  obtain ⟨trk, sch, du, -, arb, links, ctl, -⟩ := moved.blocks
  exact ⟨moved.exitFlag, moved.inForce, trk, sch, du, arb, links, ctl⟩

/-! ### The end of a CALLED section -/

/-- The record of a move, found in a later state in which the section in force and the show beat stand as the move left
them. -/
theorem State.Moves.entered_later {s v u : State} {w : Walker} {cause : EnterCause} (h : s.Moves w cause v)
    (kept : ∀ r ∈ v.smi.journalQueue, r ∈ u.smi.journalQueue) (clock : u.clock = v.clock)
    (inForce : u.wlk.inForce = w.inForce) (pass : u.wlk.pass = w.pass) (origin : u.wlk.origin = w.origin)
    (beat : u.trk.beat = s.trk.beat) : s.entered u w.modeInForce cause.code := by
  intro room
  rw [clock, h.blocks.2.2.2.2.2.2.2, inForce, pass, origin, beat]
  exact kept _ (h.entered room)

section CalledEnd

variable {v : State} {g : Time} {n : Nat} {x : Section} {c : Nat} (running : v.ctl.engine = .running)
  (inForce : v.wlk.inForce = .sec n) (sec : v.wlk.sec n = some x) (quiet : v.nothingFires) (mode : x.mode = .called)
  (unowed : v.wlk.owedGo = none) (cursor : v.wlk.fireCursor = some c) (past : x.cueEnd ≤ c)
include inForce sec mode unowed

theorem State.takeGo_ready : v.takeGo g = v.goCalled 300 g := by
  rw [State.takeGo_called inForce sec mode, unowed]
  rfl

include running quiet cursor past

/-- With no section to come the show has passed (R61, R73, R175). -/
theorem State.pressGo_last (last : v.wlk.nextSec n = none) :
    v.showPassed (v.pressGo g) ∧ v.entered (v.pressGo g) 0 2 := by
  have takes : v.takeGo g = ((v.passShow .go).overrun n none).testEnd := by
    rw [State.takeGo_ready inForce sec mode unowed, State.goCalled_last inForce sec cursor 299 past last]
  have moves := v.passShow_moves .go n none
  have still := moves.nothingFires quiet
  obtain ⟨trk, sch, -, -, -, -, ctl, clock⟩ := moves.blocks
  generalize (v.passShow .go).overrun n none = w at *
  have mode' := Walker.modeInForce_end
    (w := { v.wlk with inForce := .endOfShow, fireCursor := none, exitFlag := false }) rfl
  by_cases empty : v.sch.armed = []
  · have ends := State.testEnd_ends (ctl ▸ running) moves.inForce (sch ▸ empty)
    have quiet' : w.testEnd.nothingFires := .inr ends.armed
    have offers := State.reviewOffers_moved w.testEnd
    rw [State.pressGo_unfired (by rw [takes]; exact quiet'), takes]
    obtain ⟨trk', -, -, -, -, -, ctl', clock'⟩ := offers.blocks
    have force' := offers.inForce
    have flag' := offers.exitFlag
    have cursor' := offers.fireCursor
    have owed' := offers.owedGo
    have history' := offers.history
    have pass' := offers.pass
    have origin' := offers.origin
    rw [ends.walker] at force' flag' cursor' owed' history' pass' origin'
    rw [show w.testEnd.trk = v.trk.suspended by rw [ends.frame, trk]] at trk'
    refine ⟨⟨force'.trans moves.inForce, cursor'.trans moves.fireCursor, flag'.trans moves.exitFlag,
      fun _ => ⟨by rw [ctl', ends.engine], by rw [trk']; rfl, history', owed'⟩, fun armed => absurd empty armed⟩, ?_⟩
    have entered := moves.entered_later (u := w.testEnd.reviewOffers)
      (fun r there => offers.records r (ends.records r there)) (clock'.trans (by rw [ends.frame]))
      (force'.trans moves.inForce) (pass'.trans moves.pass) (origin'.trans moves.origin) (by rw [trk']; rfl)
    rw [mode'] at entered
    exact entered
  · have stands := State.testEnd_armed (s := w) (sch ▸ empty)
    rw [State.pressGo_unfired (by rw [takes, stands]; exact still), takes, stands]
    have whole := moves.later (State.reviewOffers_moved w)
    obtain ⟨trk', -, -, -, -, -, ctl', clock'⟩ := whole.blocks
    refine ⟨⟨whole.inForce, whole.fireCursor, whole.exitFlag, fun none => absurd none empty,
      fun _ => by rw [ctl']; exact running⟩, ?_⟩
    have entered := whole.entered_later (fun _ h => h) rfl whole.inForce whole.pass whole.origin (by rw [trk'])
    rw [mode'] at entered
    exact entered

/-- A CALLED section follows: it is entered, and the GO acts on its first cue (R61). -/
theorem State.pressGo_nextCalled {m : Nat} {y : Section} (next : v.wlk.nextSec n = some m) (there : v.wlk.sec m = some y)
    (mode' : y.mode = .called) (some_ : 0 < y.cueCount) (handed : (y.firstCue, 1) ∉ v.wlk.unhanded) :
    let u := v.pressGo g
    u.wlk.inForce = .sec m ∧ u.wlk.pass = 1 ∧ u.wlk.fireCursor = some y.firstCue ∧ u.ctl.engine = .running ∧
      u.clock = v.clock ∧ v.entered u 1 2 ∧
      (v.armedEntry y.firstCue 1 = none → u.wlk.owedGo = some g) ∧
      ∀ e, v.armedEntry y.firstCue 1 = some e → e.timing = .waiting →
        u.wlk.owedGo = none ∧ u.armedEntry y.firstCue 1 = some (v.dueByGo g e) := by
  have takes : v.takeGo g = State.goCalled 299 g ((v.enterCalled m y .go).overrun n none) := by
    rw [State.takeGo_ready inForce sec mode unowed, State.goCalled_nextCalled inForce sec cursor 299 past next there mode']
  have moves := v.enterCalled_moves m y .go n none
  have still := moves.nothingFires quiet
  obtain ⟨trk, sch, -, -, -, -, ctl, clock⟩ := moves.blocks
  generalize (v.enterCalled m y .go).overrun n none = w at *
  have force : w.wlk.inForce = .sec m := moves.inForce
  have pass : w.wlk.pass = 1 := moves.pass
  have held : w.wlk.sec m = some y := by
    unfold Walker.sec
    rw [moves.walk]
    exact there
  have stands : w.wlk.fireCursor = some y.firstCue := moves.fireCursor.trans (Walker.called_fireCursor handed)
  have modeIs : (v.wlk.called m y).modeInForce = 1 := by
    rw [Walker.modeInForce_sec (w := v.wlk.called m y) (n := m) (x := y) rfl there, mode']
    rfl
  have before : y.firstCue < y.cueEnd := Nat.lt_add_of_pos_right some_
  have entry (p : Nat) (is : p = 1) : w.armedEntry y.firstCue p = v.armedEntry y.firstCue 1 := by
    rw [is]
    exact moves.armedEntry _ _
  -- what the GO makes of the first cue keeps the section in force, the tracker and the journal
  suffices acts : ∃ z, State.goCalled 299 g w = z ∧ z = { w with wlk := z.wlk, sch := z.sch } ∧
      z.nothingFires ∧
      z.wlk.inForce = w.wlk.inForce ∧ z.wlk.pass = w.wlk.pass ∧ z.wlk.origin = w.wlk.origin ∧
      z.wlk.fireCursor = w.wlk.fireCursor ∧
      (v.armedEntry y.firstCue 1 = none → z.wlk.owedGo = some g) ∧
      ∀ e, v.armedEntry y.firstCue 1 = some e → e.timing = .waiting →
        z.wlk.owedGo = none ∧ z.armedEntry y.firstCue 1 = some (v.dueByGo g e) by
    obtain ⟨z, acts, frame, quiet', force', pass', origin', cursor', none_, some_⟩ := acts
    rw [acts] at takes
    show _ ∧ _
    rw [State.pressGo_unfired (by rw [takes]; exact quiet'), takes]
    have offers := State.reviewOffers_moved z
    obtain ⟨trk'', sch'', -, -, -, -, ctl'', clock''⟩ := offers.blocks
    refine ⟨offers.inForce.trans (force'.trans force), offers.pass.trans (pass'.trans pass),
      offers.fireCursor.trans (cursor'.trans stands), ?_, ?_, ?_, fun unarmed => offers.owedGo.trans (none_ unarmed),
      fun e armed waiting => ?_⟩
    · rw [ctl'', frame]
      exact (congrArg Control.engine ctl).trans running
    · rw [clock'', frame]
      exact clock
    · have entered := moves.entered_later (u := z.reviewOffers)
        (fun r inside => offers.records r (by rw [frame]; exact inside)) (clock''.trans (by rw [frame]))
        (offers.inForce.trans (force'.trans force)) (offers.pass.trans (pass'.trans pass))
        (offers.origin.trans (origin'.trans moves.origin)) (by rw [trk'', frame]; exact congrArg Tracker.beat trk)
      rw [modeIs] at entered
      exact entered
    · obtain ⟨free, due⟩ := some_ e armed waiting
      refine ⟨offers.owedGo.trans free, ?_⟩
      unfold State.armedEntry at due ⊢
      rw [sch'']
      exact due
  cases armed : v.armedEntry y.firstCue 1 with
  | none =>
    have owes := State.goCalled_unarmed (g := g) force held stands 298 before ((entry _ pass).trans armed)
    refine ⟨_, owes, rfl, still, rfl, rfl, rfl, rfl, fun _ => rfl, fun _ same => absurd same nofun⟩
  | some e =>
    have acts := State.goCalled_armed (g := g) force held stands 298 before ((entry _ pass).trans armed)
    have frozen : w.sch.freeze = true := by
      rcases quiet with frozen | empty
      · rw [sch]
        exact frozen
      · unfold State.armedEntry at armed
        rw [empty] at armed
        cases armed
    by_cases due : (!e.copy.isFollow && e.timing == .due) = true
    · rw [if_pos due] at acts
      refine ⟨_, acts, rfl, still, rfl, rfl, rfl, rfl, nofun, fun e' same waiting => ?_⟩
      obtain rfl := Option.some.inj same
      rw [waiting] at due
      exact absurd (Bool.and_eq_true .. ▸ due).2 (by decide)
    · rw [if_neg due] at acts
      refine ⟨_, acts, rfl, .inl frozen, rfl, rfl, rfl, rfl, nofun, fun e' same _ => ?_⟩
      obtain rfl := Option.some.inj same
      refine ⟨moves.owedGo.trans unowed, ?_⟩
      have updated := State.armedEntry_updated (f := w.timeFromGo g) ((entry _ pass).trans armed) fun _ => ⟨rfl, rfl⟩
      rw [pass, State.timeFromGo_due] at updated
      rw [pass, updated]
      refine congrArg some ?_
      unfold State.dueByGo
      rw [moves.cueLead]

/-- A BEAT section follows: it is entered with the tracker LOCKING (R48, R61). -/
theorem State.pressGo_nextBeat {m : Nat} {y : Section} (next : v.wlk.nextSec n = some m) (there : v.wlk.sec m = some y)
    (mode' : y.mode = .beat) :
    let u := v.pressGo g
    u.wlk.inForce = .sec m ∧ u.wlk.pass = 1 ∧ u.wlk.exitFlag = false ∧ u.wlk.fireCursor = none ∧
      u.wlk.origin = (if v.trk.counted then (v.trk.beat : Int) + 1 else (v.trk.beat : Int)) ∧
      u.wlk.walked = (if v.trk.counted then some v.trk.beat else none) ∧
      u.trk.state = .locking ∧ u.trk.period = v.wlk.tempoAt y 1 ∧ u.trk.beat = v.trk.beat ∧ u.trk.ring = [] ∧
      u.ctl.engine = .running ∧ v.entered u 0 2 := by
  have takes : v.takeGo g = (v.enterBeatByGo m y).overrun n none := by
    rw [State.takeGo_ready inForce sec mode unowed, State.goCalled_nextBeat inForce sec cursor 299 past next there mode']
  have moves := v.moves_entered (v.wlk.beatByGo m v.trk) .go
  have enters : v.enterBeatByGo m y = ((v.setWalker (v.wlk.beatByGo m v.trk)).journalEntered .go).lockFromCalled y := rfl
  rw [enters] at takes
  generalize (v.setWalker (v.wlk.beatByGo m v.trk)).journalEntered .go = w at *
  obtain ⟨trk, -, -, -, -, -, ctl, clock⟩ := moves.blocks
  have locks := w.lockFromCalled_frame y
  have still : (w.lockFromCalled y).nothingFires := w.lockFromCalled_quiet y (moves.nothingFires quiet)
  have kept (r : JournalRecord) (inside : r ∈ w.smi.journalQueue) : r ∈ (w.lockFromCalled y).smi.journalQueue :=
    (Show.journaled r).toWalks.lockFromCalled _ _ inside
  generalize w.lockFromCalled y = z at *
  have passed := State.overrun_moved n none z
  have offers := passed.trans (State.reviewOffers_moved _)
  show _ ∧ _
  rw [State.pressGo_unfired (by
    rw [takes, passed.frame]
    exact still), takes]
  generalize (z.overrun n none).reviewOffers = u at *
  obtain ⟨trk', -, -, -, -, -, ctl', clock'⟩ := offers.blocks
  have force' := offers.inForce
  have pass' := offers.pass
  have flag' := offers.exitFlag
  have cursor' := offers.fireCursor
  have origin' := offers.origin
  have walked' := offers.walked
  rw [locks] at trk' ctl' clock' force' pass' flag' cursor' origin' walked'
  have tempo : w.wlk.tempoAt y 1 = v.wlk.tempoAt y 1 := by
    rw [moves.walk]
    rfl
  have modeIs : (v.wlk.beatByGo m v.trk).modeInForce = 0 := by
    rw [Walker.modeInForce_sec (w := v.wlk.beatByGo m v.trk) (n := m) (x := y) rfl there, mode']
    rfl
  have entered := moves.entered_later (u := u) (fun r inside => offers.records r (kept r inside)) clock'
    (force'.trans moves.inForce) (pass'.trans moves.pass) (origin'.trans moves.origin) (by
      rw [trk', ← trk]
      rfl)
  rw [modeIs] at entered
  refine ⟨force'.trans moves.inForce, pass'.trans moves.pass, flag'.trans moves.exitFlag,
    cursor'.trans moves.fireCursor, origin'.trans moves.origin, walked'.trans moves.walked, ?_, ?_, ?_, ?_, ?_, entered⟩
  · rw [trk']
    rfl
  · rw [trk']
    exact tempo
  · rw [trk', ← trk]
    rfl
  · rw [trk']
    rfl
  · rw [ctl', ctl]
    exact running

end CalledEnd

/-! ### Nothing to act on -/

/-- A GO that does not reach the walker: the engine is not RUNNING, nor ARMED at a CALLED section (R159, R160). -/
theorem goPress_idle {s : State} {t : Time} (h : s.acceptsEdge t .go) (idle : s.ctl.engine ≠ .running)
    (notCalled : s.ctl.engine = .armed → s.inCalledSection = false) :
    ∃ u, exec (.go t) s = .next u ∧ s.goIgnored u 1 := by
  have routed : (s.edgeTaken t .go).routeGo = (s.edgeTaken t .go).ignoreDesk .go .engineState := by
    have called : (s.edgeTaken t .go).inCalledSection = s.inCalledSection := rfl
    unfold State.routeGo
    cases engine : s.ctl.engine <;> rw [show (s.edgeTaken t .go).ctl.engine = _ from engine]
    case running => exact absurd engine idle
    case armed =>
      dsimp only
      rw [called, notCalled engine]
      rfl
  refine ⟨_, execGo_accepted h, ?_⟩
  rw [routed]
  exact State.goIgnored_moved (.refl _) rfl

/-- Settles O47: a GO at the fire cursor is `goPress_cue`; at the section's end the three continuations of the running
order are `State.pressGo_last`, `State.pressGo_nextCalled` and `State.pressGo_nextBeat`. -/
theorem goPressed : Obligations.GoPressed := by
  unfold Obligations.GoPressed
  refine ⟨fun t s n x h running inForce sec quiet mode vamp clear =>
      goPress_exits h running inForce sec quiet mode vamp clear,
    fun t s n x c h engine inForce sec mode unowed cursor before quiet =>
      goPress_cue h engine inForce sec mode unowed cursor before quiet,
    fun t s n x c h running inForce sec quiet mode unowed cursor past => ?_, fun t s h quiet => ⟨?_, ?_, ?_⟩⟩
  · refine ⟨_, execGo_running h running, fun last => ?_, fun m y next there => ⟨fun beat => ?_, fun called some_ handed => ?_⟩⟩
    · exact State.pressGo_last (v := s.edgeTaken t .go) running inForce sec quiet mode unowed cursor past last
    · exact State.pressGo_nextBeat (v := s.edgeTaken t .go) running inForce sec quiet mode unowed cursor past next there
        beat
    · obtain ⟨force, pass, stands, engine, clock, entered, owes, due⟩ := State.pressGo_nextCalled
        (v := s.edgeTaken t .go) (g := max s.clock t) running inForce sec quiet mode unowed cursor past next there called
        some_ handed
      rw [show ((s.edgeTaken t .go).pressGo (max s.clock t)).clock = max s.clock t from clock]
      exact ⟨force, pass, stands, engine, entered, owes, due⟩
  · exact fun idle notCalled => goPress_idle h idle notCalled
  · intro running inForce
    refine goPress_turnedAway (reason := .showPassed) h running quiet ?_
    unfold State.takeGo
    rw [show (s.edgeTaken t .go).wlk.inForce = .endOfShow from inForce]
  · intro n x running inForce sec
    refine ⟨fun mode vamp => goPress_turnedAway (reason := .beatSection) h running quiet ?_,
      fun mode vamp set => goPress_turnedAway (reason := .exitAlreadySet) h running quiet ?_,
      fun mode owed => goPress_turnedAway (reason := .goOwed) h running quiet ?_⟩
    · rw [State.takeGo_beat (s := s.edgeTaken t .go) inForce sec mode, vamp]
      rfl
    · rw [State.takeGo_beat (s := s.edgeTaken t .go) inForce sec mode, vamp, show (s.edgeTaken t .go).wlk = s.wlk from rfl,
        set]
      rfl
    · rw [State.takeGo_called (s := s.edgeTaken t .go) inForce sec mode]
      exact if_pos (Option.isSome_iff_ne_none.mpr owed)

end Sys2Proof.Machine
end

section
/-! The beats handed to the walker (R35 step 1, R54, R55): what mapping one beat and a run of beats can do. -/

namespace Sys2Proof.Machine

/-! ### The section in force -/

/-- The mode of the section in force is a matter of the script and the walk alone. -/
theorem State.modeInForce_congr {s u : State} (inForce : u.wlk.inForce = s.wlk.inForce)
    (script : u.wlk.script = s.wlk.script) :
    u.inCalledSection = s.inCalledSection ∧ u.inBeatSection = s.inBeatSection := by
  have sec (n : Nat) : u.wlk.sec n = s.wlk.sec n := by
    unfold Walker.sec
    rw [script]
  unfold State.inCalledSection State.inBeatSection
  rw [inForce]
  simp only [sec, and_self]

theorem State.inCalledSection_sec {s : State} {n : Nat} {x : Section} (inForce : s.wlk.inForce = .sec n)
    (sec : s.wlk.sec n = some x) : s.inCalledSection = decide (x.mode = .called) := by
  unfold State.inCalledSection
  rw [inForce]
  dsimp only
  rw [sec]
  rfl

theorem State.inBeatSection_sec {s : State} {n : Nat} {x : Section} (inForce : s.wlk.inForce = .sec n)
    (sec : s.wlk.sec n = some x) : s.inBeatSection = decide (x.mode = .beat) := by
  unfold State.inBeatSection
  rw [inForce]
  dsimp only
  rw [sec]
  rfl

theorem State.inCalledSection_end {s : State} (inForce : s.wlk.inForce = .endOfShow) :
    s.inCalledSection = false ∧ s.inBeatSection = false := by
  unfold State.inCalledSection State.inBeatSection
  rw [inForce]
  exact ⟨rfl, rfl⟩

/-- No section is both CALLED and BEAT. -/
theorem State.notBeat_of_called {s : State} (called : s.inCalledSection = true) : s.inBeatSection = false := by
  unfold State.inCalledSection at called
  unfold State.inBeatSection
  cases inForce : s.wlk.inForce with
  | none => rfl
  | endOfShow => rfl
  | sec n =>
    rw [inForce] at called
    dsimp only at called ⊢
    cases sec : s.wlk.sec n with
    | none => rfl
    | some x =>
      rw [sec] at called
      have mode : x.mode = .called := of_decide_eq_true called
      show (x.mode == .beat) = false
      rw [mode]
      rfl

/-! ### One beat -/

/-- The walker has found the bar of beat `b` (R54). -/
def State.barFound (b n bar beat : Nat) (r : Bar) (s : State) : State :=
  (s.setWalker { s.wlk with
    walked := some b, position := some { sec := n, pass := s.wlk.pass, bar := bar, beat := beat } }).setTracker
      { s.trk with facts := r.facts beat }

section Mapping

variable {s : State} {b : Nat}

theorem State.mapBeat_end (ended : s.wlk.inForce = .endOfShow) : ∃ w : Walker,
    w.inForce = .endOfShow ∧ w.script = s.wlk.script ∧
      (s.mapBeat b).1 = (s.setWalker w).setTracker { s.trk with facts := notionalBar } ∧
      (s.mapBeat b).2.moved = false := by
  refine ⟨{ s.wlk with walked := if (s.wlk.walked.any fun v => decide (b ≤ v)) then s.wlk.walked else some b },
    ended, rfl, ?_⟩
  unfold State.mapBeat
  rw [ended]
  exact ⟨rfl, rfl⟩

theorem State.mapBeat_none (unset : s.wlk.inForce = .none) : s.mapBeat b = (s, ⟨false, false⟩) := by
  unfold State.mapBeat
  rw [unset]

variable {n : Nat} (inForce : s.wlk.inForce = .sec n)
include inForce

theorem State.mapBeat_again (again : (s.wlk.walked.any fun v => decide (b ≤ v)) = true) :
    s.mapBeat b = (s, ⟨false, false⟩) := by
  unfold State.mapBeat
  rw [inForce]
  exact if_pos again

theorem State.mapBeat_unheld (unheld : s.wlk.sec n = none) : s.mapBeat b = (s, ⟨false, false⟩) := by
  unfold State.mapBeat
  rw [inForce]
  dsimp only
  rw [unheld]
  exact ite_self _

variable {x : Section} (sec : s.wlk.sec n = some x)
include sec

theorem State.mapBeat_outside (outside : findBar (s.wlk.barsOf x) 1 ((b : Int) - s.wlk.origin).toNat = none) :
    s.mapBeat b = (s, ⟨false, false⟩) := by
  unfold State.mapBeat
  rw [inForce]
  dsimp only
  rw [sec]
  dsimp only
  rw [outside]
  exact ite_self _

variable (fresh : (s.wlk.walked.any fun v => decide (b ≤ v)) = false) {bar beat : Nat} {r : Bar}
  (found : findBar (s.wlk.barsOf x) 1 ((b : Int) - s.wlk.origin).toNat = some (bar, beat, r))
include fresh found

theorem State.mapBeat_within (within : ((b : Int) - s.wlk.origin).toNat + 1 ≠ s.wlk.lengthOf x) :
    s.mapBeat b = ((s.barFound b n bar beat r).reviewOffers, ⟨true, false⟩) := by
  unfold State.mapBeat
  rw [inForce]
  dsimp only
  rw [fresh, sec]
  dsimp only
  rw [found]
  exact (if_neg nofun).trans (if_neg within)

theorem State.mapBeat_final (final : ((b : Int) - s.wlk.origin).toNat + 1 = s.wlk.lengthOf x) :
    s.mapBeat b = (((s.barFound b n bar beat r).endPass n x b).1.reviewOffers,
      ⟨true, ((s.barFound b n bar beat r).endPass n x b).2⟩) := by
  unfold State.mapBeat
  rw [inForce]
  dsimp only
  rw [fresh, sec]
  dsimp only
  rw [found]
  exact (if_neg nofun).trans (if_pos final)

end Mapping

/-! ### The end of a pass -/

section PassEnd

variable {s : State} (n : Nat) (x : Section) (b : Nat)

/-- The walker in the next pass of a vamp. -/
def Walker.nextPass (b : Nat) (w : Walker) : Walker :=
  { w with pass := min Config.passMax (w.pass + 1), origin := (b : Int) + 1 }

/-- The walker as a beat takes it into the BEAT section `m`. -/
def Walker.beatEntered (m b : Nat) (w : Walker) : Walker :=
  { w with inForce := .sec m, pass := 1, origin := (b : Int) + 1, exitFlag := false }

/-- The walker at END. -/
def Walker.shown (w : Walker) : Walker := { w with inForce := .endOfShow, fireCursor := none, exitFlag := false }

theorem State.endPass_vamp (vamp : (x.vamp && !s.wlk.exitFlag) = true) : s.endPass n x b =
    (((s.setWalker (s.wlk.nextPass b)).journalEntered .beat).overrun n (some s.wlk.origin), false) := by
  unfold State.endPass
  exact if_pos vamp

variable (leaves : (x.vamp && !s.wlk.exitFlag) = false)
include leaves

theorem State.endPass_last (last : ((s.wlk.nextSec n).bind fun m => (s.wlk.sec m).map fun y => (m, y)) = none) :
    s.endPass n x b = (((s.setWalker s.wlk.shown).journalEntered .beat).overrun n (some s.wlk.origin), false) := by
  unfold State.endPass
  rw [leaves, last]
  rfl

theorem State.endPass_called {m : Nat} {y : Section} (next : s.wlk.nextSec n = some m) (there : s.wlk.sec m = some y)
    (mode : y.mode = .called) : s.endPass n x b =
      (((s.setWalker (s.wlk.called m y)).journalEntered .beat).overrun n (some s.wlk.origin), true) := by
  unfold State.endPass
  rw [leaves, next, Option.bind_some, there, Option.map_some]
  dsimp only
  rw [mode]
  rfl

theorem State.endPass_beat {m : Nat} {y : Section} (next : s.wlk.nextSec n = some m) (there : s.wlk.sec m = some y)
    (mode : y.mode = .beat) : s.endPass n x b =
      (((s.setWalker (s.wlk.beatEntered m b)).journalEntered .beat).overrun n (some s.wlk.origin), false) := by
  unfold State.endPass
  rw [leaves, next, Option.bind_some, there, Option.map_some]
  dsimp only
  rw [mode]
  rfl

end PassEnd

/-- Whatever row applies, the end of a pass moves the section in force, and reports a CALLED section (R55). -/
theorem State.endPass_moves (n : Nat) (x : Section) (b : Nat) (s : State) : ∃ w,
    s.Moves w .beat (s.endPass n x b).1 ∧ w.script = s.wlk.script ∧
      ((s.endPass n x b).2 = true → (s.setWalker w).inCalledSection = true) ∧
      (s.inCalledSection = false → (s.endPass n x b).2 = false → (s.setWalker w).inCalledSection = false) := by
  have moves (w : Walker) : s.Moves w .beat
      (((s.setWalker w).journalEntered .beat).overrun n (some s.wlk.origin)) :=
    (s.moves_entered w .beat).later (State.overrun_moved n _ _)
  cases vamp : x.vamp && !s.wlk.exitFlag with
  | true =>
    rw [State.endPass_vamp n x b vamp]
    exact ⟨_, moves _, rfl, nofun, fun beat _ => beat⟩
  | false =>
    cases goal : (s.wlk.nextSec n).bind fun m => (s.wlk.sec m).map fun y => (m, y) with
    | none =>
      rw [State.endPass_last n x b vamp goal]
      exact ⟨_, moves _, rfl, nofun, fun _ _ => (State.inCalledSection_end (s := s.setWalker s.wlk.shown) rfl).1⟩
    | some p =>
      obtain ⟨m, next, y, there, rfl⟩ : ∃ m, s.wlk.nextSec n = some m ∧ ∃ y, s.wlk.sec m = some y ∧ (m, y) = p := by
        simpa [Option.bind_eq_some_iff, Option.map_eq_some_iff] using goal
      cases mode : y.mode with
      | called =>
        rw [State.endPass_called n x b vamp next there mode]
        refine ⟨_, moves _, rfl, fun _ => ?_, fun _ => nofun⟩
        rw [State.inCalledSection_sec (s := s.setWalker (s.wlk.called m y)) (n := m) (x := y) rfl there]
        exact decide_eq_true mode
      | beat =>
        rw [State.endPass_beat n x b vamp next there mode]
        refine ⟨_, moves _, rfl, nofun, fun _ _ => ?_⟩
        rw [State.inCalledSection_sec (s := s.setWalker (s.wlk.beatEntered m b)) (n := m) (x := y) rfl there, mode]
        rfl

/-! ### A run of beats -/

theorem findBar_mem {bars : List Bar} {n d : Nat} {p : Nat × Nat × Bar} (found : findBar bars n d = some p) :
    p.2.2 ∈ bars := by
  induction bars generalizing n d with
  | nil => cases found
  | cons r rs ih =>
    unfold findBar at found
    split at found
    · cases found
      exact List.mem_cons_self
    · exact List.mem_cons_of_mem _ (ih found)

/-- Without tempo marks in the script no bar found has one. -/
theorem State.unmarked_found {s : State} (unmarked : s.unmarked) {x : Section} {n d : Nat} {p : Nat × Nat × Bar}
    (found : findBar (s.wlk.barsOf x) n d = some p) : p.2.2.mark = 0 := by
  have inside := findBar_mem found
  unfold Walker.barsOf at inside
  cases script : s.wlk.script with
  | none =>
    rw [script] at inside
    cases inside
  | some sc =>
    rw [script] at inside
    exact unmarked sc script _ (List.mem_of_mem_drop (List.mem_of_mem_take inside))

/-- Beats have been handed over, and the bar corrected: the show beat, the bar facts, the absorb count and the last real
beat have moved, with the walk and the journal. -/
structure State.BeatsHanded (s u : State) : Prop where
  frame : u = { s with
    trk := { s.trk with beat := u.trk.beat, facts := u.trk.facts, absorb := u.trk.absorb, bReal := u.trk.bReal }
    wlk := u.wlk, smi := u.smi }
  script : u.wlk.script = s.wlk.script

namespace State.BeatsHanded

theorem refl (s : State) : s.BeatsHanded s := ⟨rfl, rfl⟩

theorem trans {s u v : State} (h : s.BeatsHanded u) (g : u.BeatsHanded v) : s.BeatsHanded v where
  frame := by
    have first := h.frame
    have second := g.frame
    rw [first] at second
    exact second
  script := g.script.trans h.script

theorem of_offers {s u : State} (h : s.OffersMoved u) : s.BeatsHanded u where
  frame := by
    have frame := h.frame
    generalize u.wlk = w, u.smi = m at frame
    subst frame
    rfl
  script := by rw [h.walk]

theorem unmarked {s u : State} (h : s.BeatsHanded u) (unmarked : s.unmarked) : u.unmarked := by
  unfold State.unmarked
  rw [h.script]
  exact unmarked

end State.BeatsHanded

theorem State.OffersMoved.called {s u : State} (h : s.OffersMoved u) : u.inCalledSection = s.inCalledSection :=
  (State.modeInForce_congr h.inForce (by rw [h.walk])).1

/-- What mapping one beat can do (R54, R55). -/
structure State.MapDone (s : State) (q : State × Mapped) : Prop where
  handed : s.BeatsHanded q.1
  trk : q.1.trk = { s.trk with facts := q.1.trk.facts }
  called : q.2.moved = true → q.1.inCalledSection = true
  stays : s.inCalledSection = false → q.2.moved = false → q.1.inCalledSection = false
  unmarked : s.unmarked → q.2.fresh = true → q.1.trk.facts.mark = 0

theorem State.MapDone.stands (s : State) : s.MapDone (s, ⟨false, false⟩) :=
  ⟨.refl s, rfl, nofun, fun called _ => called, fun _ => nofun⟩

theorem State.mapBeat_done (b : Nat) (s : State) : s.MapDone (s.mapBeat b) := by
  cases inForce : s.wlk.inForce with
  | none => exact State.mapBeat_none inForce ▸ .stands s
  | endOfShow =>
    obtain ⟨w, ended, script, moved, unmoved⟩ := State.mapBeat_end (b := b) inForce
    constructor <;> rw [moved]
    case handed => exact ⟨rfl, script⟩
    case trk => rfl
    case called => exact fun yes => absurd (unmoved.symm.trans yes) nofun
    case stays => exact fun _ _ => (State.inCalledSection_end (s := (s.setWalker w).setTracker _) ended).1
    case unmarked => exact fun _ _ => rfl
  | sec n =>
    cases again : s.wlk.walked.any fun v => decide (b ≤ v) with
    | true => exact State.mapBeat_again inForce again ▸ .stands s
    | false =>
      cases sec : s.wlk.sec n with
      | none => exact State.mapBeat_unheld inForce sec ▸ .stands s
      | some x =>
        cases found : findBar (s.wlk.barsOf x) 1 ((b : Int) - s.wlk.origin).toNat with
        | none => exact State.mapBeat_outside inForce sec found ▸ .stands s
        | some p =>
          obtain ⟨bar, beat, r⟩ := p
          have unmarked (h : s.unmarked) : (r.facts beat).mark = 0 := State.unmarked_found h found
          by_cases final : ((b : Int) - s.wlk.origin).toNat + 1 = s.wlk.lengthOf x
          · rw [State.mapBeat_final inForce sec again found final]
            obtain ⟨w, moves, script, called, stays⟩ := (s.barFound b n bar beat r).endPass_moves n x b
            have whole := moves.later (State.reviewOffers_moved _)
            have kept : ((s.barFound b n bar beat r).endPass n x b).1.reviewOffers.wlk.script = s.wlk.script :=
              (congrArg Walker.script whole.walk).trans script
            have mode := (State.modeInForce_congr (s := (s.barFound b n bar beat r).setWalker w) whole.inForce
              (kept.trans script.symm)).1
            have frame := whole.frame
            generalize ((s.barFound b n bar beat r).endPass n x b).1.reviewOffers = u at *
            have trk : u.trk = { s.trk with facts := r.facts beat } := by
              rw [frame]
              rfl
            constructor
            case handed => exact ⟨by rw [frame]; rfl, kept⟩
            case trk => rw [trk]
            case called => exact fun moved => mode.trans (called moved)
            case stays => exact fun beat still => mode.trans (stays beat still)
            case unmarked =>
              intro h _
              rw [trk]
              exact unmarked h
          · rw [State.mapBeat_within inForce sec again found final]
            have offers := State.reviewOffers_moved (s.barFound b n bar beat r)
            have handed : s.BeatsHanded (s.barFound b n bar beat r) := ⟨rfl, rfl⟩
            have trk := offers.blocks.1
            constructor
            case handed => exact handed.trans (.of_offers offers)
            case trk =>
              rw [trk]
              rfl
            case called => exact nofun
            case stays => exact fun called _ => offers.called.trans called
            case unmarked =>
              intro h _
              rw [trk]
              exact unmarked h

/-- What a run of beats can do (R35 step 1): the show beat follows to the last of them, or stops at a move into a CALLED
section. -/
structure State.RunDone (s : State) (b n : Nat) (r : RunResult) (q : State × RunResult) : Prop where
  handed : s.BeatsHanded q.1
  dated : q.1.trk.absorb = s.trk.absorb ∧ q.1.trk.bReal = s.trk.bReal
  beat : (n = 0 ∧ q.1.trk.beat = s.trk.beat) ∨ (0 < n ∧ q.1.trk.beat = b + n - 1) ∨
    (q.2.moved = true ∧ b ≤ q.1.trk.beat ∧ q.1.trk.beat < b + n - 1)
  count : q.2.count = r.count + n ∨ q.2.moved = true
  called : q.2.moved = true → q.1.inCalledSection = true
  stays : s.inCalledSection = false → q.2.moved = false → q.1.inCalledSection = false
  unmarked : s.unmarked → r.mark = none → q.2.mark = none

theorem State.runBeats_succ (n b : Nat) (r : RunResult) (s : State) : ∃ r' : RunResult,
    r'.moved = ((s.setTracker { s.trk with beat := b }).mapBeat b).2.moved ∧ r'.count = r.count + 1 ∧
      (s.unmarked → r.mark = none → r'.mark = none) ∧
      s.runBeats (n + 1) b r = if r'.moved then (((s.setTracker { s.trk with beat := b }).mapBeat b).1, r')
        else State.runBeats n (b + 1) r' ((s.setTracker { s.trk with beat := b }).mapBeat b).1 := by
  refine ⟨{
    mark := if ((s.setTracker { s.trk with beat := b }).mapBeat b).2.fresh &&
        ((s.setTracker { s.trk with beat := b }).mapBeat b).1.trk.facts.beatInBar == 1 &&
        ((s.setTracker { s.trk with beat := b }).mapBeat b).1.trk.facts.mark != 0
      then some ((s.setTracker { s.trk with beat := b }).mapBeat b).1.trk.facts.mark else r.mark
    moved := ((s.setTracker { s.trk with beat := b }).mapBeat b).2.moved, count := r.count + 1 },
    rfl, rfl, fun unmarked none => ?_, rfl⟩
  refine (if_neg fun marked => ?_).trans none
  rw [Bool.and_eq_true, Bool.and_eq_true] at marked
  have done := (s.setTracker { s.trk with beat := b }).mapBeat_done b
  have zero := done.unmarked unmarked marked.1.1
  rw [zero] at marked
  exact absurd marked.2 (by decide)

theorem State.runBeats_done (n b : Nat) (r : RunResult) (s : State) (unmoved : r.moved = false) :
    s.RunDone b n r (s.runBeats n b r) := by
  induction n generalizing b r s with
  | zero =>
    exact ⟨.refl s, ⟨rfl, rfl⟩, .inl ⟨rfl, rfl⟩, .inl rfl, fun moved => absurd (unmoved.symm.trans moved) nofun,
      fun called _ => called, fun _ none => none⟩
  | succ n ih =>
    obtain ⟨r', moved, count, marks, run⟩ := s.runBeats_succ n b r
    have done := (s.setTracker { s.trk with beat := b }).mapBeat_done b
    have begun : s.BeatsHanded (s.setTracker { s.trk with beat := b }) := ⟨rfl, rfl⟩
    have first := begun.trans done.handed
    have trk := done.trk
    have called := done.called
    have stays := done.stays
    rw [← moved] at called stays
    generalize ((s.setTracker { s.trk with beat := b }).mapBeat b).1 = z at *
    rw [run]
    cases ends : r'.moved with
    | true =>
      refine ⟨first, ?_, ?_, .inr ends, called, fun _ still => absurd (ends.symm.trans still) nofun, marks⟩
      · show z.trk.absorb = _ ∧ z.trk.bReal = _
        rw [trk]
        exact ⟨rfl, rfl⟩
      · have beat : z.trk.beat = b := by rw [trk]; rfl
        show _ ∨ (_ ∧ z.trk.beat = _) ∨ (_ ∧ b ≤ z.trk.beat ∧ z.trk.beat < _)
        cases n with
        | zero => exact .inr (.inl ⟨by omega, by omega⟩)
        | succ k => exact .inr (.inr ⟨ends, by omega, by omega⟩)
    | false =>
      have rest := ih (b + 1) r' z ends
      have beat := rest.beat
      have count' := rest.count
      obtain ⟨absorb, real⟩ := rest.dated
      generalize hq : State.runBeats n (b + 1) r' z = q at *
      show s.RunDone b (n + 1) r q
      refine ⟨first.trans rest.handed, ?_, ?_, ?_, rest.called, fun not still => rest.stays (stays not ends) still,
        fun unmarked none => rest.unmarked (first.unmarked unmarked) (marks unmarked none)⟩
      · rw [absorb, real, trk]
        exact ⟨rfl, rfl⟩
      · have start : z.trk.beat = b := by rw [trk]; rfl
        rcases beat with ⟨none, same⟩ | ⟨some_, last⟩ | ⟨left, low, high⟩
        · exact .inr (.inl ⟨by omega, by omega⟩)
        · exact .inr (.inl ⟨by omega, by omega⟩)
        · exact .inr (.inr ⟨left, by omega, by omega⟩)
      · rcases count' with all | left
        · exact .inl (by omega)
        · exact .inr left

end Sys2Proof.Machine
end

section
/-! Settling a counted beat (R35 to R37) with nothing that may fire: the tracker, the armed list, the automatic end. -/

namespace Sys2Proof.Machine

/-! ### The walk of a settled beat -/

/-- The beats of a counted beat handed over, the last real beat noted, and the bar corrected (R35, R43). -/
def State.settleWalk (how : Settle) (first n : Nat) (s : State) : State × RunResult :=
  let q := s.handRun first n
  let v := if how.isReal then q.1.setTracker { q.1.trk with bReal := q.1.trk.beat } else q.1
  if how.corrects && !q.2.moved then v.correctBar q.2 else (v, q.2)

/-- What the walk of a settled beat leaves. -/
structure State.WalkDone (s : State) (how : Settle) (q : State × RunResult) : Prop where
  handed : s.BeatsHanded q.1
  real : q.1.trk.bReal = if how.isReal then q.1.trk.beat else s.trk.bReal
  called : q.2.moved = true → q.1.inCalledSection = true
  stays : s.inCalledSection = false → q.2.moved = false → q.1.inCalledSection = false
  unmarked : s.unmarked → q.2.mark = none

theorem State.handRun_done (first n : Nat) (s : State) : ∃ b k, 0 < k ∧ s.RunDone b k .start (s.handRun first n) ∧
    b + k - 1 = (if n = 0 then s.trk.beat else first + n - 1) ∧ (1 < k → 1 < n) := by
  unfold State.handRun
  split
  · exact ⟨_, 1, Nat.one_pos, State.runBeats_done _ _ _ _ rfl, rfl, fun more => absurd more (Nat.lt_irrefl 1)⟩
  · exact ⟨_, n, by omega, State.runBeats_done _ _ _ _ rfl, rfl, id⟩

/-- The bar correction of a DOWNBEAT (R43, R44). -/
theorem State.correctBar_done {v : State} {r : RunResult} (real : v.trk.bReal = v.trk.beat) (unmoved : r.moved = false)
    (unmarked : v.unmarked → r.mark = none) : v.WalkDone ⟨true, true, true⟩ (v.correctBar r) := by
  have stands (k : Nat) : v.WalkDone ⟨true, true, true⟩ (v.setTracker { v.trk with absorb := k }, r) :=
    ⟨⟨rfl, rfl⟩, real, fun moved => absurd (unmoved.symm.trans moved) nofun, fun called _ => called, unmarked⟩
  have journaled {q : State × RunResult} (h : v.WalkDone ⟨true, true, true⟩ q) (m n : Nat) (a : Int) :
      v.WalkDone ⟨true, true, true⟩ (q.1.journalCorrection m n a, q.2) := by
    have frame : q.1.journalCorrection m n a = { q.1 with smi := (q.1.journalCorrection m n a).smi } :=
      State.journalAt_onlyBus _ _ (State.onlyBus_refl _)
    obtain ⟨handed, real, called, stays, unmarked⟩ := h
    have mode := (State.modeInForce_congr (s := q.1) (u := q.1.journalCorrection m n a) (by rw [frame]) (by rw [frame])).1
    refine ⟨?_, by rw [frame]; exact real, fun moved => mode.trans (called moved),
      fun not still => mode.trans (stays not still), unmarked⟩
    generalize q.1.journalCorrection m n a = u at *
    exact handed.trans ⟨by rw [frame], by rw [frame]⟩
  unfold State.correctBar
  dsimp only
  split
  · exact stands 0
  · split
    · have run := State.runBeats_done (v.trk.facts.beats - v.trk.facts.beatInBar + 1) (v.trk.beat + 1)
        { r with count := 0 } (v.setTracker { v.trk with absorb := 0 }) unmoved
      obtain ⟨handed, -, -, -, called, stays, marks⟩ := run
      generalize State.runBeats (v.trk.facts.beats - v.trk.facts.beatInBar + 1) (v.trk.beat + 1)
        { r with count := 0 } (v.setTracker { v.trk with absorb := 0 }) = q at *
      have begun : v.BeatsHanded (v.setTracker { v.trk with absorb := 0 }) := ⟨rfl, rfl⟩
      have noted : q.1.BeatsHanded (q.1.setTracker { q.1.trk with bReal := q.1.trk.beat }) := ⟨rfl, rfl⟩
      exact journaled (q := (q.1.setTracker { q.1.trk with bReal := q.1.trk.beat }, q.2))
        ⟨begun.trans (handed.trans noted), rfl, called, stays, fun h => marks h (unmarked h)⟩ _ _ _
    · exact journaled (stands (v.trk.facts.beatInBar - 1)) _ _ _

theorem State.settleWalk_done {how : Settle} (first n : Nat) (s : State) (corrects : how.corrects = true → how.isReal = true) :
    s.WalkDone how (s.settleWalk how first n) ∧ (how.corrects = false →
      (s.settleWalk how first n).1.trk.absorb = s.trk.absorb ∧
      ((s.settleWalk how first n).1.trk.beat = (if n = 0 then s.trk.beat else first + n - 1) ∨
        (1 < n ∧ (s.settleWalk how first n).2.moved = true ∧
          (s.settleWalk how first n).1.trk.beat < (if n = 0 then s.trk.beat else first + n - 1)))) := by
  obtain ⟨b, k, some_, run, last, several⟩ := s.handRun_done first n
  obtain ⟨handed, ⟨absorb, real⟩, beat, -, called, stays, marks⟩ := run
  unfold State.settleWalk
  generalize s.handRun first n = q at *
  dsimp only
  have dated : q.1.trk.beat = b + k - 1 ∨ (1 < n ∧ q.2.moved = true ∧ q.1.trk.beat < b + k - 1) := by
    rcases beat with ⟨none, -⟩ | ⟨-, last⟩ | ⟨moved, from_, early⟩
    · omega
    · exact .inl last
    · exact .inr ⟨several (by omega), moved, early⟩
  rw [last] at dated
  cases isReal : how.isReal with
  | false =>
    have plain : how.corrects = false := by
      cases h : how.corrects with
      | false => rfl
      | true => exact absurd (isReal.symm.trans (corrects h)) nofun
    rw [plain]
    refine ⟨⟨handed, ?_, called, stays, fun h => marks h rfl⟩, fun _ => ⟨absorb, dated⟩⟩
    rw [isReal]
    exact real
  | true =>
    have noted : q.1.BeatsHanded (q.1.setTracker { q.1.trk with bReal := q.1.trk.beat }) := ⟨rfl, rfl⟩
    have done : s.WalkDone how (q.1.setTracker { q.1.trk with bReal := q.1.trk.beat }, q.2) :=
      ⟨handed.trans noted, (if_pos isReal).symm, called, stays, fun h => marks h rfl⟩
    cases corrected : how.corrects && !q.2.moved with
    | false => exact ⟨done, fun _ => ⟨absorb, dated⟩⟩
    | true =>
      rw [Bool.and_eq_true, Bool.not_eq_true'] at corrected
      obtain ⟨down, unmoved⟩ := corrected
      have corr := State.correctBar_done (v := q.1.setTracker { q.1.trk with bReal := q.1.trk.beat }) (r := q.2) rfl
        unmoved fun h => marks (by
          unfold State.unmarked at h ⊢
          rw [show (q.1.setTracker { q.1.trk with bReal := q.1.trk.beat }).wlk.script = s.wlk.script from handed.script] at h
          exact h) rfl
      obtain ⟨handed', real', called', stays', unmarked'⟩ := corr
      refine ⟨⟨done.handed.trans handed', real'.trans (if_pos isReal).symm, called',
        fun not still => stays' (stays not unmoved) still, fun h => unmarked' (done.handed.unmarked h)⟩,
        fun plain => absurd (plain.symm.trans down) nofun⟩

/-! ### The hand-over -/

/-- The tracker under a tempo mark (R36). -/
def Tracker.marked (mark : Option Nat) (k : Tracker) : Tracker :=
  match mark with
  | none => k
  | some n => { k with period := n * 100, ring := [], confidence := .loose }

/-- The tracker as a settled beat leaves it: SUSPENDED when the show has moved into a CALLED section, under the tempo
mark reached, and with its timeout (R35 to R37, R50). -/
def Tracker.settled (arms : Bool) (r : RunResult) (k : Tracker) : Tracker :=
  let k := (if r.moved then k.suspended else k).marked r.mark
  { k with timeout := if arms then k.timeoutAfter else none }

/-- A settled beat after its walk, up to firing. -/
def State.settleHand (how : Settle) (q : State × RunResult) : State :=
  let s := if q.2.moved then (q.1.setTracker q.1.trk.suspended).journalTracker q.1.trk.state .sectionChange else q.1
  let s := s.applyMark q.2.mark
  let s := s.setTracker { s.trk with timeout := if how.arms then s.trk.timeoutAfter else none }
  s.handBeat q.2.moved

theorem State.settle_eq (how : Settle) (first n : Nat) (s : State) : s.settle how first n =
    if s.wlk.inForce == .endOfShow then (State.settleHand how (s.settleWalk how first n)).fireAll
    else (State.settleHand how (s.settleWalk how first n)).fireAll.testEnd := rfl

theorem State.applyMark_eq (mark : Option Nat) (s : State) : s.applyMark mark = s.setTracker (s.trk.marked mark) := by
  cases mark <;> rfl

/-- A prediction looks at the view handed over, the clock, the screens and the links alone. -/
theorem State.repredict_congr {s u : State} (view : u.sch.view = s.sch.view) (clock : u.clock = s.clock)
    (arb : u.arb = s.arb) (links : u.links = s.links) (moved : Bool) (e : Armed) :
    u.repredict moved e = s.repredict moved e := by
  have lead (c : Cue) : u.cueLead c = s.cueLead c := by
    unfold State.cueLead State.addressed State.addresses State.leadOf State.isMonitor State.screen State.link
    rw [arb, links]
  unfold State.repredict State.gate State.predict
  rw [view, clock]
  simp only [lead]

/-- The hand-over of a settled beat: the tracker as `Tracker.settled` says, each entry predicted and gated under it. -/
theorem State.settleHand_frame (how : Settle) (q : State × RunResult) :
    State.settleHand how q = { q.1 with
      trk := q.1.trk.settled how.arms q.2, sch := (State.settleHand how q).sch, smi := (State.settleHand how q).smi } ∧
    (State.settleHand how q).sch.freeze = q.1.sch.freeze ∧
    (State.settleHand how q).sch.view = (State.settleHand how q).currentView ∧
    (State.settleHand how q).sch.armed = q.1.sch.armed.map ((State.settleHand how q).repredict q.2.moved) ∧
    (q.2.moved = false → (State.settleHand how q).smi = q.1.smi) := by
  have hand (v : State) (moved : Bool) : v.handBeat moved = { v with sch := { v.sch with
      view := v.currentView, armed := v.sch.armed.map ((v.handBeat moved).repredict moved) } } := by
    have same : ((v.handBeat moved).repredict moved) = ((v.setView v.currentView).repredict moved) :=
      funext fun e => State.repredict_congr rfl rfl rfl rfl moved e
    rw [same]
    rfl
  have begun : ∃ v : State, v = { q.1 with trk := q.1.trk.settled how.arms q.2, smi := v.smi } ∧
      State.settleHand how q = v.handBeat q.2.moved ∧ (q.2.moved = false → v.smi = q.1.smi) := by
    unfold State.settleHand Tracker.settled
    dsimp only
    rw [State.applyMark_eq]
    cases q.2.moved with
    | false => exact ⟨_, rfl, rfl, fun _ => rfl⟩
    | true =>
      have frame : (q.1.setTracker q.1.trk.suspended).journalTracker q.1.trk.state .sectionChange =
          { q.1.setTracker q.1.trk.suspended with
            smi := ((q.1.setTracker q.1.trk.suspended).journalTracker q.1.trk.state .sectionChange).smi } :=
        State.journalAt_onlyBus _ _ (State.onlyBus_refl _)
      refine ⟨_, ?_, rfl, nofun⟩
      rw [if_pos rfl]
      generalize (q.1.setTracker q.1.trk.suspended).journalTracker q.1.trk.state .sectionChange = v at *
      rw [frame]
      rfl
  obtain ⟨v, frame, handed, quiet⟩ := begun
  rw [handed]
  have view := hand v q.2.moved
  generalize v.handBeat q.2.moved = z at *
  refine ⟨by rw [view, frame], by rw [view, frame], by rw [view]; rfl, ?_, fun unmoved => by rw [view]; exact quiet unmoved⟩
  rw [congrArg (fun z => z.sch.armed) view, frame]

/-! ### The settled tracker -/

namespace Tracker

variable (arms : Bool) (r : RunResult) (k : Tracker)

theorem marked_kept (mark : Option Nat) : k.marked mark =
    { k with period := (k.marked mark).period, ring := (k.marked mark).ring, confidence := (k.marked mark).confidence } := by
  cases mark <;> rfl

/-- What settling leaves of the tracker: its beats and dates. -/
theorem settled_dates : (k.settled arms r).beat = k.beat ∧ (k.settled arms r).bReal = k.bReal ∧
    (k.settled arms r).tLast = k.tLast ∧ (k.settled arms r).tReal = k.tReal ∧ (k.settled arms r).counted = k.counted ∧
    (k.settled arms r).facts = k.facts := by
  unfold settled
  dsimp only
  rw [marked_kept]
  cases r.moved <;> exact ⟨rfl, rfl, rfl, rfl, rfl, rfl⟩

theorem settled_timeout : (k.settled arms r).timeout = if arms then (k.settled arms r).timeoutAfter else none := rfl

theorem settled_moved (moved : r.moved = true) : (k.settled arms r).state = .suspended ∧
    (k.settled arms r).synthetic = 0 ∧ (k.settled arms r).bounces = 0 := by
  unfold settled
  dsimp only
  rw [marked_kept, moved]
  exact ⟨rfl, rfl, rfl⟩

theorem settled_unmoved (unmoved : r.moved = false) : (k.settled arms r).state = k.state ∧
    (k.settled arms r).synthetic = k.synthetic ∧ (k.settled arms r).bounces = k.bounces ∧
    (k.settled arms r).absorb = k.absorb := by
  unfold settled
  dsimp only
  rw [marked_kept, unmoved]
  exact ⟨rfl, rfl, rfl, rfl⟩

theorem settled_unmarked (unmarked : r.mark = none) : k.sameTempo (k.settled arms r) := by
  unfold settled
  dsimp only
  rw [unmarked]
  cases r.moved <;> exact ⟨rfl, rfl, rfl⟩

theorem settled_marked {m : Nat} (marked : r.mark = some m) : (k.settled arms r).period = m * 100 ∧
    (k.settled arms r).ring = [] ∧ (k.settled arms r).confidence = .loose := by
  unfold settled
  dsimp only
  rw [marked]
  exact ⟨rfl, rfl, rfl⟩

theorem rearmed_iff : k.rearmed ↔ k.timeout = k.timeoutAfter := by
  unfold rearmed timeoutAfter
  cases k.state <;> cases k.facts.fermata <;> simp

end Tracker

/-! ### The settled beat -/

/-- What a settled beat leaves when nothing fires, the automatic end included. -/
structure State.Settled (s : State) (how : Settle) (u : State) : Prop where
  frame : u = { s with trk := u.trk, wlk := u.wlk, sch := u.sch, ctl := u.ctl, smi := u.smi }
  dates : u.trk.tLast = s.trk.tLast ∧ u.trk.tReal = s.trk.tReal ∧ u.trk.counted = s.trk.counted
  real : u.trk.bReal = if how.isReal then u.trk.beat else s.trk.bReal
  state : (u.trk.state = s.trk.state ∧ u.trk.synthetic = s.trk.synthetic ∧ u.trk.bounces = s.trk.bounces) ∨
    (u.trk.state = .suspended ∧ u.inBeatSection = false ∧ u.trk.synthetic = 0 ∧ u.trk.bounces = 0)
  called : s.inCalledSection = false → u.inCalledSection = true → u.trk.state = .suspended
  tempo : s.unmarked → s.trk.sameTempo u.trk
  timeout : u.trk.timeout = if how.arms then u.trk.timeoutAfter else none
  engine : u.wlk.inForce ≠ .endOfShow → u.ctl = s.ctl

/-- With nothing that may fire, a settled beat is its hand-over, and the automatic end when the section in force has
become END with nothing armed (R175, log entry 16). -/
theorem State.settle_quiet {s : State} (how : Settle) (first n : Nat) (quiet : s.nothingFires) (handed : State)
    (is : State.settleHand how (s.settleWalk how first n) = handed)
    (walk : s.BeatsHanded (s.settleWalk how first n).1) :
    (s.settle how first n = handed ∧ (s.wlk.inForce = .endOfShow ∨
      ¬(handed.ctl.engine = .running ∧ handed.wlk.inForce = .endOfShow ∧ handed.sch.armed = []))) ∨
    (s.wlk.inForce ≠ .endOfShow ∧ handed.wlk.inForce = .endOfShow ∧ handed.sch.armed = [] ∧
      handed.ShowEnded (s.settle how first n)) := by
  have still : handed.nothingFires := by
    obtain ⟨-, freeze, -, armed, -⟩ := State.settleHand_frame how (s.settleWalk how first n)
    rw [is] at freeze armed
    unfold State.nothingFires
    rw [freeze, armed, walk.frame]
    refine quiet.imp id fun empty => ?_
    show s.sch.armed.map _ = []
    rw [empty]
    rfl
  rw [State.settle_eq, is, State.fireAll_nothing still]
  by_cases ended : s.wlk.inForce = .endOfShow
  · rw [ended]
    exact .inl ⟨rfl, .inl rfl⟩
  · rw [if_neg (by simpa using ended)]
    by_cases ends : handed.ctl.engine = .running ∧ handed.wlk.inForce = .endOfShow ∧ handed.sch.armed = []
    · obtain ⟨running, passed, empty⟩ := ends
      exact .inr ⟨ended, passed, empty, State.testEnd_ends running passed empty⟩
    · refine .inl ⟨?_, .inr ends⟩
      unfold State.testEnd
      exact if_neg ends

theorem State.settle_settled {s : State} {how : Settle} (first n : Nat) (quiet : s.nothingFires)
    (corrects : how.corrects = true → how.isReal = true) : s.Settled how (s.settle how first n) := by
  obtain ⟨⟨handed, real, called, stays, unmarked⟩, -⟩ := State.settleWalk_done first n s corrects
  have cases_ := State.settle_quiet how first n quiet _ rfl handed
  obtain ⟨frame, -, -, -, -⟩ := State.settleHand_frame how (s.settleWalk how first n)
  generalize State.settleHand how (s.settleWalk how first n) = z at *
  generalize s.settleWalk how first n = q at *
  have trk : z.trk = q.1.trk.settled how.arms q.2 := by rw [frame]
  have mode := State.modeInForce_congr (s := q.1) (u := z) (by rw [frame]) (by rw [frame])
  obtain ⟨beat, bReal, tLast, tReal, counted, -⟩ := q.1.trk.settled_dates how.arms q.2
  rw [← trk] at beat bReal tLast tReal counted
  have whole : s.Settled how z := by
    constructor
    case frame =>
      have first := handed.frame
      generalize q.1 = w at *
      rw [frame, first]
    case dates =>
      rw [tLast, tReal, counted, handed.frame]
      exact ⟨rfl, rfl, rfl⟩
    case real =>
      rw [bReal, beat]
      exact real
    case state =>
      cases moved : q.2.moved with
      | true =>
        obtain ⟨state, synthetic, bounces⟩ := q.1.trk.settled_moved how.arms q.2 moved
        rw [← trk] at state synthetic bounces
        exact .inr ⟨state, State.notBeat_of_called (mode.1.trans (called moved)), synthetic, bounces⟩
      | false =>
        obtain ⟨state, synthetic, bounces, -⟩ := q.1.trk.settled_unmoved how.arms q.2 moved
        rw [← trk] at state synthetic bounces
        rw [state, synthetic, bounces, handed.frame]
        exact .inl ⟨rfl, rfl, rfl⟩
    case called =>
      intro not now
      have moved : q.2.moved = true := by
        cases moved : q.2.moved with
        | true => rfl
        | false => exact absurd ((mode.1.trans (stays not moved)).symm.trans now) nofun
      rw [trk]
      exact (q.1.trk.settled_moved how.arms q.2 moved).1
    case tempo =>
      intro h
      rw [trk]
      have same := q.1.trk.settled_unmarked how.arms q.2 (unmarked h)
      rw [handed.frame] at same ⊢
      exact same
    case timeout =>
      rw [trk]
      exact q.1.trk.settled_timeout how.arms q.2
    case engine =>
      intro _
      rw [frame, handed.frame]
  rcases cases_ with ⟨same, -⟩ | ⟨-, passed, -, ends⟩
  · rw [same]
    exact whole
  · generalize s.settle how first n = u at *
    have suspended : u.trk = z.trk.suspended := by rw [ends.frame]
    have passed' : u.wlk.inForce = .endOfShow := by rw [ends.walker]; exact passed
    constructor
    case frame =>
      have first := whole.frame
      rw [ends.frame, first]
    case dates =>
      rw [suspended]
      exact whole.dates
    case real =>
      rw [suspended]
      exact whole.real
    case state =>
      rw [suspended]
      exact .inr ⟨rfl, (State.inCalledSection_end passed').2, rfl, rfl⟩
    case called => exact fun _ now => absurd ((State.inCalledSection_end passed').1.symm.trans now) nofun
    case tempo =>
      intro h
      rw [suspended]
      exact whole.tempo h
    case timeout =>
      rw [suspended]
      cases how.arms <;> rfl
    case engine => exact fun on => absurd passed' on

/-- The show beat and the absorb count after a settled beat that corrects no bar. -/
theorem State.settle_beat {s : State} {how : Settle} (first n : Nat) (quiet : s.nothingFires)
    (plain : how.corrects = false) :
    ((s.settle how first n).trk.beat = (if n = 0 then s.trk.beat else first + n - 1) ∨
      (1 < n ∧ (s.settle how first n).trk.beat < (if n = 0 then s.trk.beat else first + n - 1) ∧
        (s.settle how first n).inBeatSection = false)) ∧
    ((s.settle how first n).trk.state = .suspended ∨ (s.settle how first n).trk.absorb = s.trk.absorb) := by
  obtain ⟨⟨handed, -, called, -, -⟩, dated⟩ := State.settleWalk_done first n s
    (fun corrects : how.corrects = true => absurd (plain.symm.trans corrects) nofun)
  obtain ⟨absorb, beat⟩ := dated plain
  have cases_ := State.settle_quiet how first n quiet _ rfl handed
  obtain ⟨frame, -, -, -, -⟩ := State.settleHand_frame how (s.settleWalk how first n)
  generalize State.settleHand how (s.settleWalk how first n) = z at *
  generalize s.settleWalk how first n = q at *
  have trk : z.trk = q.1.trk.settled how.arms q.2 := by rw [frame]
  have mode := State.modeInForce_congr (s := q.1) (u := z) (by rw [frame]) (by rw [frame])
  have same : z.trk.beat = q.1.trk.beat := by
    rw [trk]
    exact (q.1.trk.settled_dates how.arms q.2).1
  rcases cases_ with ⟨stands, -⟩ | ⟨-, passed, -, ends⟩
  · rw [stands, same]
    refine ⟨beat.imp id fun ⟨more, moved, early⟩ => ⟨more, early, State.notBeat_of_called (mode.1.trans (called moved))⟩, ?_⟩
    rw [trk]
    cases moved : q.2.moved with
    | true => exact .inl (q.1.trk.settled_moved how.arms q.2 moved).1
    | false => exact .inr ((q.1.trk.settled_unmoved how.arms q.2 moved).2.2.2.trans absorb)
  · generalize s.settle how first n = u at *
    have suspended : u.trk = z.trk.suspended := by rw [ends.frame]
    have passed' : u.wlk.inForce = .endOfShow := by rw [ends.walker]; exact passed
    rw [suspended]
    refine ⟨?_, .inl rfl⟩
    show z.trk.beat = _ ∨ (_ ∧ z.trk.beat < _ ∧ _)
    rw [same]
    exact beat.imp id fun ⟨more, _, early⟩ => ⟨more, early, (State.inCalledSection_end passed').2⟩

end Sys2Proof.Machine
end

section
/-! The tracker's timers: the end of a lockout (R47) and synthetic beats (R38, R39). -/

namespace Sys2Proof.Machine

/-- CAUSE.TRACKER stays set through every step of the show. -/
theorem Whole.trackerFlag : Whole fun s => s.smi.flags.tracker = true :=
  Whole.registers (R := fun _ f _ => f.tracker = true) fun _ f _ n h =>
    (Cause.within_setFlag (g := f) n (Cause.within_refl f)).2.2.2.1 h

/-! ### The end of a lockout -/

theorem execLockoutEnd_due {s : State} {t e : Time} (runs : s.trk.lockout = some e) (due : e ≤ max s.clock t) :
    exec (.lockoutEnd t) s = .next (((s.begin t).setTracker { s.trk with lockout := none, bounces := 0 }).journalTracker
      s.trk.state .lockoutEnd) := by
  refine congrArg Host.Outcome.next ?_
  unfold State.endLockout
  rw [show (s.begin t).trk = s.trk from rfl, runs]
  exact if_pos due

/-! ### Synthetic beats -/

theorem execBeatTimeout_due {s : State} {t e : Time} (runs : s.trk.timeout = some e) (due : e ≤ max s.clock t) :
    exec (.beatTimeout t) s = .next (s.begin t).syntheticBeat := by
  refine congrArg Host.Outcome.next ?_
  unfold State.expireBeat
  rw [show (s.begin t).trk = s.trk from rfl, runs]
  exact if_pos due

/-- The tracker as a synthetic beat dates it (R38). -/
def Tracker.synthesized (k : Tracker) : Tracker :=
  { k with
    state := .freewheel, tLast := k.tLast + k.period, synthetic := k.synthetic + 1, absorb := k.absorbs.2 }

/-- The last of the synthetic beats (R39). -/
def Tracker.lastSynthetic (k : Tracker) : Bool := decide (Config.syntheticLimit ≤ k.synthetic + 1)

/-- Settling a synthetic beat arms the timeout but for the last. -/
def Tracker.syntheticSettle (k : Tracker) : Settle := ⟨false, false, !k.lastSynthetic⟩

theorem State.syntheticBeat_eq {s : State} (counts : s.trk.state = .tracking ∨ s.trk.state = .freewheel) : ∃ v : State,
    v = { s with trk := s.trk.synthesized, smi := v.smi } ∧
    (s.trk.state = .tracking → v.smi.flags.tracker = true) ∧
    s.syntheticBeat = if s.trk.lastSynthetic then
      (v.settle s.trk.syntheticSettle (s.trk.beat + 1) s.trk.absorbs.1).becomeLost
      else v.settle s.trk.syntheticSettle (s.trk.beat + 1) s.trk.absorbs.1 := by
  rcases counts with tracking | freewheel
  · refine ⟨((s.setTracker { s.trk with
      tLast := s.trk.tLast + s.trk.period, synthetic := s.trk.synthetic + 1, absorb := s.trk.absorbs.2 }).becomeState
        .freewheel .timeout (s.trk.beat + s.trk.absorbs.1)).setCause .tracker, ?_, fun _ => rfl, ?_⟩
    · have frame (b : Journal) : (s.setTracker s.trk.synthesized).journal b = { s.setTracker s.trk.synthesized with
          smi := ((s.setTracker s.trk.synthesized).journal b).smi } := State.journalAt_onlyBus _ _ (State.onlyBus_refl _)
      unfold State.becomeState State.setCause
      exact congrArg (fun v : State => { v with smi := { v.smi with flags := v.smi.flags.setFlag .tracker } }) (frame _)
    · unfold State.syntheticBeat
      dsimp only
      rw [if_pos tracking]
      rfl
  · have other : s.trk.state ≠ .tracking := fun tracking => TrackerState.noConfusion (freewheel.symm.trans tracking)
    refine ⟨s.setTracker { s.trk with
      tLast := s.trk.tLast + s.trk.period, synthetic := s.trk.synthetic + 1, absorb := s.trk.absorbs.2 }, ?_,
      fun tracking => absurd tracking other, ?_⟩
    · unfold Tracker.synthesized
      rw [← freewheel]
      rfl
    · unfold State.syntheticBeat
      dsimp only
      rw [if_neg other]
      rfl

/-- LOST, or not when the section in force is no BEAT section (R39, log entry 15). -/
theorem State.becomeLost_freewheel {s : State} (freewheel : s.trk.state = .freewheel) :
    s.becomeLost = { s with
      trk := { s.trk with state := .lost, timeout := none }, sch := s.becomeLost.sch, smi := s.becomeLost.smi } ∧
    s.becomeLost.smi.flags.tracker = true := by
  have frame : (s.setTracker { s.trk with state := .lost, timeout := none }).journalTracker .freewheel .timeout =
      { s.setTracker { s.trk with state := .lost, timeout := none } with
        smi := ((s.setTracker { s.trk with state := .lost, timeout := none }).journalTracker .freewheel .timeout).smi } :=
    State.journalAt_onlyBus _ _ (State.onlyBus_refl _)
  have lost : s.becomeLost = (((s.setTracker { s.trk with state := .lost, timeout := none }).journalTracker .freewheel
      .timeout).setCause .tracker).handState := by
    unfold State.becomeLost
    exact if_pos freewheel
  rw [lost]
  generalize (s.setTracker { s.trk with state := .lost, timeout := none }).journalTracker .freewheel .timeout = v at *
  refine ⟨?_, rfl⟩
  rw [frame]
  rfl

theorem State.becomeLost_other {s : State} (other : s.trk.state ≠ .freewheel) : s.becomeLost = s := by
  unfold State.becomeLost
  exact if_neg other

theorem Tracker.absorbs_eq (k : Tracker) : k.absorbs.1 = (if k.absorb = 0 then 1 else 0) ∧ k.absorbs.2 = k.absorb - 1 := by
  unfold Tracker.absorbs
  by_cases none : k.absorb = 0
  · rw [none]
    exact ⟨rfl, rfl⟩
  · rw [if_pos (Nat.pos_of_ne_zero none), if_neg none]
    exact ⟨rfl, rfl⟩

/-- The show beat after a beat that is counted or absorbed. -/
theorem State.settle_absorbing {s : State} {how : Settle} {k : Tracker} (beat : s.trk.beat = k.beat)
    (quiet : s.nothingFires) (plain : how.corrects = false) :
    (s.settle how (k.beat + 1) k.absorbs.1).trk.beat = k.beat + (if k.absorb = 0 then 1 else 0) := by
  obtain ⟨dated, -⟩ := State.settle_beat (how := how) (k.beat + 1) k.absorbs.1 quiet plain
  rw [k.absorbs_eq.1, beat] at *
  by_cases none : k.absorb = 0
  · rw [if_pos none] at *
    rcases dated with at_ | ⟨more, -⟩
    · exact at_
    · exact absurd more (Nat.lt_irrefl 1)
  · rw [if_neg none] at *
    rcases dated with at_ | ⟨more, -⟩
    · exact at_
    · exact absurd more (Nat.not_lt_zero 1)

/-- A synthetic beat with nothing that fires (R38, R39). -/
theorem State.syntheticBeat_counted {s : State} (quiet : s.nothingFires)
    (counts : s.trk.state = .tracking ∨ s.trk.state = .freewheel) :
    let u := s.syntheticBeat
    u.trk.tLast = s.trk.tLast + s.trk.period ∧
      u.trk.beat = s.trk.beat + (if s.trk.absorb = 0 then 1 else 0) ∧ u.trk.tReal = s.trk.tReal ∧
      u.trk.bReal = s.trk.bReal ∧ (s.unmarked → s.trk.sameTempo u.trk) ∧ u.trk.rearmed ∧
      (s.trk.state = .tracking → u.smi.flags.tracker = true) ∧
      (s.trk.synthetic + 1 < 8 → u.tracksUnlessLeft .freewheel ∧
        (u.trk.state = .freewheel → u.trk.synthetic = s.trk.synthetic + 1)) ∧
      (8 ≤ s.trk.synthetic + 1 → u.tracksUnlessLeft .lost ∧
        (u.trk.state = .lost → u.trk.timeout = none ∧ u.smi.flags.tracker = true)) ∧
      u.du = s.du ∧ u.desk = s.desk ∧ u.arb = s.arb ∧ u.links = s.links := by
  obtain ⟨v, begun, flag, beats⟩ := State.syntheticBeat_eq counts
  have still : v.nothingFires := by
    rw [begun]
    exact quiet
  have flagged (on : v.smi.flags.tracker = true) :
      (v.settle s.trk.syntheticSettle (s.trk.beat + 1) s.trk.absorbs.1).smi.flags.tracker = true :=
    Whole.trackerFlag.toShow.settle _ _ _ _ on
  have settled := State.settle_settled (how := s.trk.syntheticSettle) (s.trk.beat + 1) s.trk.absorbs.1 still nofun
  have beat := State.settle_absorbing (how := s.trk.syntheticSettle) (k := s.trk) (congrArg (fun v => v.trk.beat) begun)
    still rfl
  generalize v.settle s.trk.syntheticSettle (s.trk.beat + 1) s.trk.absorbs.1 = z at *
  obtain ⟨frame, ⟨tLast, tReal, -⟩, real, state, -, tempo, timeout, -⟩ := settled
  have unmarked : s.unmarked → v.unmarked := fun h => by
    rw [begun]
    exact h
  have flag' (tracking : s.trk.state = .tracking) := flagged (flag tracking)
  have elsewhere : z.du = s.du ∧ z.desk = s.desk ∧ z.arb = s.arb ∧ z.links = s.links := by
    rw [frame, begun]
    exact ⟨rfl, rfl, rfl, rfl⟩
  have trk : v.trk = s.trk.synthesized := by rw [begun]
  rw [trk] at tLast tReal real state tempo
  have tempo' (h : s.unmarked) : s.trk.sameTempo z.trk := tempo (unmarked h)
  show _ ∧ _
  rw [beats]
  cases last : s.trk.lastSynthetic with
  | false =>
    have early : ¬8 ≤ s.trk.synthetic + 1 := of_decide_eq_false last
    have arms : s.trk.syntheticSettle.arms = true := congrArg not last
    rw [if_pos arms] at timeout
    refine ⟨tLast, beat, tReal, real, tempo', (Tracker.rearmed_iff _).mpr timeout, flag', fun _ => ?_,
      fun late => absurd late early, elsewhere⟩
    rcases state with ⟨freewheel, synthetic, -⟩ | ⟨suspended, left, -⟩
    · exact ⟨.inl freewheel, fun _ => synthetic⟩
    · exact ⟨.inr ⟨suspended, left⟩, fun now => TrackerState.noConfusion (suspended.symm.trans now)⟩
  | true =>
    have late : 8 ≤ s.trk.synthetic + 1 := of_decide_eq_true last
    have arms : s.trk.syntheticSettle.arms = false := congrArg not last
    have stopped : z.trk.timeout = none := by
      rw [arms] at timeout
      exact timeout
    rw [if_pos rfl]
    rcases state with ⟨freewheel, -⟩ | ⟨suspended, left, -⟩
    · obtain ⟨lost, set⟩ := State.becomeLost_freewheel freewheel
      generalize z.becomeLost = u at *
      have trk' : u.trk = { z.trk with state := .lost, timeout := none } := by rw [lost]
      refine ⟨?_, ?_, ?_, ?_, fun h => ?_, ?_, fun _ => set, fun early => absurd late (Nat.not_le.mpr early),
        fun _ => ⟨.inl (by rw [trk']), fun _ => ⟨by rw [trk'], set⟩⟩, ?_⟩
      · rw [trk']
        exact tLast
      · rw [trk']
        exact beat
      · rw [trk']
        exact tReal
      · rw [trk']
        exact real
      · rw [trk']
        exact tempo' h
      · rw [Tracker.rearmed_iff, trk']
        rfl
      · rw [lost]
        exact elsewhere
    · have other : z.trk.state ≠ .freewheel := fun now => TrackerState.noConfusion (suspended.symm.trans now)
      rw [State.becomeLost_other other]
      refine ⟨tLast, beat, tReal, real, tempo', ?_, flag', fun early => absurd late (Nat.not_le.mpr early),
        fun _ => ⟨.inr ⟨suspended, left⟩, fun now => TrackerState.noConfusion (suspended.symm.trans now)⟩, elsewhere⟩
      rw [Tracker.rearmed_iff, stopped]
      unfold Tracker.timeoutAfter
      rw [suspended]

/-- Settles O51: a synthetic beat is `State.syntheticBeat_counted`, on the state begun. -/
theorem trackerTimers : Obligations.TrackerTimers := by
  unfold Obligations.TrackerTimers
  refine ⟨fun t s e runs due => ⟨_, execLockoutEnd_due runs due, ?_⟩,
    fun t s e runs due quiet counts => ⟨_, execBeatTimeout_due runs due, State.syntheticBeat_counted (s := s.begin t) quiet counts⟩⟩
  have frame : ∀ b, ((s.begin t).setTracker { s.trk with lockout := none, bounces := 0 }).journal b =
      { (s.begin t).setTracker { s.trk with lockout := none, bounces := 0 } with
        smi := (((s.begin t).setTracker { s.trk with lockout := none, bounces := 0 }).journal b).smi } :=
    fun b => State.journalAt_onlyBus _ b (State.onlyBus_refl _)
  have count (v : State) (b : Journal) : (v.journal b).smi.journalCount = (v.smi.journalCount + 1) % 4294967296 :=
    (State.journalAt_journal _ b v).1
  have flags (v : State) (b : Journal) : (v.journal b).smi.flags = v.smi.flags := (State.journalAt_registers _ b v).2.1
  unfold State.journalTracker
  rw [count, flags, frame]
  exact ⟨rfl, rfl, rfl, rfl, rfl, rfl, rfl, rfl, rfl, rfl⟩

end Sys2Proof.Machine
end

section
/-! Leads (R78), predictions of POSITION cues (R79 to R81), and a normal beat (R32). -/

namespace Sys2Proof.Machine

/-! ### Leads -/

theorem mem_layoutLangs {l : Layout} {g : Lang} : g ∈ layoutLangs l ↔ ∃ k : Fin 4, l[k] = some g := by
  have all : g ∈ allLangs := by
    unfold allLangs
    revert g
    decide
  unfold layoutLangs
  rw [List.mem_filter, List.contains_iff_mem, Vector.mem_toList_iff, Vector.mem_iff_getElem]
  constructor
  · rintro ⟨-, k, hk, slot⟩
    exact ⟨⟨k, hk⟩, slot⟩
  · rintro ⟨k, slot⟩
    exact ⟨all, k.val, k.isLt, slot⟩

theorem State.addresses_iff (s : State) (c : Cue) (i : Screen16) : s.addresses c i = true ↔ s.isAddressed c i := by
  unfold State.addresses State.isAddressed
  rw [Bool.and_eq_true, Bool.and_eq_true, Bool.not_eq_true', Bool.or_eq_true, and_assoc]
  refine and_congr_right fun _ => and_congr_right fun _ => ?_
  cases c.action with
  | blank => exact ⟨fun _ => nofun, fun _ => .inl rfl⟩
  | title =>
    rw [List.any_eq_true]
    constructor
    · rintro (blank | ⟨g, named, inMask⟩) -
      · exact absurd blank (by decide)
      · obtain ⟨k, slot⟩ := mem_layoutLangs.mp named
        exact ⟨k, g, slot, inMask⟩
    · intro addressed
      obtain ⟨k, g, slot, inMask⟩ := addressed rfl
      exact .inr ⟨g, mem_layoutLangs.mpr ⟨k, slot⟩, inMask⟩

theorem State.mem_addressed (s : State) (c : Cue) (i : Screen16) : i ∈ s.addressed c ↔ s.isAddressed c i := by
  unfold State.addressed
  rw [List.mem_filter, State.addresses_iff]
  exact and_iff_right (mem_allScreens i)

/-- The lead of a cue is the largest of the screens it addresses, 0 without one (R78). -/
theorem State.cueLead_largest (s : State) (c : Cue) : (∀ i, s.isAddressed c i → s.leadOf c i ≤ s.cueLead c) ∧
    ((∃ i, s.isAddressed c i ∧ s.cueLead c = s.leadOf c i) ∨ ((∀ i, ¬s.isAddressed c i) ∧ s.cueLead c = 0)) := by
  refine ⟨fun i addressed => le_maxOf (List.mem_map_of_mem ((s.mem_addressed c i).mpr addressed)), ?_⟩
  by_cases none : s.addressed c = []
  · refine .inr ⟨fun i addressed => ?_, ?_⟩
    · have inside := (s.mem_addressed c i).mpr addressed
      rw [none] at inside
      cases inside
    · unfold State.cueLead
      rw [none]
      rfl
  · obtain ⟨i, inside, lead⟩ := List.mem_map.mp (maxOf_mem (l := (s.addressed c).map (s.leadOf c)) (by simpa using none))
    exact .inl ⟨i, (s.mem_addressed c i).mp inside, lead.symm⟩

/-! ### Predictions -/

theorem TrackerView.predicts_eq (v : TrackerView) (b : Int) (tick : Nat) : v.appearance b tick = v.predicts b tick := by
  unfold TrackerView.appearance TrackerView.predicts TrackerView.effective roundHalfUp
  rw [Int.add_assoc]

/-- The gate follows its table (R81). -/
theorem TrackerView.gates_eq (v : TrackerView) (now : Time) (b : Int) (tick : Nat) (T : Time) :
    gateOf v now b tick (some T) = v.gates now b tick T := by
  have position : v.effective = (v.beat : Int) - (v.absorb : Int) := rfl
  have open_ : timedOrDue now (some T) = if T ≤ now then .due else .timed := rfl
  unfold gateOf TrackerView.gates
  dsimp only
  rw [open_, position]
  generalize (v.beat : Int) - (v.absorb : Int) = p
  cases v.state with
  | suspended => rfl
  | locking => rfl
  | lost => rfl
  | freewheel => simp
  | tracking =>
    cases v.confidence with
    | steady => simp
    | loose => simp
    | erratic =>
      have waits : (if tick = 0 then decide (p < b) else decide (p < b + 1)) =
          decide ((tick = 0 ∧ p < b) ∨ (0 < tick ∧ p < b + 1)) := by
        by_cases zero : tick = 0
        · simp [zero]
        · simp [zero, Nat.pos_of_ne_zero zero]
      rw [waits]
      simp

section Repredict

variable {s : State} {e : Armed} {b : Int} {tick : Nat}

theorem State.repredict_untargeted (moved : Bool) (none : e.target = none) : s.repredict moved e = e := by
  unfold State.repredict State.gate State.predict
  rw [none]
  dsimp only
  rw [none]
  exact ite_self _

/-- A POSITION entry is predicted and gated while it is GATED or TIMED (R79 to R81). -/
theorem State.repredict_targeted (moved : Bool) (target : e.target = some (b, tick)) :
    s.repredict moved e = if e.timing = .gated ∨ e.timing = .timed then
      { e with
        appear := some (s.sch.view.predicts b tick), lead := some (s.cueLead e.copy)
        fire := some (s.sch.view.predicts b tick - s.cueLead e.copy)
        timing := if moved then timedOrDue s.clock (some (s.sch.view.predicts b tick - s.cueLead e.copy))
          else s.sch.view.gates s.clock b tick (s.sch.view.predicts b tick - s.cueLead e.copy) }
      else e := by
  unfold State.repredict State.gate State.predict
  rw [target]
  dsimp only
  rw [TrackerView.predicts_eq, TrackerView.gates_eq]

end Repredict

/-- The armed list after a settled beat: each entry predicted from the tracker as the beat leaves it (R80, R81). -/
theorem State.settle_armed {s : State} {how : Settle} (first n : Nat) (quiet : s.nothingFires)
    (corrects : how.corrects = true → how.isReal = true) (uncalled : s.inCalledSection = false) :
    (s.settle how first n).sch.armed = s.sch.armed.map ((s.setView (s.settle how first n).currentView).repredict
      (s.settle how first n).inCalledSection) := by
  obtain ⟨⟨handed, -, called, stays, -⟩, -⟩ := State.settleWalk_done first n s corrects
  have cases_ := State.settle_quiet how first n quiet _ rfl handed
  obtain ⟨frame, -, view, armed, -⟩ := State.settleHand_frame how (s.settleWalk how first n)
  generalize State.settleHand how (s.settleWalk how first n) = z at *
  generalize s.settleWalk how first n = q at *
  have mode := (State.modeInForce_congr (s := q.1) (u := z) (by rw [frame]) (by rw [frame])).1
  have moved : z.inCalledSection = q.2.moved := by
    rw [mode]
    cases moved : q.2.moved with
    | true => exact called moved
    | false => exact stays uncalled moved
  have list : q.1.sch.armed = s.sch.armed := by rw [handed.frame]
  rw [list] at armed
  rcases cases_ with ⟨stands, -⟩ | ⟨-, -, empty, ends⟩
  · rw [stands, armed, moved]
    refine List.map_congr_left fun e _ => State.repredict_congr view ?_ ?_ ?_ _ e
    · rw [frame, handed.frame]
      rfl
    · rw [frame, handed.frame]
      rfl
    · rw [frame, handed.frame]
      rfl
  · rw [ends.armed]
    rw [empty] at armed
    rw [List.map_eq_nil_iff.mp armed.symm]
    rfl

/-! ### The estimate -/

theorem smoothed_eq (e interval w : Nat) : (smoothed e interval w : Int) =
    max 150000 (min 3000000 ((e : Int) + roundHalfAway (((interval : Int) - (e : Int)) * (w : Int)) 8)) := by
  unfold smoothed clampPeriod Config.periodMax Config.periodMin
  generalize (e : Int) + roundHalfAway (((interval : Int) - (e : Int)) * (w : Int)) 8 = x
  omega

theorem pushRing_eq (ring : List Nat) (i : Nat) : pushRing ring i = (ring ++ [i]).drop (ring.length + 1 - 8) := by
  unfold pushRing Config.ringSize
  split
  · rw [show ring.length + 1 - 8 = 0 by omega]
    rfl
  · rw [List.drop_append_of_le_length (by omega)]

theorem confidenceOf_eq (ring : List Nat) (e : Nat) : confidenceOf ring e = confidenceTable ring e := by
  have mean : meanDeviation ring e = (ring.map fun i : Nat => ((i : Int) - (e : Int)).natAbs).sum / ring.length := by
    have each : deviation e = fun i : Nat => ((i : Int) - (e : Int)).natAbs := by
      funext i
      unfold deviation
      split <;> omega
    unfold meanDeviation
    rw [each]
  -- the table of the statement reads the ring as a list of integers
  have lifted : (ring >>= fun a : Nat => pure (a : Int)) = ring.map fun a : Nat => (a : Int) :=
    List.flatMap_pure_eq_map _ ring
  unfold confidenceOf confidenceTable
  rw [mean]
  dsimp only
  rw [lifted, List.map_map]
  rfl

/-! ### The arrival -/

theorem execBeat_accepted {s : State} {t : Time} {l : Line} (line : l = .beat ∨ l = .downbeat) (h : s.acceptsEdge t l) :
    exec (risingCommand t l) s = .next ((s.edgeTaken t l).routeBeat l) := by
  rcases line with rfl | rfl
  · exact congrArg Host.Outcome.next (State.risingEdge_accepted (State.routeBeat .beat) h)
  · exact congrArg Host.Outcome.next (State.risingEdge_accepted (State.routeBeat .downbeat) h)

theorem State.routeBeat_running {l : Line} {s : State} (running : s.ctl.engine = .running) :
    s.routeBeat l = s.beatArrival (l == .downbeat) := by
  unfold State.routeBeat
  rw [running]

/-- An arrival in TRACKING that is no bounce (R30, R31, R32). -/
theorem State.beatArrival_tracking {s : State} (down : Bool) (free : s.trk.lockout = none)
    (tracking : s.trk.state = .tracking) (beat : s.trk.period / 2 ≤ s.clock - s.trk.tLast) :
    s.beatArrival down = if s.trk.facts.fermata then s.afterFermata down else s.normalBeat down := by
  unfold State.beatArrival
  rw [free, tracking]
  exact if_neg (Nat.not_lt.mpr beat)

/-- The tracker as a normal beat dates and measures it (R32, R33). -/
def Tracker.measured (now : Time) (k : Tracker) : Tracker :=
  let e := smoothed k.period (now - k.tLast) k.weight
  let ring := pushRing k.ring (now - k.tLast)
  { k with
    tLast := now, tReal := now, synthetic := 0, bounces := 0, absorb := k.absorbs.2, period := e
    ring := ring, confidence := confidenceOf ring e }

theorem State.normalBeat_eq (down : Bool) (s : State) : s.normalBeat down =
    (s.setTracker (s.trk.measured s.clock)).settle ⟨true, down, true⟩ (s.trk.beat + 1) s.trk.absorbs.1 := rfl

/-- A normal beat with nothing that fires (R28, R32 to R34, R37, R45). -/
theorem State.normalBeat_counted {s : State} (down : Bool) (quiet : s.nothingFires) (unmarked : s.unmarked) :
    let u := s.normalBeat down
    u.trk.tLast = s.clock ∧ u.trk.tReal = s.clock ∧ u.trk.synthetic = 0 ∧ u.trk.bounces = 0 ∧
      (u.trk.period : Int) = max 150000 (min 3000000 ((s.trk.period : Int) +
        roundHalfAway ((((s.clock - s.trk.tLast : Nat) : Int) - (s.trk.period : Int)) * (s.trk.weight : Int)) 8)) ∧
      u.trk.ring = (s.trk.ring ++ [s.clock - s.trk.tLast]).drop (s.trk.ring.length + 1 - 8) ∧
      u.trk.confidence = confidenceTable u.trk.ring u.trk.period ∧ u.trk.rearmed ∧
      u.du = s.du ∧ u.arb = s.arb ∧ u.links = s.links := by
  have settled := State.settle_settled (s := s.setTracker (s.trk.measured s.clock)) (how := ⟨true, down, true⟩)
    (s.trk.beat + 1) s.trk.absorbs.1 quiet fun _ => rfl
  rw [← State.normalBeat_eq] at settled
  obtain ⟨frame, ⟨tLast, tReal, -⟩, -, state, -, tempo, timeout, -⟩ := settled
  obtain ⟨period, ring, confidence⟩ := tempo unmarked
  generalize s.normalBeat down = u at *
  refine ⟨tLast, tReal, ?_, ?_, ?_, ?_, ?_, (Tracker.rearmed_iff _).mpr timeout, ?_⟩
  · rcases state with ⟨-, synthetic, -⟩ | ⟨-, -, synthetic, -⟩ <;> exact synthetic
  · rcases state with ⟨-, -, bounces⟩ | ⟨-, -, -, bounces⟩ <;> exact bounces
  · rw [period]
    exact smoothed_eq _ _ _
  · rw [ring]
    exact pushRing_eq _ _
  · rw [ring, period, ← confidenceOf_eq]
    exact confidence
  · rw [frame]
    exact ⟨rfl, rfl, rfl⟩

/-- Settles O46: the armed list is `State.settle_armed`, read entry by entry. -/
theorem normalBeatCounted : Obligations.NormalBeatCounted := by
  unfold Obligations.NormalBeatCounted
  refine ⟨fun t l s line running free tracking quiet h beat dry unmarked => ?_,
    fun s c => s.cueLead_largest c⟩
  have arrives : (s.edgeTaken t l).routeBeat l = (s.edgeTaken t l).normalBeat (l == .downbeat) := by
    rw [State.routeBeat_running (s := s.edgeTaken t l) running,
      State.beatArrival_tracking (s := s.edgeTaken t l) _ free tracking beat]
    exact if_neg (ne_true_of_eq_false dry)
  refine ⟨_, (execBeat_accepted line h).trans (congrArg Host.Outcome.next arrives), ?_⟩
  obtain ⟨tLast, tReal, synthetic, bounces, period, ring, confidence, rearmed, du, arb, links⟩ :=
    State.normalBeat_counted (s := s.edgeTaken t l) (l == .downbeat) quiet unmarked
  refine ⟨tLast, tReal, synthetic, bounces, period, ring, confidence, rearmed, fun is => ?_, du, arb, links,
    fun _ uncalled => ?_⟩
  · rw [is, State.normalBeat_eq]
    exact State.settle_absorbing (k := s.trk) rfl quiet rfl
  · have list := State.settle_armed (s := (s.edgeTaken t l).setTracker (s.trk.measured (max s.clock t)))
      (how := ⟨true, l == .downbeat, true⟩) (s.trk.beat + 1) s.trk.absorbs.1 quiet (fun _ => rfl) uncalled
    refine list.trans (List.map_congr_left fun e _ => ?_)
    cases target : e.target with
    | none => exact State.repredict_untargeted _ target
    | some p =>
      obtain ⟨b, tick⟩ := p
      have predicted := State.repredict_targeted (s := ((s.edgeTaken t l).setTracker (s.trk.measured (max s.clock t))).setView
        ((s.edgeTaken t l).normalBeat (l == .downbeat)).currentView)
        ((s.edgeTaken t l).normalBeat (l == .downbeat)).inCalledSection target
      rw [target] at predicted
      exact predicted

end Sys2Proof.Machine
end

section
/-! Beat arrivals in each tracker state (R29 to R32, R40, R41, R46, R158 to R160). -/

namespace Sys2Proof.Machine

/-! ### Routing -/

/-- A beat that is not the show's is counted as ignored (R160). -/
theorem State.routeBeat_ignored {l : Line} {s : State} (idle : s.ctl.engine ≠ .running)
    (elsewhere : s.ctl.engine = .armed → s.inBeatSection = false) : s.routeBeat l = s.countIgnored l := by
  unfold State.routeBeat
  cases engine : s.ctl.engine <;> dsimp only
  case running => exact absurd engine idle
  case armed => rw [elsewhere engine, if_neg Bool.false_ne_true]

/-- A beat that is the show's reaches the tracker in RUNNING, the show being started where it was ARMED (R158, R159). -/
theorem beatPress_ready {s : State} {t : Time} {l : Line} (line : l = .beat ∨ l = .downbeat) (h : s.acceptsEdge t l)
    (engine : s.ctl.engine = .running ∨ (s.ctl.engine = .armed ∧ s.inBeatSection = true)) (quiet : s.nothingFires) :
    ∃ v, exec (risingCommand t l) s = .next (v.beatArrival (l == .downbeat)) ∧ s.Ready v t l := by
  have he := execBeat_accepted line h
  rcases engine with running | ⟨armed, beats⟩
  · rw [State.routeBeat_running (s := s.edgeTaken t l) running] at he
    exact ⟨_, he, State.ready_running t l running⟩
  · have routed : (s.edgeTaken t l).routeBeat l = ((s.edgeTaken t l).startShow l).beatArrival (l == .downbeat) := by
      have inBeat : (s.edgeTaken t l).inBeatSection = true := beats
      unfold State.routeBeat
      rw [show (s.edgeTaken t l).ctl.engine = .armed from armed]
      dsimp only
      rw [inBeat, if_pos rfl]
    rw [routed] at he
    exact ⟨_, he, State.ready_started t l armed (.inl quiet)⟩

/-! ### Becoming TRACKING -/

theorem State.becomeState_frame (new : TrackerState) (cause : TrackCause) (b : Nat) (s : State) :
    s.becomeState new cause b = { s with
      trk := { s.trk with state := new }, smi := (s.becomeState new cause b).smi } :=
  State.journalAt_onlyBus _ _ (State.onlyBus_refl _)

/-- The tracker as a real arrival dates it. -/
def Tracker.dated (now : Time) (k : Tracker) : Tracker :=
  { k with tLast := now, tReal := now, synthetic := 0, bounces := 0 }

/-- An arrival that makes the tracker TRACKING, or finds it so, settled with nothing that fires: what every class of
arrival leaves alike (R29, R31, R32, R37, R40, R41). -/
theorem State.settle_arrival {v : State} {now : Time} (corrects : Bool) (first n : Nat) (quiet : v.nothingFires)
    (tracking : v.trk.state = .tracking) (tLast : v.trk.tLast = now) (tReal : v.trk.tReal = now)
    (synthetic : v.trk.synthetic = 0) (bounces : v.trk.bounces = 0) :
    let u := v.settle ⟨true, corrects, true⟩ first n
    u.trk.bReal = u.trk.beat ∧ u.trk.tLast = now ∧ u.trk.tReal = now ∧ u.trk.synthetic = 0 ∧ u.trk.bounces = 0 ∧
      (v.unmarked → v.trk.sameTempo u.trk) ∧ u.trk.rearmed ∧ u.tracksUnlessLeft .tracking := by
  obtain ⟨-, ⟨tLast', tReal', -⟩, real, state, -, tempo, timeout, -⟩ :=
    State.settle_settled (how := ⟨true, corrects, true⟩) first n quiet fun _ => rfl
  refine ⟨real, tLast'.trans tLast, tReal'.trans tReal, ?_, ?_, tempo, (Tracker.rearmed_iff _).mpr timeout, ?_⟩
  · rcases state with ⟨-, same, -⟩ | ⟨-, -, zero, -⟩
    · exact same.trans synthetic
    · exact zero
  · rcases state with ⟨-, -, same⟩ | ⟨-, -, -, zero⟩
    · exact same.trans bounces
    · exact zero
  · rcases state with ⟨same, -⟩ | ⟨suspended, left, -⟩
    · exact .inl (same.trans tracking)
    · exact .inr ⟨suspended, left⟩

/-! ### LOCKING -/

/-- The tracker as a lock beat dates it, TRACKING (R29). -/
def Tracker.lockedOn (now : Time) (k : Tracker) : Tracker :=
  { k.dated now with counted := true, state := .tracking }

theorem State.lockBeat_eq (s : State) : ∃ v : State, v = { s with trk := s.trk.lockedOn s.clock, smi := v.smi } ∧
    s.lockBeat = v.settle ⟨true, false, true⟩ (if s.trk.counted then s.trk.beat + 1 else s.trk.beat) 1 :=
  ⟨_, State.becomeState_frame .tracking .arrival _ (s.setTracker { s.trk.dated s.clock with counted := true }), rfl⟩

/-- The lock beat that starts the walk of a BEAT section, or a show (R29). -/
theorem beatArrival_locks {s : State} {t : Time} {l : Line} (line : l = .beat ∨ l = .downbeat)
    (engine : s.ctl.engine = .running ∨ (s.ctl.engine = .armed ∧ s.inBeatSection = true)) (free : s.trk.lockout = none)
    (locking : s.trk.state = .locking) (quiet : s.nothingFires) (h : s.acceptsEdge t l) :
    ∃ u, exec (risingCommand t l) s = .next u ∧
      u.trk.beat = (if s.trk.counted then s.trk.beat + 1 else s.trk.beat) ∧ u.trk.bReal = u.trk.beat ∧
      u.trk.tLast = max s.clock t ∧ u.trk.tReal = max s.clock t ∧ u.trk.counted = true ∧
      u.trk.synthetic = 0 ∧ u.trk.bounces = 0 ∧ u.tracksUnlessLeft .tracking ∧
      (s.inBeatSection = true → u.inCalledSection = true → u.trk.state = .suspended) ∧ u.trk.rearmed ∧
      (u.wlk.inForce ≠ .endOfShow → u.ctl.engine = .running) ∧
      (s.ctl.engine = .armed → s.smi.journalQueue.length < 16 →
        (⟨s.smi.journalCount, max s.clock t, .engineState 4 5 4 255 (lineCode l) 0⟩ : JournalRecord) ∈
          u.smi.journalQueue) ∧
      u.du = s.du ∧ u.arb = s.arb ∧ u.links = s.links ∧ u.desk = (s.edgeTaken t l).desk := by
  obtain ⟨w, he, ready⟩ := beatPress_ready line h engine quiet
  obtain ⟨trk, du, arb, links, desk, ctl⟩ := ready.blocks
  have locks : w.beatArrival (l == .downbeat) = w.lockBeat := by
    unfold State.beatArrival
    rw [trk, free, locking]
    rfl
  obtain ⟨v, begun, settles⟩ := w.lockBeat_eq
  have records (r : JournalRecord) (there : r ∈ w.smi.journalQueue) : r ∈ w.lockBeat.smi.journalQueue :=
    (Show.journaled r).lockBeat w there
  rw [locks] at he
  rw [settles, trk] at records he
  have still : v.nothingFires := by
    unfold State.nothingFires
    rw [begun, ready.sch]
    exact quiet
  have trk' : v.trk = s.trk.lockedOn (max s.clock t) := by rw [begun, trk, ready.clock]
  have one : (if (1 : Nat) = 0 then v.trk.beat else (if s.trk.counted then s.trk.beat + 1 else s.trk.beat) + 1 - 1) =
      if s.trk.counted then s.trk.beat + 1 else s.trk.beat := rfl
  obtain ⟨beat, -⟩ := State.settle_beat (how := ⟨true, false, true⟩) (if s.trk.counted then s.trk.beat + 1 else s.trk.beat)
    1 still rfl
  rw [one] at beat
  have settled := State.settle_settled (how := ⟨true, false, true⟩) (if s.trk.counted then s.trk.beat + 1 else s.trk.beat)
    1 still nofun
  have arrived := State.settle_arrival (now := max s.clock t) false
    (if s.trk.counted then s.trk.beat + 1 else s.trk.beat) 1 still (by rw [trk']; rfl) (by rw [trk']; rfl)
    (by rw [trk']; rfl) (by rw [trk']; rfl) (by rw [trk']; rfl)
  refine ⟨_, he, ?_⟩
  generalize v.settle ⟨true, false, true⟩ (if s.trk.counted then s.trk.beat + 1 else s.trk.beat) 1 = u at *
  obtain ⟨bReal, tLast, tReal, synthetic, bounces, -, rearmed, tracks⟩ := arrived
  obtain ⟨frame, ⟨-, -, counted⟩, -, -, called, -, -, running⟩ := settled
  have sections := State.modeInForce_congr (s := s) (u := v) (by rw [begun, ready.wlk]) (by rw [begun, ready.wlk])
  refine ⟨?_, bReal, tLast, tReal, ?_, synthetic, bounces, tracks, fun inBeat => called ?_, rearmed, fun on => ?_,
    fun armed room => records _ (ready.started armed room), ?_⟩
  · rcases beat with at_ | ⟨more, -⟩
    · exact at_
    · exact absurd more (Nat.lt_irrefl 1)
  · rw [counted, trk']
    rfl
  · rw [sections.1]
    cases called : s.inCalledSection with
    | false => rfl
    | true => exact absurd ((State.notBeat_of_called called).symm.trans inBeat) nofun
  · rw [running on, begun, ctl]
  · rw [frame, begun]
    exact ⟨du, arb, links, desk⟩

/-! ### Ignored, bounced -/

/-- A beat in an engine state that takes none (R160). -/
theorem beatPress_ignored {s : State} {t : Time} {l : Line} (line : l = .beat ∨ l = .downbeat) (h : s.acceptsEdge t l)
    (idle : s.ctl.engine ≠ .running) (elsewhere : s.ctl.engine = .armed → s.inBeatSection = false) :
    exec (risingCommand t l) s = .next ((s.edgeTaken t l).setLine l { (s.edgeTaken t l).line l with
      ignored := min 4294967295 ((s.line l).ignored + 1) }) := by
  have ignored : ((s.edgeTaken t l).line l).ignored = (s.line l).ignored := by
    unfold State.edgeTaken
    rw [State.setLine_line_self]
  rw [execBeat_accepted line h, State.routeBeat_ignored (s := s.edgeTaken t l) idle elsewhere, State.countIgnored_eq]
  unfold LinePort.ignoredOnce
  rw [ignored]

/-- A beat in a lockout, or while the tracker is SUSPENDED (R46, R50). -/
theorem State.beatArrival_without {s : State} (down : Bool) (without : s.trk.lockout ≠ none ∨ s.trk.state = .suspended) :
    s.beatArrival down = s := by
  unfold State.beatArrival
  rcases without with locked | suspended
  · exact if_pos (Option.isSome_iff_ne_none.mpr locked)
  · rw [suspended]
    exact ite_self _

theorem State.beatArrival_bounce {s : State} (down : Bool) (free : s.trk.lockout = none)
    (tracking : s.trk.state = .tracking) (early : s.clock - s.trk.tLast < s.trk.period / 2) :
    s.beatArrival down = s.bounce := by
  unfold State.beatArrival
  rw [free, tracking]
  exact if_pos early

/-- A bounce is counted, and the eighth starts a lockout (R30, R46). -/
theorem State.bounce_counted {s : State} (tracking : s.trk.state = .tracking) :
    (s.trk.bounces + 1 < 8 → s.bounce = { s with trk := { s.trk with bounces := s.trk.bounces + 1 } }) ∧
    (8 ≤ s.trk.bounces + 1 → s.bounce = { s with
        smi := s.bounce.smi, trk := { s.trk with
          bounces := s.trk.bounces + 1, lockout := some (s.clock + 2000000) } } ∧
      s.bounce.smi.flags = { s.smi.flags with tracker := true } ∧
      (s.smi.journalQueue.length < 16 → s.bounce.smi.journalQueue = s.smi.journalQueue ++
        [⟨s.smi.journalCount, s.clock, .trackerState 3 3 5 s.trk.beat s.trk.period⟩])) := by
  refine ⟨fun few => ?_, fun many => ?_⟩
  · unfold State.bounce
    exact if_neg (Nat.not_le.mpr few)
  · have record : s.trk.state.code = 3 := by rw [tracking]; rfl
    have locks : s.bounce = ((s.setTracker { s.trk with
        bounces := s.trk.bounces + 1, lockout := some (s.clock + Config.lockoutLength) }).journal
          (.trackerState s.trk.state.code s.trk.state.code 5 s.trk.beat s.trk.period)).setCause .tracker := by
      unfold State.bounce
      exact if_pos many
    rw [record] at locks
    have frame : ∀ b, (s.setTracker { s.trk with
        bounces := s.trk.bounces + 1, lockout := some (s.clock + Config.lockoutLength) }).journal b =
        { s.setTracker { s.trk with
            bounces := s.trk.bounces + 1, lockout := some (s.clock + Config.lockoutLength) } with
          smi := ((s.setTracker { s.trk with
            bounces := s.trk.bounces + 1, lockout := some (s.clock + Config.lockoutLength) }).journal b).smi } :=
      fun b => State.journalAt_onlyBus _ b (State.onlyBus_refl _)
    have flags (v : State) (b : Journal) : (v.journal b).smi.flags = v.smi.flags := (State.journalAt_registers _ b v).2.1
    have queue (v : State) (b : Journal) (room : v.smi.journalQueue.length < 16) := State.journal_queue (s := v) b room
    rw [locks]
    refine ⟨?_, ?_, fun room => queue _ _ room⟩
    · rw [State.setCause, frame]
      rfl
    · show (State.journal _ _).smi.flags.setFlag .tracker = _
      rw [flags]
      rfl

/-! ### After a fermata, in FREEWHEEL and LOST -/

/-- The tracker as an after-fermata beat dates it (R31). -/
def Tracker.heldOver (now : Time) (k : Tracker) : Tracker := { k.dated now with absorb := k.absorbs.2 }

theorem State.afterFermata_eq (down : Bool) (s : State) : s.afterFermata down =
    (s.setTracker (s.trk.heldOver s.clock)).settle ⟨true, down, true⟩ (s.trk.beat + 1) s.trk.absorbs.1 := rfl

/-- The beat an arrival in FREEWHEEL or LOST is taken for (R40, R41). -/
def State.arrivalTarget (s : State) (now : Time) (target : Nat) : Prop :=
  (s.trk.state = .freewheel ∧ target = max s.trk.beat (s.trk.bReal + roundHalfUp (now - s.trk.tReal) s.trk.period)) ∨
    (s.trk.state = .lost ∧ target = s.trk.beat + 1)

theorem State.beatArrival_missing {s : State} (down : Bool) {target : Nat} (free : s.trk.lockout = none)
    (takenFor : s.arrivalTarget s.clock target) : ∃ v : State,
      v = { s with trk := { s.trk.dated s.clock with state := .tracking }, smi := v.smi } ∧
      s.beatArrival down = v.settle ⟨true, down, true⟩ (s.trk.beat + 1) (target - s.trk.beat) := by
  have frame := State.becomeState_frame .tracking .arrival target (s.setTracker (s.trk.dated s.clock))
  refine ⟨_, frame, ?_⟩
  rcases takenFor with ⟨freewheel, rfl⟩ | ⟨lost, rfl⟩
  · unfold State.beatArrival
    rw [free, freewheel]
    rfl
  · have one : s.trk.beat + 1 - s.trk.beat = 1 := Nat.add_sub_cancel_left ..
    unfold State.beatArrival
    rw [free, lost, one]
    rfl

/-- A BEAT after a beat in a fermata bar (R31, R45). -/
theorem beatPress_heldOver {s : State} {t : Time} (h : s.acceptsEdge t .beat) (running : s.ctl.engine = .running)
    (free : s.trk.lockout = none) (quiet : s.nothingFires) (tracking : s.trk.state = .tracking)
    (beat : s.trk.period / 2 ≤ max s.clock t - s.trk.tLast) (fermata : s.trk.facts.fermata = true) :
    ∃ u, exec (.beat t) s = .next u ∧ u.trk.beat = s.trk.beat + (if s.trk.absorb = 0 then 1 else 0) ∧
      u.trk.bReal = u.trk.beat ∧ u.trk.tLast = max s.clock t ∧ u.trk.tReal = max s.clock t ∧
      u.trk.synthetic = 0 ∧ u.trk.bounces = 0 ∧ (s.unmarked → s.trk.sameTempo u.trk) ∧ u.trk.rearmed ∧
      (u.trk.state = .tracking → u.trk.absorb = s.trk.absorb - 1) ∧ u.tracksUnlessLeft .tracking := by
  have he := execBeat_accepted (.inl rfl) h
  rw [State.routeBeat_running (s := s.edgeTaken t .beat) running,
    State.beatArrival_tracking (s := s.edgeTaken t .beat) _ free tracking beat,
    if_pos (show (s.edgeTaken t .beat).trk.facts.fermata = true from fermata), State.afterFermata_eq] at he
  obtain ⟨bReal, tLast, tReal, synthetic, bounces, tempo, rearmed, tracks⟩ := State.settle_arrival
    (v := (s.edgeTaken t .beat).setTracker (s.trk.heldOver (max s.clock t))) false (s.trk.beat + 1) s.trk.absorbs.1
    quiet tracking rfl rfl rfl rfl
  refine ⟨_, he, State.settle_absorbing (k := s.trk) rfl quiet rfl, bReal, tLast, tReal, synthetic, bounces, tempo,
    rearmed, fun still => ?_, tracks⟩
  obtain ⟨-, absorb⟩ := State.settle_beat (s := (s.edgeTaken t .beat).setTracker (s.trk.heldOver (max s.clock t)))
    (how := ⟨true, false, true⟩) (s.trk.beat + 1) s.trk.absorbs.1 quiet rfl
  rcases absorb with suspended | same
  · exact TrackerState.noConfusion (suspended.symm.trans still)
  · exact same.trans s.trk.absorbs_eq.2

/-- A BEAT in FREEWHEEL or LOST (R40, R41). -/
theorem beatPress_missing {s : State} {t : Time} {target : Nat} (h : s.acceptsEdge t .beat)
    (running : s.ctl.engine = .running) (free : s.trk.lockout = none) (quiet : s.nothingFires)
    (takenFor : s.arrivalTarget (max s.clock t) target) :
    ∃ u, exec (.beat t) s = .next u ∧ (u.trk.beat = target ∨ (u.trk.beat < target ∧ u.inBeatSection = false)) ∧
      u.trk.bReal = u.trk.beat ∧ u.trk.tLast = max s.clock t ∧ u.trk.tReal = max s.clock t ∧
      u.trk.synthetic = 0 ∧ u.trk.bounces = 0 ∧ (s.unmarked → s.trk.sameTempo u.trk) ∧ u.trk.rearmed ∧
      u.tracksUnlessLeft .tracking := by
  have he := execBeat_accepted (.inl rfl) h
  obtain ⟨v, begun, settles⟩ := State.beatArrival_missing (s := s.edgeTaken t .beat) false free takenFor
  rw [State.routeBeat_running (s := s.edgeTaken t .beat) running, show (Line.beat == Line.downbeat) = false from rfl,
    settles] at he
  have still : v.nothingFires := by
    rw [begun]
    exact quiet
  have trk : v.trk = { s.trk.dated (max s.clock t) with state := .tracking } := by
    rw [begun]
    rfl
  have from_ : s.trk.beat ≤ target := by
    rcases takenFor with ⟨-, rfl⟩ | ⟨-, rfl⟩
    · exact le_max_left _ _
    · exact Nat.le_succ _
  obtain ⟨dated, -⟩ := State.settle_beat (how := ⟨true, false, true⟩) (s.trk.beat + 1) (target - s.trk.beat) still rfl
  have last : (if target - s.trk.beat = 0 then v.trk.beat else s.trk.beat + 1 + (target - s.trk.beat) - 1) = target := by
    have same : v.trk.beat = s.trk.beat := by rw [trk]; rfl
    split <;> omega
  rw [last] at dated
  obtain ⟨bReal, tLast, tReal, synthetic, bounces, tempo, rearmed, tracks⟩ := State.settle_arrival
    (now := max s.clock t) false (s.trk.beat + 1) (target - s.trk.beat) still (by rw [trk]) (by rw [trk]; rfl)
    (by rw [trk]; rfl) (by rw [trk]; rfl) (by rw [trk]; rfl)
  refine ⟨_, he, dated.imp id fun ⟨_, early, left⟩ => ⟨early, left⟩, bReal, tLast, tReal, synthetic, bounces,
    fun unmarked => ?_, rearmed, tracks⟩
  rw [trk] at tempo
  exact tempo (by
    rw [begun]
    exact unmarked)

end Sys2Proof.Machine
end

section
/-! DOWNBEAT corrects the bar (R43, R44): beats counted before the final beat of their pass. -/

namespace Sys2Proof.Machine

/-- The tracker as an arrival in TRACKING that is no bounce leaves it to be settled. -/
structure Tracker.Arrived (k : Tracker) (now : Time) (j : Tracker) : Prop where
  state : j.state = .tracking
  beat : j.beat = k.beat
  absorb : j.absorb = k.absorb - 1
  facts : j.facts = k.facts
  tLast : j.tLast = now

theorem State.beatArrival_arrived {s : State} (down : Bool) (free : s.trk.lockout = none)
    (tracking : s.trk.state = .tracking) (beat : s.trk.period / 2 ≤ s.clock - s.trk.tLast) : ∃ k : Tracker,
      s.trk.Arrived s.clock k ∧ s.beatArrival down =
        (s.setTracker k).settle ⟨true, down, true⟩ (s.trk.beat + 1) s.trk.absorbs.1 := by
  rw [State.beatArrival_tracking down free tracking beat]
  split
  · exact ⟨s.trk.heldOver s.clock, ⟨tracking, rfl, s.trk.absorbs_eq.2, rfl, rfl⟩, s.afterFermata_eq down⟩
  · exact ⟨s.trk.measured s.clock, ⟨tracking, rfl, s.trk.absorbs_eq.2, rfl, rfl⟩, s.normalBeat_eq down⟩

/-! ### Beats before the final one -/

/-- Beats have been handed over, or the bar corrected, with the section and pass in force as they were and nothing
journalled. -/
structure State.WithinPass (s u : State) : Prop where
  handed : s.BeatsHanded u
  inForce : u.wlk.inForce = s.wlk.inForce
  origin : u.wlk.origin = s.wlk.origin
  journal : u.smi.journalQueue = s.smi.journalQueue ∧ u.smi.journalCount = s.smi.journalCount

namespace State.WithinPass

variable {s u v : State}

theorem refl (s : State) : s.WithinPass s := ⟨.refl s, rfl, rfl, rfl, rfl⟩

theorem trans (h : s.WithinPass u) (g : u.WithinPass v) : s.WithinPass v :=
  ⟨h.handed.trans g.handed, g.inForce.trans h.inForce, g.origin.trans h.origin, g.journal.1.trans h.journal.1,
    g.journal.2.trans h.journal.2⟩

theorem of_tracker {k : Tracker} (frame : s.BeatsHanded (s.setTracker k)) : s.WithinPass (s.setTracker k) :=
  ⟨frame, rfl, rfl, rfl, rfl⟩

variable (h : s.WithinPass u) {n b : Nat} {x : Section}
include h

theorem sec : u.wlk.sec n = s.wlk.sec n := by
  unfold Walker.sec
  rw [h.handed.script]

theorem beforeFinal (within : s.beforeFinal x b) : u.beforeFinal x b := by
  unfold State.beforeFinal Walker.lengthOf Walker.barsOf at *
  rw [h.origin, h.handed.script]
  exact within

end State.WithinPass

theorem State.reviewOffers_within (v : State) : v.WithinPass v.reviewOffers :=
  have offers := State.reviewOffers_moved v
  ⟨.of_offers offers, offers.inForce, offers.origin, State.reviewOffers_queue v⟩

theorem State.barFound_within (b n bar beat : Nat) (r : Bar) (s : State) : s.WithinPass (s.barFound b n bar beat r) :=
  ⟨⟨rfl, rfl⟩, rfl, rfl, rfl, rfl⟩

/-- A beat before the final one of its pass moves no section (R54). -/
theorem State.mapBeat_beforeFinal {s : State} {n b : Nat} {x : Section} (inForce : s.wlk.inForce = .sec n)
    (sec : s.wlk.sec n = some x) (within : s.beforeFinal x b) :
    s.WithinPass (s.mapBeat b).1 ∧ (s.mapBeat b).2.moved = false := by
  have stands (same : s.mapBeat b = (s, ⟨false, false⟩)) :
      s.WithinPass (s.mapBeat b).1 ∧ (s.mapBeat b).2.moved = false := by
    rw [same]
    exact ⟨.refl s, rfl⟩
  cases again : s.wlk.walked.any fun v => decide (b ≤ v) with
  | true => exact stands (State.mapBeat_again inForce again)
  | false =>
    cases found : findBar (s.wlk.barsOf x) 1 ((b : Int) - s.wlk.origin).toNat with
    | none => exact stands (State.mapBeat_outside inForce sec found)
    | some p =>
      obtain ⟨bar, beat, r⟩ := p
      obtain ⟨after, before⟩ := within
      rw [State.mapBeat_within inForce sec again found (by omega)]
      exact ⟨(s.barFound_within b n bar beat r).trans (State.reviewOffers_within _), rfl⟩

theorem State.beforeFinal_earlier {s : State} {x : Section} {a b : Nat} (within : s.beforeFinal x b) (earlier : a ≤ b)
    (after : s.wlk.origin ≤ (a : Int)) : s.beforeFinal x a := ⟨after, by have := within.2; omega⟩

/-- A run of beats that ends before the final one of the pass (R43). -/
theorem State.runBeats_beforeFinal {n : Nat} {x : Section} (k b : Nat) (r : RunResult) (s : State)
    (unmoved : r.moved = false) (inForce : s.wlk.inForce = .sec n) (sec : s.wlk.sec n = some x)
    (after : s.wlk.origin ≤ (b : Int)) (within : s.beforeFinal x (b + k)) :
    s.WithinPass (State.runBeats (k + 1) b r s).1 ∧ (State.runBeats (k + 1) b r s).2.moved = false ∧
      (State.runBeats (k + 1) b r s).1.trk.beat = b + k ∧ (State.runBeats (k + 1) b r s).2.count = r.count + (k + 1) := by
  induction k generalizing b r s with
  | zero =>
    obtain ⟨r', moved, count, -, run⟩ := s.runBeats_succ 0 b r
    have begun : s.WithinPass (s.setTracker { s.trk with beat := b }) := .of_tracker ⟨rfl, rfl⟩
    obtain ⟨handed, still⟩ := State.mapBeat_beforeFinal (s := s.setTracker { s.trk with beat := b }) (b := b) inForce
      sec within
    have done := (s.setTracker { s.trk with beat := b }).mapBeat_done b
    rw [run, moved, still]
    refine ⟨begun.trans handed, moved.trans still, ?_, count⟩
    show ((s.setTracker { s.trk with beat := b }).mapBeat b).1.trk.beat = _
    rw [done.trk]
    rfl
  | succ k ih =>
    obtain ⟨r', moved, count, -, run⟩ := s.runBeats_succ (k + 1) b r
    have begun : s.WithinPass (s.setTracker { s.trk with beat := b }) := .of_tracker ⟨rfl, rfl⟩
    obtain ⟨handed, still⟩ := State.mapBeat_beforeFinal (s := s.setTracker { s.trk with beat := b }) inForce sec
      (State.beforeFinal_earlier (s := s) within (Nat.le_add_right b _) after)
    have first := begun.trans handed
    rw [still] at moved
    rw [run, moved]
    obtain ⟨rest, still', beat, count'⟩ := ih (b + 1) r' _ moved (first.inForce.trans inForce) (first.sec.trans sec)
      (by rw [first.origin]; omega) (first.beforeFinal (by rw [show b + 1 + k = b + (k + 1) by omega]; exact within))
    exact ⟨first.trans rest, still', beat.trans (by omega), count'.trans (by omega)⟩

/-! ### The beat a DOWNBEAT is found on -/

theorem State.handRun_one (first : Nat) (s : State) : ∃ r : RunResult,
    s.handRun first 1 = (((s.setTracker { s.trk with beat := first }).mapBeat first).1, r) ∧
      r.moved = ((s.setTracker { s.trk with beat := first }).mapBeat first).2.moved := by
  obtain ⟨r, moved, -, -, run⟩ := s.runBeats_succ 0 first .start
  refine ⟨r, ?_, moved⟩
  show s.runBeats 1 first .start = _
  rw [run]
  exact ite_self _

theorem State.handRun_zero (first : Nat) (s : State) : s.handRun first 0 = s.handRun s.trk.beat 1 := rfl

/-- The walk stands on beat `m` of a bar of `n` beats (R43). -/
theorem State.handRun_downbeat {s : State} {k : Tracker} {now : Time} {x : Section} {b m n : Nat}
    (arrived : s.trk.Arrived now k) (finds : s.downbeatFinds x b m n) : ∃ sec_ q,
    (s.setTracker k).handRun (s.trk.beat + 1) s.trk.absorbs.1 = q ∧ s.wlk.inForce = .sec sec_ ∧
      s.wlk.sec sec_ = some x ∧ (s.setTracker k).WithinPass q.1 ∧ q.2.moved = false ∧ q.1.trk.beat = b ∧
      q.1.trk.facts.beatInBar = m ∧ q.1.trk.facts.beats = n ∧ q.1.trk.absorb = k.absorb := by
  obtain ⟨within, finds⟩ := finds
  rcases finds with ⟨absorbs, rfl, walked, rfl, rfl, sec_, inForce, sec, -⟩ |
    ⟨counts, rfl, r, ⟨sec_, bar, inForce, sec, -, walked, found⟩, rfl⟩
  · have none : s.trk.absorbs.1 = 0 := by
      rw [s.trk.absorbs_eq.1]
      exact if_neg (Nat.pos_iff_ne_zero.mp absorbs)
    have same : ((s.setTracker k).setTracker { k with beat := s.trk.beat }).mapBeat s.trk.beat =
        ((s.setTracker k).setTracker { k with beat := s.trk.beat }, ⟨false, false⟩) :=
      State.mapBeat_again inForce (by
        show (s.wlk.walked.any fun v => decide (s.trk.beat ≤ v)) = true
        rw [walked]
        exact decide_eq_true (Nat.le_refl s.trk.beat))
    obtain ⟨r, run, moved⟩ := (s.setTracker k).handRun_one s.trk.beat
    rw [none, State.handRun_zero, show (s.setTracker k).trk.beat = s.trk.beat from arrived.beat, run]
    rw [show (s.setTracker k).trk = k from rfl, same] at moved ⊢
    exact ⟨sec_, _, rfl, inForce, sec, .of_tracker ⟨rfl, rfl⟩, moved, rfl, congrArg BarFacts.beatInBar arrived.facts,
      congrArg BarFacts.beats arrived.facts, rfl⟩
  · have one : s.trk.absorbs.1 = 1 := by
      rw [s.trk.absorbs_eq.1]
      exact if_pos counts
    have fresh : (s.wlk.walked.any fun v => decide (s.trk.beat + 1 ≤ v)) = false := by
      rw [walked]
      exact decide_eq_false (Nat.not_succ_le_self s.trk.beat)
    have mapped := State.mapBeat_within (s := (s.setTracker k).setTracker { k with beat := s.trk.beat + 1 })
      (b := s.trk.beat + 1) inForce sec fresh found (by
        obtain ⟨after, before⟩ := within
        show (((s.trk.beat + 1 : Nat) : Int) - s.wlk.origin).toNat + 1 ≠ s.wlk.lengthOf x
        omega)
    obtain ⟨r', run, moved⟩ := (s.setTracker k).handRun_one (s.trk.beat + 1)
    rw [one, run]
    rw [show (s.setTracker k).trk = k from rfl, mapped] at moved ⊢
    have offers := State.reviewOffers_moved
      (((s.setTracker k).setTracker { k with beat := s.trk.beat + 1 }).barFound (s.trk.beat + 1) sec_ bar m r)
    have begun : (s.setTracker k).WithinPass ((s.setTracker k).setTracker { k with beat := s.trk.beat + 1 }) :=
      .of_tracker ⟨rfl, rfl⟩
    have trk := offers.blocks.1
    refine ⟨sec_, _, rfl, inForce, sec, begun.trans ((State.barFound_within _ _ _ _ _ _).trans
      (State.reviewOffers_within _)), moved, ?_⟩
    dsimp only
    rw [trk]
    exact ⟨rfl, rfl, rfl, rfl⟩

/-! ### The correction -/

section Correction

variable {v : State} {r : RunResult} {m n : Nat} (place : v.trk.facts.beatInBar = m) (bar : v.trk.facts.beats = n)
include place

theorem State.correctBar_first (first : m = 1) : v.correctBar r = (v.setTracker { v.trk with absorb := 0 }, r) := by
  unfold State.correctBar
  exact if_pos (place.trans first)

include bar

theorem State.correctBar_ahead (later : m ≠ 1) (ahead : 2 * m ≤ n) : v.correctBar r =
    ((v.setTracker { v.trk with absorb := m - 1 }).journalCorrection m n (-((m - 1 : Nat) : Int)), r) := by
  unfold State.correctBar
  dsimp only
  rw [place, bar, if_neg later, if_neg (Nat.not_lt.mpr ahead)]

theorem State.correctBar_behind (later : m ≠ 1) (behind : n < 2 * m) {q : State × RunResult}
    (run : (v.setTracker { v.trk with absorb := 0 }).runBeats (n - m + 1) (v.trk.beat + 1) { r with count := 0 } = q) :
    v.correctBar r =
      ((q.1.setTracker { q.1.trk with bReal := q.1.trk.beat }).journalCorrection m n (q.2.count : Int), q.2) := by
  unfold State.correctBar
  dsimp only
  rw [place, bar, if_neg later, if_pos behind, run]

end Correction

/-- A settled beat that moves no section, with the section in force not END: the tracker and the journal. -/
theorem State.settle_within {v : State} {how : Settle} {first n k : Nat} {q : State × RunResult} (quiet : v.nothingFires)
    (is : v.settleWalk how first n = q) (handed : v.BeatsHanded q.1) (unmoved : q.2.moved = false)
    (inForce : q.1.wlk.inForce = .sec k) :
    (v.settle how first n).trk = q.1.trk.settled how.arms q.2 ∧ (v.settle how first n).smi = q.1.smi := by
  have cases_ := State.settle_quiet how first n quiet _ rfl (is ▸ handed)
  rw [is] at cases_
  obtain ⟨frame, -, -, -, smi⟩ := State.settleHand_frame how q
  have on : (State.settleHand how q).wlk.inForce = .sec k := by
    rw [frame]
    exact inForce
  have smi := smi unmoved
  have trk : (State.settleHand how q).trk = q.1.trk.settled how.arms q.2 := by rw [frame]
  rcases cases_ with ⟨same, -⟩ | ⟨-, passed, -⟩
  · rw [same]
    exact ⟨trk, smi⟩
  · exact absurd (on.symm.trans passed) nofun

theorem State.journalCorrection_frame (m n : Nat) (a : Int) (v : State) : v.journalCorrection m n a = { v with
    smi := (v.journalCorrection m n a).smi } := State.journalAt_onlyBus _ _ (State.onlyBus_refl _)

/-- The bar of a counted DOWNBEAT has been corrected: no section has moved, the absorb count, the show beat and the last
real beat stand so, and these are the records. -/
structure State.Corrected (v : State) (absorb beat : Nat) (records : List JournalRecord) (p : State × RunResult) :
    Prop where
  handed : v.BeatsHanded p.1
  unmoved : p.2.moved = false
  inForce : p.1.wlk.inForce = v.wlk.inForce
  absorbs : p.1.trk.absorb = absorb
  dated : p.1.trk.beat = beat
  real : p.1.trk.bReal = beat
  queue : p.1.smi.journalQueue = v.smi.journalQueue ++ records
  count : records = [] → p.1.smi.journalCount = v.smi.journalCount

section Corrected

variable {v : State} {r : RunResult} {m n : Nat} (place : v.trk.facts.beatInBar = m) (bar : v.trk.facts.beats = n)
  (real : v.trk.bReal = v.trk.beat) (unmoved : r.moved = false)
include place real unmoved

theorem State.correctBar_onFirst (first : m = 1) : v.Corrected 0 v.trk.beat [] (v.correctBar r) := by
  rw [State.correctBar_first place first]
  exact ⟨⟨rfl, rfl⟩, unmoved, rfl, rfl, rfl, real, (List.append_nil _).symm, fun _ => rfl⟩

variable (room : v.smi.journalQueue.length < 16)
include bar room

theorem State.correctBar_absorbs (later : m ≠ 1) (ahead : 2 * m ≤ n) : v.Corrected (m - 1) v.trk.beat
    [⟨v.smi.journalCount, v.clock, .barCorrection m n (-((m - 1 : Nat) : Int)) v.trk.beat⟩] (v.correctBar r) := by
  rw [State.correctBar_ahead place bar later ahead]
  have frame := State.journalCorrection_frame m n (-((m - 1 : Nat) : Int)) (v.setTracker { v.trk with absorb := m - 1 })
  have queue := State.journal_queue (s := v.setTracker { v.trk with absorb := m - 1 })
    (.barCorrection m n (-((m - 1 : Nat) : Int)) v.trk.beat) room
  rw [show (v.setTracker { v.trk with absorb := m - 1 }).journal (.barCorrection m n (-((m - 1 : Nat) : Int)) v.trk.beat) =
    (v.setTracker { v.trk with absorb := m - 1 }).journalCorrection m n (-((m - 1 : Nat) : Int)) from rfl] at queue
  generalize (v.setTracker { v.trk with absorb := m - 1 }).journalCorrection m n (-((m - 1 : Nat) : Int)) = u at *
  have trk : u.trk = { v.trk with absorb := m - 1 } := by rw [frame]; rfl
  exact ⟨⟨by rw [frame]; rfl, by rw [frame]; rfl⟩, unmoved, by rw [frame]; rfl, by rw [trk], by rw [trk],
    by rw [trk]; exact real, queue, nofun⟩

omit real in
theorem State.correctBar_carries {sec_ : Nat} {x : Section} (inForce : v.wlk.inForce = .sec sec_)
    (sec : v.wlk.sec sec_ = some x) (later : m ≠ 1) (behind : n < 2 * m)
    (after : v.wlk.origin ≤ (v.trk.beat : Int)) (before : v.beforeFinal x (v.trk.beat + (n - m + 1))) :
    v.Corrected 0 (v.trk.beat + (n - m + 1)) [⟨v.smi.journalCount, v.clock,
      .barCorrection m n ((n - m + 1 : Nat) : Int) (v.trk.beat + (n - m + 1))⟩] (v.correctBar r) := by
  obtain ⟨walks, still, beat, count⟩ := State.runBeats_beforeFinal (n - m) (v.trk.beat + 1) { r with count := 0 }
    (v.setTracker { v.trk with absorb := 0 }) unmoved inForce sec (by
      show v.wlk.origin ≤ ((v.trk.beat + 1 : Nat) : Int)
      omega) (by
      rw [show v.trk.beat + 1 + (n - m) = v.trk.beat + (n - m + 1) by omega]
      exact before)
  have absorb := (State.runBeats_done (n - m + 1) (v.trk.beat + 1) { r with count := 0 }
    (v.setTracker { v.trk with absorb := 0 }) unmoved).dated.1
  rw [State.correctBar_behind place bar later behind rfl]
  generalize (v.setTracker { v.trk with absorb := 0 }).runBeats (n - m + 1) (v.trk.beat + 1) { r with count := 0 } = q at *
  have begun : v.WithinPass (v.setTracker { v.trk with absorb := 0 }) := .of_tracker ⟨rfl, rfl⟩
  have whole := begun.trans walks
  have counted : q.2.count = n - m + 1 := count.trans (Nat.zero_add _)
  have reached : q.1.trk.beat = v.trk.beat + (n - m + 1) := by omega
  rw [counted]
  have frame := State.journalCorrection_frame m n ((n - m + 1 : Nat) : Int)
    (q.1.setTracker { q.1.trk with bReal := q.1.trk.beat })
  have queue := State.journal_queue (s := q.1.setTracker { q.1.trk with bReal := q.1.trk.beat })
    (.barCorrection m n ((n - m + 1 : Nat) : Int) q.1.trk.beat) (by
      show q.1.smi.journalQueue.length < 16
      rw [whole.journal.1]
      exact room)
  rw [show (q.1.setTracker { q.1.trk with bReal := q.1.trk.beat }).journal
      (.barCorrection m n ((n - m + 1 : Nat) : Int) q.1.trk.beat) =
    (q.1.setTracker { q.1.trk with bReal := q.1.trk.beat }).journalCorrection m n ((n - m + 1 : Nat) : Int) from rfl,
    show (q.1.setTracker { q.1.trk with bReal := q.1.trk.beat }).smi = q.1.smi from rfl,
    show (q.1.setTracker { q.1.trk with bReal := q.1.trk.beat }).clock = q.1.clock from rfl,
    whole.journal.1, whole.journal.2,
    show q.1.clock = v.clock by rw [whole.handed.frame]] at queue
  generalize (q.1.setTracker { q.1.trk with bReal := q.1.trk.beat }).journalCorrection m n ((n - m + 1 : Nat) : Int) =
    u at *
  rw [reached] at queue
  have handed : q.1.BeatsHanded u := ⟨by rw [frame]; rfl, by rw [frame]; rfl⟩
  exact ⟨whole.handed.trans handed, still, by rw [frame]; exact whole.inForce, by rw [frame]; exact absorb,
    by rw [frame]; exact reached, by rw [frame]; exact reached, queue, nofun⟩

end Corrected

/-- The show beat as the last real beat. -/
def State.realNoted (s : State) : State := s.setTracker { s.trk with bReal := s.trk.beat }

theorem State.settleWalk_corrected {v : State} {first n : Nat} {q : State × RunResult} (run : v.handRun first n = q)
    (unmoved : q.2.moved = false) : v.settleWalk ⟨true, true, true⟩ first n = q.1.realNoted.correctBar q.2 := by
  unfold State.settleWalk
  rw [run]
  dsimp only
  rw [unmoved]
  rfl

/-- A DOWNBEAT settled with its correction. -/
theorem State.settle_corrected {v w : State} {first n k : Nat} {r : RunResult} {absorb beat : Nat}
    {records : List JournalRecord} (quiet : v.nothingFires)
    (walk : v.settleWalk ⟨true, true, true⟩ first n = w.correctBar r) (handed : v.BeatsHanded w)
    (inForce : w.wlk.inForce = .sec k) (corrected : w.Corrected absorb beat records (w.correctBar r)) :
    let u := v.settle ⟨true, true, true⟩ first n
    u.trk.state = v.trk.state ∧ u.trk.absorb = absorb ∧ u.trk.beat = beat ∧ u.trk.bReal = beat ∧
      u.smi = (w.correctBar r).1.smi := by
  obtain ⟨trk, smi⟩ := State.settle_within quiet walk (handed.trans corrected.handed) corrected.unmoved
    (corrected.inForce.trans inForce)
  generalize v.settle ⟨true, true, true⟩ first n = u at *
  generalize w.correctBar r = p at *
  obtain ⟨state, -, -, absorb'⟩ := p.1.trk.settled_unmoved true p.2 corrected.unmoved
  obtain ⟨beat', real', -⟩ := p.1.trk.settled_dates true p.2
  have same : p.1.trk.state = v.trk.state := by rw [(handed.trans corrected.handed).frame]
  show _ ∧ _
  rw [trk, state, absorb', beat', real']
  exact ⟨same, corrected.absorbs, corrected.dated, corrected.real, smi⟩

/-- A DOWNBEAT in TRACKING that is no bounce, found on beat `m` of a bar of `n` beats (R43 to R45). -/
theorem beatPress_corrects {s : State} {t : Time} {x : Section} {b m n : Nat} (h : s.acceptsEdge t .downbeat)
    (running : s.ctl.engine = .running) (free : s.trk.lockout = none) (quiet : s.nothingFires)
    (tracking : s.trk.state = .tracking) (beat : s.trk.period / 2 ≤ max s.clock t - s.trk.tLast)
    (finds : s.downbeatFinds x b m n) (room : s.smi.journalQueue.length < 16) :
    ∃ u, exec (.downbeat t) s = .next u ∧
      (m = 1 → u.trk.state = .tracking ∧ u.trk.absorb = 0 ∧ u.trk.beat = b ∧
        u.smi.journalCount = s.smi.journalCount) ∧
      (1 < m → 2 * m ≤ n → u.trk.state = .tracking ∧ u.trk.absorb = m - 1 ∧ u.trk.beat = b ∧
        u.smi.journalQueue = s.smi.journalQueue ++
          [⟨s.smi.journalCount, max s.clock t, .barCorrection m n (-((m - 1 : Nat) : Int)) b⟩]) ∧
      (1 < m → m ≤ n → n < 2 * m → s.beforeFinal x (b + (n - m + 1)) → u.trk.state = .tracking ∧
        u.trk.absorb = 0 ∧ u.trk.beat = b + (n - m + 1) ∧ u.trk.bReal = u.trk.beat ∧
        u.smi.journalQueue = s.smi.journalQueue ++ [⟨s.smi.journalCount, max s.clock t,
          .barCorrection m n ((n - m + 1 : Nat) : Int) (b + (n - m + 1))⟩]) := by
  have he := execBeat_accepted (.inr rfl) h
  obtain ⟨k, arrived, settles⟩ := State.beatArrival_arrived (s := s.edgeTaken t .downbeat) true free tracking beat
  rw [State.routeBeat_running (s := s.edgeTaken t .downbeat) running,
    show (Line.downbeat == Line.downbeat) = true from rfl, settles] at he
  obtain ⟨sec_, q, run, inForce, sec, within, unmoved, dated, place, bar, -⟩ :=
    State.handRun_downbeat (s := s.edgeTaken t .downbeat) arrived finds
  have walk := State.settleWalk_corrected run unmoved
  have still : ((s.edgeTaken t .downbeat).setTracker k).nothingFires := quiet
  have noted : q.1.WithinPass q.1.realNoted := .of_tracker ⟨rfl, rfl⟩
  have reached := within.trans noted
  have clock : q.1.realNoted.clock = max s.clock t := by
    rw [reached.handed.frame]
    rfl
  have beat_ : q.1.realNoted.trk.beat = b := dated
  have inForce' := reached.inForce.trans inForce
  have queue : q.1.realNoted.smi.journalQueue = s.smi.journalQueue := reached.journal.1
  have count : q.1.realNoted.smi.journalCount = s.smi.journalCount := reached.journal.2
  have room' : q.1.realNoted.smi.journalQueue.length < 16 := by
    rw [queue]
    exact room
  refine ⟨_, he, fun first => ?_, fun later ahead => ?_, fun later _ behind before => ?_⟩
  · have corrected := State.correctBar_onFirst (v := q.1.realNoted) place rfl unmoved first
    rw [beat_] at corrected
    obtain ⟨state, absorb, at_, -, smi⟩ := State.settle_corrected still walk reached.handed inForce' corrected
    exact ⟨state.trans arrived.state, absorb, at_, (congrArg Interface.journalCount smi).trans
      ((corrected.count rfl).trans count)⟩
  · have corrected := State.correctBar_absorbs (v := q.1.realNoted) place bar rfl unmoved room' (by omega) ahead
    rw [beat_] at corrected
    obtain ⟨state, absorb, at_, -, smi⟩ := State.settle_corrected still walk reached.handed inForce' corrected
    have joined := corrected.queue
    rw [queue, count, clock] at joined
    exact ⟨state.trans arrived.state, absorb, at_, (congrArg Interface.journalQueue smi).trans joined⟩
  · have corrected := State.correctBar_carries (v := q.1.realNoted) place bar unmoved room' inForce'
      (reached.sec.trans sec) (by omega) behind (by
        rw [reached.origin, beat_]
        exact finds.1.1) (by
        rw [beat_]
        exact reached.beforeFinal before)
    rw [beat_] at corrected
    obtain ⟨state, absorb, at_, real, smi⟩ := State.settle_corrected still walk reached.handed inForce' corrected
    have joined := corrected.queue
    rw [queue, count, clock] at joined
    exact ⟨state.trans arrived.state, absorb, at_, real.trans at_.symm, (congrArg Interface.journalQueue smi).trans joined⟩

end Sys2Proof.Machine
end

section
/-! The final beat of a pass (R55, R56, R66, R175), tempo marks (R36), and O45. -/

namespace Sys2Proof.Machine

theorem findBar_some {bars : List Bar} {n d : Nat} (inside : d < beatsIn bars) : ∃ p, findBar bars n d = some p := by
  induction bars generalizing n d with
  | nil => exact absurd inside (Nat.not_lt_zero d)
  | cons r rs ih =>
    unfold findBar
    split
    · exact ⟨_, rfl⟩
    · refine ih ?_
      unfold beatsIn at inside ⊢
      rw [List.map_cons, List.sum_cons] at inside
      omega

/-! ### A single beat settled -/

/-- A BEAT that raises the show beat by 1 and corrects nothing: what mapping it gave is what it is settled with. -/
theorem State.settleWalk_one (b : Nat) (v : State) : ∃ r : RunResult,
    v.settleWalk ⟨true, false, true⟩ b 1 = (((v.setTracker { v.trk with beat := b }).mapBeat b).1.realNoted, r) ∧
      r.moved = ((v.setTracker { v.trk with beat := b }).mapBeat b).2.moved ∧
      (((v.setTracker { v.trk with beat := b }).mapBeat b).2.fresh = true →
        ((v.setTracker { v.trk with beat := b }).mapBeat b).1.trk.facts.beatInBar = 1 →
        ((v.setTracker { v.trk with beat := b }).mapBeat b).1.trk.facts.mark ≠ 0 →
        r.mark = some ((v.setTracker { v.trk with beat := b }).mapBeat b).1.trk.facts.mark) := by
  refine ⟨{
    mark := if ((v.setTracker { v.trk with beat := b }).mapBeat b).2.fresh &&
        ((v.setTracker { v.trk with beat := b }).mapBeat b).1.trk.facts.beatInBar == 1 &&
        ((v.setTracker { v.trk with beat := b }).mapBeat b).1.trk.facts.mark != 0
      then some ((v.setTracker { v.trk with beat := b }).mapBeat b).1.trk.facts.mark else none
    moved := ((v.setTracker { v.trk with beat := b }).mapBeat b).2.moved, count := 1 }, ?_, rfl,
    fun fresh first marked => ?_⟩
  · unfold State.settleWalk State.handRun
    rw [if_neg Nat.one_ne_zero]
    unfold State.runBeats
    dsimp only
    cases moved : ((v.setTracker { v.trk with beat := b }).mapBeat b).2.moved <;> rfl
  · refine if_pos ?_
    rw [fresh, first, Bool.true_and, Bool.and_eq_true]
    exact ⟨rfl, bne_iff_ne.mpr marked⟩

theorem State.settleHand_records (how : Settle) (q : State × RunResult) {r : JournalRecord}
    (there : r ∈ q.1.smi.journalQueue) : r ∈ (State.settleHand how q).smi.journalQueue := by
  unfold State.settleHand
  dsimp only
  rw [State.applyMark_eq]
  show r ∈ (if q.2.moved then (q.1.setTracker q.1.trk.suspended).journalTracker q.1.trk.state .sectionChange
    else q.1).smi.journalQueue
  split
  · exact (Bus.journaled r).journal _ _ there
  · exact there

/-- A single beat settled with nothing that fires, where `e` is what mapping it gives: the walk is that of `e`, or the
automatic end has come upon it. -/
structure State.BeatSettled (v : State) (b : Nat) (e : State × Mapped) (u : State) : Prop where
  clock : u.clock = v.clock
  beat : u.trk.beat = b
  records : ∀ r ∈ e.1.smi.journalQueue, r ∈ u.smi.journalQueue
  walked : (u.wlk = e.1.wlk ∧ u.ctl = v.ctl ∧
      (v.ctl.engine = .running → v.wlk.inForce ≠ .endOfShow → e.1.wlk.inForce = .endOfShow → v.sch.armed ≠ []) ∧
      (e.2.moved = true → u.trk.state = .suspended ∧ u.trk.timeout = none) ∧
      (e.2.moved = false → u.trk.state = v.trk.state)) ∨
    (e.1.wlk.inForce = .endOfShow ∧ v.sch.armed = [] ∧ u.wlk = { e.1.wlk with history := [], owedGo := none } ∧
      u.ctl.engine = .ended ∧ u.trk.state = .suspended)

theorem State.settle_one {v : State} (b : Nat) (quiet : v.nothingFires) :
    v.BeatSettled b ((v.setTracker { v.trk with beat := b }).mapBeat b) (v.settle ⟨true, false, true⟩ b 1) := by
  obtain ⟨r, walk, moved, -⟩ := v.settleWalk_one b
  have done := (v.setTracker { v.trk with beat := b }).mapBeat_done b
  have cases_ := State.settle_quiet (how := ⟨true, false, true⟩) b 1 quiet _ rfl
    (State.settleWalk_done b 1 v fun corrects => Bool.noConfusion corrects).1.handed
  rw [walk] at cases_
  generalize (v.setTracker { v.trk with beat := b }).mapBeat b = e at *
  obtain ⟨frame, -, -, armed, -⟩ := State.settleHand_frame ⟨true, false, true⟩ (e.1.realNoted, r)
  have kept (x : JournalRecord) (there : x ∈ e.1.smi.journalQueue) :
      x ∈ (State.settleHand ⟨true, false, true⟩ (e.1.realNoted, r)).smi.journalQueue :=
    State.settleHand_records ⟨true, false, true⟩ (e.1.realNoted, r) there
  generalize State.settleHand ⟨true, false, true⟩ (e.1.realNoted, r) = z at *
  have trk : z.trk = e.1.realNoted.trk.settled true r := by rw [frame]
  have clock : z.clock = v.clock := by
    rw [frame]
    show e.1.clock = _
    rw [done.handed.frame]
    rfl
  have beat : z.trk.beat = b := by
    rw [trk, (e.1.realNoted.trk.settled_dates true r).1]
    show e.1.trk.beat = b
    rw [done.trk]
    rfl
  have wlk : z.wlk = e.1.wlk := by rw [frame]; rfl
  have ctl : z.ctl = v.ctl := by
    rw [frame]
    show e.1.ctl = _
    rw [done.handed.frame]
    rfl
  have list : z.sch.armed = [] ↔ v.sch.armed = [] := by
    rw [armed, List.map_eq_nil_iff]
    show e.1.sch.armed = [] ↔ _
    rw [done.handed.frame]
    rfl
  rcases cases_ with ⟨same, ends⟩ | ⟨-, passed, empty, ended⟩
  · rw [same]
    refine ⟨clock, beat, kept, .inl ⟨wlk, ctl, fun running unended passed => ?_, fun left => ?_, fun stays => ?_⟩⟩
    · rcases ends with already | open_
      · exact absurd already unended
      · exact fun none => open_ ⟨by rw [ctl]; exact running, by rw [wlk]; exact passed, list.mpr none⟩
    · obtain ⟨state, -⟩ := e.1.realNoted.trk.settled_moved true r (moved.trans left)
      have timeout := e.1.realNoted.trk.settled_timeout true r
      unfold Tracker.timeoutAfter at timeout
      rw [state] at timeout
      rw [trk]
      exact ⟨state, timeout⟩
    · rw [trk, (e.1.realNoted.trk.settled_unmoved true r (moved.trans stays)).1]
      show e.1.trk.state = _
      rw [done.trk]
      rfl
  · generalize v.settle ⟨true, false, true⟩ b 1 = u at *
    refine ⟨?_, ?_, fun x there => ended.records x (kept x there), .inr ⟨wlk ▸ passed, list.mp empty, ?_, ?_, ?_⟩⟩
    · rw [ended.frame]
      exact clock
    · rw [ended.frame]
      exact beat
    · rw [ended.walker, wlk]
    · rw [ended.engine]
    · rw [ended.frame]
      rfl

/-! ### The final beat -/

/-- The state in which the final beat of a pass has been mapped, before the section in force moves. -/
structure State.FinalMapped (v : State) (n : Nat) (x : Section) (b : Nat) (f : State) : Prop where
  mapped : (v.setTracker { v.trk with beat := b }).mapBeat b =
    ((f.endPass n x b).1.reviewOffers, ⟨true, (f.endPass n x b).2⟩)
  walker : f.wlk = { v.wlk with walked := f.wlk.walked, position := f.wlk.position }
  journal : f.smi = v.smi
  clock : f.clock = v.clock
  beat : f.trk.beat = b

theorem State.finalBeat_mapped {v : State} {n : Nat} {x : Section} {k : Nat} (inForce : v.wlk.inForce = .sec n)
    (sec : v.wlk.sec n = some x) (walked : v.wlk.walked = some k) (after : v.wlk.origin ≤ (k : Int) + 1)
    (final : (k : Int) + 1 - v.wlk.origin + 1 = (v.wlk.lengthOf x : Int)) : ∃ f, v.FinalMapped n x (k + 1) f := by
  have last : (((k + 1 : Nat) : Int) - v.wlk.origin).toNat + 1 = v.wlk.lengthOf x := by omega
  have inside : (((k + 1 : Nat) : Int) - v.wlk.origin).toNat < beatsIn (v.wlk.barsOf x) := by
    unfold Walker.lengthOf at last
    omega
  obtain ⟨⟨bar, beat, r⟩, found⟩ := findBar_some (n := 1) inside
  have fresh : (v.wlk.walked.any fun v => decide (k + 1 ≤ v)) = false := by
    rw [walked]
    exact decide_eq_false (Nat.not_succ_le_self k)
  exact ⟨_, State.mapBeat_final (s := v.setTracker { v.trk with beat := k + 1 }) inForce sec fresh found last, rfl, rfl,
    rfl, rfl⟩

/-! ### The offer cursor overrun -/

/-- The walker with its offer cursor moved to the first cue of the section `m` in force. -/
def Walker.overtaken (m : Nat) (y : Section) (w : Walker) : Walker :=
  { w with
    cursor := some (cursorAt m y w.pass (if y.mode = .beat then some w.origin else none))
    waiting := none, heldBack := false }

/-- An offer cursor that stood before cues of the pass left moves to the section in force, with CUE REJECTED (R66). -/
theorem State.overrun_overtakes {g : State} {n m : Nat} {x y : Section} {c : Cursor} {o : Option Int}
    (cursor : g.wlk.cursor = some c) (sec : g.wlk.sec n = some x) (there : c.sec = n) (origin : c.origin = o)
    (before : c.cue < x.cueEnd) (inForce : g.wlk.inForce = .sec m) (sec' : g.wlk.sec m = some y) :
    g.overrun n o = ((g.setWalker (g.wlk.overtaken m y)).discardRead).journal
      (.cueRejected 12 c.cue 0 (x.cueEnd - c.cue)) := by
  unfold State.overrun
  rw [cursor, sec]
  dsimp only
  rw [if_pos ⟨there, .inr origin, before⟩, inForce]
  dsimp only
  rw [sec', Option.map_some]
  unfold Walker.overtaken
  rw [inForce]
  cases y.mode <;> rfl

theorem State.passEnd_overtakes {s : State} {n m : Nat} {x y : Section} {w : Walker} {o : Option Int}
    (cause : EnterCause) (cursor : w.cursor = s.wlk.cursor) (script : w.script = s.wlk.script)
    (inForce : w.inForce = .sec m) (sec : s.wlk.sec n = some x) (sec' : s.wlk.sec m = some y) (c : Cursor)
    (stands : s.wlk.cursor = some c) (there : c.sec = n) (origin : c.origin = o) (before : c.cue < x.cueEnd) :
    (0 < y.cueCount → ((((s.setWalker w).journalEntered cause).overrun n o).reviewOffers).wlk.cursor = some {
      sec := m, pass := w.pass, origin := if y.mode = .beat then some w.origin else none, cue := y.firstCue }) ∧
    (s.smi.journalQueue.length < 13 → ∃ k,
      (⟨k, s.clock, .cueRejected 12 c.cue 0 (x.cueEnd - c.cue)⟩ : JournalRecord) ∈
        ((((s.setWalker w).journalEntered cause).overrun n o).reviewOffers).smi.journalQueue) := by
  have frame (b : Journal) : (s.setWalker w).journal b = { s with wlk := w, smi := ((s.setWalker w).journal b).smi } :=
    State.journalAt_onlyBus _ b (State.onlyBus_refl _)
  have queue (b : Journal) (room : s.smi.journalQueue.length < 16) := State.journal_queue (s := s.setWalker w) b room
  rw [State.journalEntered_eq]
  generalize (Journal.sectionEntered _ _ _ _ _ _) = record at *
  have frame := frame record
  have queue := queue record
  generalize (s.setWalker w).journal record = g at *
  have wlk : g.wlk = w := by rw [frame]
  have clock : g.clock = s.clock := by rw [frame]
  have held (j : Nat) : g.wlk.sec j = s.wlk.sec j := by
    unfold Walker.sec
    rw [wlk, script]
  rw [State.overrun_overtakes (g := g) (by rw [wlk, cursor, stands]) ((held n).trans sec) there origin before
    (by rw [wlk, inForce]) ((held m).trans sec')]
  have moved (b : Journal) : (((g.setWalker (g.wlk.overtaken m y)).discardRead).journal b).wlk = g.wlk.overtaken m y := by
    rw [show ((g.setWalker (g.wlk.overtaken m y)).discardRead).journal b =
      { (g.setWalker (g.wlk.overtaken m y)).discardRead with
        smi := (((g.setWalker (g.wlk.overtaken m y)).discardRead).journal b).smi } from
      State.journalAt_onlyBus _ b (State.onlyBus_refl _)]
    rfl
  constructor
  · intro cues
    refine State.reviewOffers_cursor (x := y) ?_ ?_ (Nat.lt_add_of_pos_right cues)
    · rw [moved, wlk]
      rfl
    · rw [moved]
      exact (held m).trans sec'
  · intro room
    refine ⟨g.smi.journalCount, ?_⟩
    rw [(State.reviewOffers_queue _).1, ← clock]
    refine State.journal_mem (s := (g.setWalker (g.wlk.overtaken m y)).discardRead) _ ?_
    show g.smi.journalQueue.length < 16
    have two := queue (by omega)
    rw [two, List.length_append]
    show s.smi.journalQueue.length + 1 < 16
    omega

/-! ### The pass left -/

/-- Of the walker a settled beat keeps what mapping it gave, but the history and the owed GO at the automatic end. -/
theorem State.BeatSettled.walk {v u : State} {b : Nat} {e : State × Mapped} (h : v.BeatSettled b e u) :
    u.wlk.inForce = e.1.wlk.inForce ∧ u.wlk.pass = e.1.wlk.pass ∧ u.wlk.origin = e.1.wlk.origin ∧
      u.wlk.exitFlag = e.1.wlk.exitFlag ∧ u.wlk.fireCursor = e.1.wlk.fireCursor ∧ u.wlk.cursor = e.1.wlk.cursor := by
  rcases h.walked with ⟨wlk, -⟩ | ⟨-, -, wlk, -⟩ <;> rw [wlk] <;> exact ⟨rfl, rfl, rfl, rfl, rfl, rfl⟩

theorem State.BeatSettled.entered {v f u : State} {b : Nat} {w : Walker} {e : State × Mapped}
    (h : v.BeatSettled b e u) (moves : f.Moves w .beat e.1) (journal : f.smi = v.smi) (clock : f.clock = v.clock)
    (beat : f.trk.beat = b) : v.entered u w.modeInForce 1 := by
  intro room
  obtain ⟨inForce, pass, origin, -⟩ := h.walk
  have record := moves.entered (by rw [journal]; exact room)
  rw [h.clock, h.beat, inForce, pass, origin, moves.inForce, moves.pass, moves.origin, ← beat, ← clock, ← journal]
  exact h.records _ record

section PassLeft

variable {v f u : State} {n : Nat} {x : Section} (mapped : v.FinalMapped n x (v.trk.beat + 1) f)
  (settled : v.BeatSettled (v.trk.beat + 1) ((f.endPass n x (v.trk.beat + 1)).1.reviewOffers,
    ⟨true, (f.endPass n x (v.trk.beat + 1)).2⟩) u)
include mapped settled

omit settled in
theorem State.passLeft_sec (m : Nat) : f.wlk.sec m = v.wlk.sec m ∧ f.wlk.nextSec n = v.wlk.nextSec n ∧
    f.wlk.cursor = v.wlk.cursor ∧ f.wlk.origin = v.wlk.origin ∧ f.wlk.pass = v.wlk.pass ∧
    f.wlk.exitFlag = v.wlk.exitFlag ∧ f.wlk.inForce = v.wlk.inForce ∧ f.wlk.unhanded = v.wlk.unhanded := by
  rw [mapped.walker]
  exact ⟨rfl, rfl, rfl, rfl, rfl, rfl, rfl, rfl⟩

/-- The walk has gone into the section `m` under the walker `w`: the offer cursor is overrun as R66 says. -/
theorem State.passLeft_overtakes {m : Nat} {y : Section} {w : Walker} {moved : Bool}
    (is : f.endPass n x (v.trk.beat + 1) =
      (((f.setWalker w).journalEntered .beat).overrun n (some f.wlk.origin), moved))
    (sec : v.wlk.sec n = some x) (sec' : v.wlk.sec m = some y) (inForce : w.inForce = .sec m)
    (cursor : w.cursor = f.wlk.cursor) (script : w.script = f.wlk.script) :
    u.wlk.inForce = .sec m ∧ u.wlk.pass = w.pass ∧ u.wlk.origin = w.origin ∧ u.wlk.exitFlag = w.exitFlag ∧
      u.wlk.fireCursor = w.fireCursor ∧ v.entered u w.modeInForce 1 ∧ v.overtakes u n x y (some v.wlk.origin) ∧
      (moved = true → u.trk.state = .suspended ∧ u.trk.timeout = none) ∧
      (moved = false → u.trk.state = v.trk.state) := by
  obtain ⟨held, -, stands, from_, -⟩ := State.passLeft_sec mapped n
  have held' := (State.passLeft_sec mapped m).1
  rw [is] at settled
  have moves := ((f.moves_entered w .beat).later (State.overrun_moved n (some f.wlk.origin) _)).later
    (State.reviewOffers_moved _)
  obtain ⟨inForce', pass, origin, exitFlag, fireCursor, cursor'⟩ := settled.walk
  have goes : u.wlk.inForce = .sec m := inForce'.trans (moves.inForce.trans inForce)
  have entered := settled.entered moves mapped.journal mapped.clock mapped.beat
  refine ⟨goes, pass.trans moves.pass, origin.trans moves.origin, exitFlag.trans moves.exitFlag,
    fireCursor.trans moves.fireCursor, entered, ?_, ?_⟩
  · intro c cursorAt there origin' before
    obtain ⟨place, record⟩ := State.passEnd_overtakes (s := f) .beat cursor script inForce (held.trans sec)
      (held'.trans sec') c (stands.trans cursorAt) there (origin'.trans (congrArg some from_.symm)) before
    refine ⟨fun cues m' inForce'' => ?_, fun room => ?_⟩
    · obtain rfl : m = m' := InForce.sec.inj (goes.symm.trans inForce'')
      rw [cursor', place cues, pass, moves.pass, origin, moves.origin]
    · obtain ⟨k, there'⟩ := record (by rw [mapped.journal]; exact room)
      refine ⟨k, ?_⟩
      rw [settled.clock, ← mapped.clock]
      exact settled.records _ there'
  · rcases settled.walked with ⟨-, -, -, left, stays⟩ | ⟨passed, -⟩
    · exact ⟨left, stays⟩
    · exact absurd ((moves.inForce.trans inForce).symm.trans passed) nofun

/-- The final beat of a pass, settled with nothing that fires (R55, R56, R66, R175). -/
theorem State.passLeft_ends (inForce : v.wlk.inForce = .sec n) (sec : v.wlk.sec n = some x) (beats : x.mode = .beat)
    (running : v.ctl.engine = .running) (tracking : v.trk.state = .tracking) : v.passEnds u n x := by
  obtain ⟨held, follows, -, -, pass, exitFlag, inForce', unhanded⟩ := State.passLeft_sec mapped n
  refine ⟨fun vamp clear => ?_, fun leaves => ⟨fun m y next there => ?_, fun last => ?_⟩⟩
  · have is := State.endPass_vamp (s := f) n x (v.trk.beat + 1) (by rw [vamp, exitFlag, clear]; rfl)
    obtain ⟨goes, pass', origin, exitFlag', -, entered, overtakes, -, stays⟩ :=
      State.passLeft_overtakes mapped settled is sec sec (inForce'.trans inForce) rfl rfl
    have modeIs : (f.wlk.nextPass (v.trk.beat + 1)).modeInForce = 0 := by
      rw [Walker.modeInForce_sec (w := f.wlk.nextPass (v.trk.beat + 1)) (n := n) (x := x) (inForce'.trans inForce)
        (held.trans sec), beats]
      rfl
    rw [modeIs] at entered
    exact ⟨goes, pass'.trans (by rw [← pass]; rfl), origin.trans (by show ((v.trk.beat + 1 : Nat) : Int) + 1 = _; omega),
      exitFlag'.trans (exitFlag.trans clear), (stays rfl).trans tracking, entered, overtakes⟩
  · have left : (x.vamp && !f.wlk.exitFlag) = false := by
      rw [exitFlag]
      rcases leaves with no | flag
      · rw [no]
        rfl
      · rw [flag, Bool.not_true, Bool.and_false]
    have there' := (State.passLeft_sec mapped m).1.trans there
    cases mode : y.mode with
    | called =>
      have is := State.endPass_called (s := f) n x (v.trk.beat + 1) left (follows.trans next) there' mode
      obtain ⟨goes, pass', -, exitFlag', cursor, entered, overtakes, suspended, -⟩ :=
        State.passLeft_overtakes mapped settled is sec there rfl rfl rfl
      have modeIs : (f.wlk.called m y).modeInForce = 1 := by
        rw [Walker.modeInForce_sec (w := f.wlk.called m y) (n := m) (x := y) rfl there', mode]
        rfl
      rw [modeIs] at entered
      obtain ⟨state, timeout⟩ := suspended rfl
      refine ⟨goes, pass', exitFlag', overtakes, nofun, fun _ => ⟨state, timeout, entered, fun handed => ?_⟩⟩
      exact cursor.trans (Walker.called_fireCursor (by rw [unhanded]; exact handed))
    | beat =>
      have is := State.endPass_beat (s := f) n x (v.trk.beat + 1) left (follows.trans next) there' mode
      obtain ⟨goes, pass', origin, exitFlag', -, entered, overtakes, -, stays⟩ :=
        State.passLeft_overtakes mapped settled is sec there rfl rfl rfl
      have modeIs : (f.wlk.beatEntered m (v.trk.beat + 1)).modeInForce = 0 := by
        rw [Walker.modeInForce_sec (w := f.wlk.beatEntered m (v.trk.beat + 1)) (n := m) (x := y) rfl there', mode]
        rfl
      rw [modeIs] at entered
      exact ⟨goes, pass', exitFlag', overtakes,
        fun _ => ⟨origin.trans (by show ((v.trk.beat + 1 : Nat) : Int) + 1 = _; omega), (stays rfl).trans tracking, entered⟩,
        nofun⟩
  · have left : (x.vamp && !f.wlk.exitFlag) = false := by
      rw [exitFlag]
      rcases leaves with no | flag
      · rw [no]
        rfl
      · rw [flag, Bool.not_true, Bool.and_false]
    have is := State.endPass_last (s := f) n x (v.trk.beat + 1) left (by
      rw [follows, last]
      rfl)
    rw [is] at settled
    have moves := ((f.moves_entered f.wlk.shown .beat).later (State.overrun_moved n (some f.wlk.origin) _)).later
      (State.reviewOffers_moved _)
    obtain ⟨goes, -, -, exitFlag', cursor, -⟩ := settled.walk
    have entered := settled.entered moves mapped.journal mapped.clock mapped.beat
    rw [Walker.modeInForce_end (w := f.wlk.shown) rfl] at entered
    have passed : u.wlk.inForce = .endOfShow := goes.trans moves.inForce
    refine ⟨⟨passed, cursor.trans moves.fireCursor, exitFlag'.trans moves.exitFlag, fun empty => ?_, fun armed => ?_⟩,
      entered⟩
    · rcases settled.walked with ⟨-, -, armed, -⟩ | ⟨-, -, wlk, engine, state⟩
      · exact absurd empty (armed running (fun ended => absurd (inForce.symm.trans ended) nofun) moves.inForce)
      · exact ⟨engine, state, by rw [wlk], by rw [wlk]⟩
    · rcases settled.walked with ⟨-, ctl, -⟩ | ⟨-, empty, -⟩
      · rw [ctl]
        exact running
      · exact absurd empty armed

end PassLeft

/-- A BEAT that counts the final beat of a pass (R55). -/
theorem beatPress_final {s : State} {t : Time} {n : Nat} {x : Section} (h : s.acceptsEdge t .beat)
    (running : s.ctl.engine = .running) (free : s.trk.lockout = none) (quiet : s.nothingFires)
    (tracking : s.trk.state = .tracking) (beat : s.trk.period / 2 ≤ max s.clock t - s.trk.tLast)
    (counts : s.trk.absorb = 0) (final : s.finalBeatIn n x) :
    ∃ u, exec (.beat t) s = .next u ∧ u.trk.beat = s.trk.beat + 1 ∧ s.passEnds u n x := by
  have he := execBeat_accepted (.inl rfl) h
  obtain ⟨k, arrived, settles⟩ := State.beatArrival_arrived (s := s.edgeTaken t .beat) false free tracking beat
  have one : (s.edgeTaken t .beat).trk.absorbs.1 = 1 := s.trk.absorbs_eq.1.trans (if_pos counts)
  rw [State.routeBeat_running (s := s.edgeTaken t .beat) running, show (Line.beat == Line.downbeat) = false from rfl,
    settles, one] at he
  obtain ⟨inForce, sec, beats, walked, after, last⟩ := final
  obtain ⟨f, mapped⟩ := State.finalBeat_mapped (v := (s.edgeTaken t .beat).setTracker k) inForce sec walked after last
  have settled := State.settle_one (v := (s.edgeTaken t .beat).setTracker k) (s.trk.beat + 1) quiet
  rw [mapped.mapped] at settled
  refine ⟨_, he, settled.beat, ?_⟩
  have at_ : ((s.edgeTaken t .beat).setTracker k).trk.beat = s.trk.beat := arrived.beat
  have ends := State.passLeft_ends (v := (s.edgeTaken t .beat).setTracker k) (at_ ▸ mapped) (at_ ▸ settled) inForce sec
    beats running arrived.state
  unfold State.passEnds at ends ⊢
  rw [at_] at ends
  exact ends

/-! ### Tempo marks -/

/-- A beat newly mapped leaves the facts of its bar in the tracker, moving the section or not (R54). -/
theorem State.mapBeat_facts {s : State} {n b : Nat} {x : Section} {bar beat : Nat} {r : Bar}
    (inForce : s.wlk.inForce = .sec n) (sec : s.wlk.sec n = some x)
    (fresh : (s.wlk.walked.any fun v => decide (b ≤ v)) = false)
    (found : findBar (s.wlk.barsOf x) 1 ((b : Int) - s.wlk.origin).toNat = some (bar, beat, r)) :
    (s.mapBeat b).2.fresh = true ∧ (s.mapBeat b).1.trk.facts = r.facts beat := by
  by_cases final : ((b : Int) - s.wlk.origin).toNat + 1 = s.wlk.lengthOf x
  · rw [State.mapBeat_final inForce sec fresh found final]
    obtain ⟨w, moves, -⟩ := (s.barFound b n bar beat r).endPass_moves n x b
    have trk := (moves.later (State.reviewOffers_moved _)).blocks.1
    dsimp only
    rw [trk]
    exact ⟨rfl, rfl⟩
  · rw [State.mapBeat_within inForce sec fresh found final]
    have trk := (State.reviewOffers_moved (s.barFound b n bar beat r)).blocks.1
    dsimp only
    rw [trk]
    exact ⟨rfl, rfl⟩

/-- A counted beat on the first beat of a marked bar (R36). -/
theorem State.settle_marked {v : State} {n b : Nat} {x : Section} {bar : Nat} {r : Bar} (quiet : v.nothingFires)
    (inForce : v.wlk.inForce = .sec n) (sec : v.wlk.sec n = some x)
    (fresh : (v.wlk.walked.any fun w => decide (b ≤ w)) = false)
    (found : findBar (v.wlk.barsOf x) 1 ((b : Int) - v.wlk.origin).toNat = some (bar, 1, r)) (marked : r.mark ≠ 0) :
    let u := v.settle ⟨true, false, true⟩ b 1
    u.trk.period = r.mark * 100 ∧ u.trk.ring = [] ∧ u.trk.confidence = .loose ∧ u.trk.facts = r.facts 1 := by
  obtain ⟨r', walk, -, marks⟩ := v.settleWalk_one b
  obtain ⟨isFresh, facts⟩ := State.mapBeat_facts (s := v.setTracker { v.trk with beat := b }) inForce sec fresh found
  have mark := marks isFresh (by rw [facts]; rfl) (by rw [facts]; exact marked)
  have cases_ := State.settle_quiet (how := ⟨true, false, true⟩) b 1 quiet _ rfl
    (State.settleWalk_done b 1 v fun corrects => Bool.noConfusion corrects).1.handed
  rw [walk] at cases_
  rw [facts] at mark
  generalize (v.setTracker { v.trk with beat := b }).mapBeat b = e at *
  have frame := (State.settleHand_frame ⟨true, false, true⟩ (e.1.realNoted, r')).1
  generalize State.settleHand ⟨true, false, true⟩ (e.1.realNoted, r') = z at *
  have trk : z.trk = e.1.realNoted.trk.settled true r' := by rw [frame]
  obtain ⟨period, ring, confidence⟩ := e.1.realNoted.trk.settled_marked true r' mark
  obtain ⟨-, -, -, -, -, facts'⟩ := e.1.realNoted.trk.settled_dates true r'
  rw [← trk] at period ring confidence facts'
  have facts'' : z.trk.facts = r.facts 1 := facts'.trans facts
  show _ ∧ _
  rcases cases_ with ⟨same, -⟩ | ⟨-, -, -, ended⟩
  · rw [same]
    exact ⟨period, ring, confidence, facts''⟩
  · rw [ended.frame]
    exact ⟨period, ring, confidence, facts''⟩

/-- A BEAT that reaches a tempo mark (R36, R37). -/
theorem beatPress_marked {s : State} {t : Time} {x : Section} {r : Bar} (h : s.acceptsEdge t .beat)
    (running : s.ctl.engine = .running) (free : s.trk.lockout = none) (quiet : s.nothingFires)
    (tracking : s.trk.state = .tracking) (beat : s.trk.period / 2 ≤ max s.clock t - s.trk.tLast)
    (counts : s.trk.absorb = 0) (next : s.nextBeatIn x 1 r) (marked : r.mark ≠ 0) :
    ∃ u, exec (.beat t) s = .next u ∧ u.trk.beat = s.trk.beat + 1 ∧ u.trk.period = r.mark * 100 ∧ u.trk.ring = [] ∧
      u.trk.confidence = .loose ∧ u.tracksUnlessLeft .tracking ∧
      (u.trk.state = .tracking → u.trk.timeout =
        if r.fermata then none else some (max s.clock t + 3 * (r.mark * 100) / 2)) := by
  have he := execBeat_accepted (.inl rfl) h
  obtain ⟨k, arrived, settles⟩ := State.beatArrival_arrived (s := s.edgeTaken t .beat) false free tracking beat
  have one : (s.edgeTaken t .beat).trk.absorbs.1 = 1 := s.trk.absorbs_eq.1.trans (if_pos counts)
  rw [State.routeBeat_running (s := s.edgeTaken t .beat) running, show (Line.beat == Line.downbeat) = false from rfl,
    settles, one] at he
  obtain ⟨n, bar, inForce, sec, -, walked, found⟩ := next
  have fresh : (s.wlk.walked.any fun w => decide (s.trk.beat + 1 ≤ w)) = false := by
    rw [walked]
    exact decide_eq_false (Nat.not_succ_le_self s.trk.beat)
  have still : ((s.edgeTaken t .beat).setTracker k).nothingFires := quiet
  have settled := State.settle_settled (how := ⟨true, false, true⟩) (s.trk.beat + 1) 1 still
    fun corrects => Bool.noConfusion corrects
  have dated := (State.settle_one (s.trk.beat + 1) still).beat
  obtain ⟨period, ring, confidence, facts⟩ := State.settle_marked still inForce sec fresh found marked
  refine ⟨_, he, ?_⟩
  rw [show (s.edgeTaken t .beat).trk = s.trk from rfl]
  generalize ((s.edgeTaken t .beat).setTracker k).settle ⟨true, false, true⟩ (s.trk.beat + 1) 1 = u at *
  refine ⟨dated, period, ring, confidence, settled.state.imp (fun same => same.1.trans arrived.state)
    (fun left => ⟨left.1, left.2.1⟩), fun still => ?_⟩
  have tLast : u.trk.tLast = max s.clock t := settled.dates.1.trans arrived.tLast
  have timeout : u.trk.timeout = u.trk.timeoutAfter := settled.timeout
  unfold Tracker.timeoutAfter at timeout
  rw [still] at timeout
  dsimp only at timeout
  rw [facts, tLast, period] at timeout
  exact timeout

/-- Settles O45: one theorem for each class of arrival, `beatArrival_locks` to `beatPress_marked`. -/
theorem beatArrivals : Obligations.BeatArrivals := by
  unfold Obligations.BeatArrivals
  refine ⟨fun t l s line engine free locking quiet h => beatArrival_locks line engine free locking quiet h,
    fun t l s line h idle elsewhere => beatPress_ignored line h idle elsewhere,
    fun t l s line h running => ⟨fun without => ?_, fun free tracking early => ?_⟩,
    fun t s h running free quiet => ⟨fun tracking beat fermata =>
      beatPress_heldOver h running free quiet tracking beat fermata,
      fun target takenFor => beatPress_missing h running free quiet takenFor⟩,
    fun t s x b m n h running free quiet tracking beat finds room =>
      beatPress_corrects h running free quiet tracking beat finds room,
    fun t s n x h running free quiet tracking beat counts final =>
      beatPress_final h running free quiet tracking beat counts final,
    fun t s x r h running free quiet tracking beat counts next marked =>
      beatPress_marked h running free quiet tracking beat counts next marked⟩
  · rw [execBeat_accepted line h, State.routeBeat_running (s := s.edgeTaken t l) running,
      State.beatArrival_without (s := s.edgeTaken t l) _ without]
  · have he := execBeat_accepted line h
    rw [State.routeBeat_running (s := s.edgeTaken t l) running,
      State.beatArrival_bounce (s := s.edgeTaken t l) _ free tracking early] at he
    obtain ⟨few, many⟩ := State.bounce_counted (s := s.edgeTaken t l) tracking
    refine ⟨fun less => ?_, fun more => ⟨_, he, many more⟩⟩
    rw [he, few less]
    rfl

end Sys2Proof.Machine
end

section
/-! Requests for keys (R102, R103): one key, and the keys of a cue, which stand in sets of their own. -/

namespace Sys2Proof.Machine

/-! ### One key -/

/-- What a key's set finds for it. -/
theorem CacheSet.find_entry {x : CacheSet} {k : Key} {w : Fin 4} (found : x.find k = some w) :
    ∃ e, x.ways[w].entry = some e ∧ e.key = k := by
  have holds := List.find?_some found
  cases entry : x.ways[w].entry with
  | none =>
    rw [entry] at holds
    cases holds
  | some e =>
    rw [entry] at holds
    exact ⟨e, rfl, by simpa using holds⟩

/-- A request for one key at this state (R102, R103). -/
structure State.KeyRequested (k : Key) (s u : State) (r : KeyResult) : Prop where
  frame : u = { s with du := u.du, smi := { s.smi with port := u.smi.port } }
  table : u.du.table = s.du.table
  sets : ∀ i, i ≠ setOf k → u.cacheSet i = s.cacheSet i
  holds : ∀ a, s.smi.port.holds a → u.smi.port.holds a
  queue : u.du.queue = (s.du.queue.map fun i =>
      if i.key = k ∧ (s.cacheSet (setOf k)).find k = none then { i with pins := i.pins + 1 } else i) ++
    (if s.mustWait k = true ∧ s.du.queue.length < 256 then [{ key := k, joined := s.clock, pins := 1 }] else [])
  held : ∀ w e, (s.cacheSet (setOf k)).find k = some w → (s.way (setOf k) w).entry = some e →
    (u.way (setOf k) w).entry = some { e with pins := e.pins + 1 }
  taken : (s.cacheSet (setOf k)).find k = none → s.keyWaits k = false → ∀ w, (s.cacheSet (setOf k)).choose = some w →
    (∃ q, (u.way (setOf k) w).entry = some { key := k, state := .fetching 0 q, pins := 1 }) ∧
    ∀ (a x : Nat), s.du.table = some (a, x) → (s.way (setOf k) w).cancelled = false →
      u.smi.port.holds (.read (.fetch (setOf k) w) (a + 128 * ((k.title + 8191 * k.lang.val) % 2 ^ x)) 32 .urgent
        (fetchDetail a x k 0))
  answer : r = s.requestAnswer s.du.queue.length k

section Request

variable {s : State} {k : Key}

theorem State.mustWait_iff : s.mustWait k = true ↔
    (s.cacheSet (setOf k)).find k = none ∧ s.keyWaits k = false ∧ (s.cacheSet (setOf k)).choose = none := by
  unfold State.mustWait
  rw [Bool.and_eq_true, Bool.and_eq_true, Option.isNone_iff_eq_none, Option.isNone_iff_eq_none, Bool.not_eq_true',
    and_assoc]

theorem State.setPins_onWay (j : Fin 32) (w : Fin 4) (f : Nat → Nat) (s : State) : OnWay j w s (s.setPins j w f) :=
  OnWay.setWay j w _ s

theorem State.touch_way (j : Fin 32) (w v : Fin 4) (s : State) :
    (s.setCacheSet j ((s.cacheSet j).touch w)).way j v = s.way j v := by
  unfold State.way
  rw [State.setCacheSet_self, CacheSet.touch_ways]

/-- Counting a request moves the two counts of the unit alone. -/
theorem State.countRequest_frame (hit : Bool) (s : State) : s.countRequest hit = { s with
    du := { s.du with hits := (s.countRequest hit).du.hits, misses := (s.countRequest hit).du.misses } } := by
  cases hit <;> rfl

theorem State.countRequest_cache (hit : Bool) (s : State) (i : Fin 32) : (s.countRequest hit).cacheSet i = s.cacheSet i ∧
    (s.countRequest hit).du.queue = s.du.queue ∧ (s.countRequest hit).du.table = s.du.table ∧
    (s.countRequest hit).smi = s.smi ∧ (s.countRequest hit).clock = s.clock := by
  rw [State.countRequest_frame]
  exact ⟨rfl, rfl, rfl, rfl, rfl⟩

/-- A key that does not wait has no item to pin. -/
theorem State.pinned_none {q : List WaitItem} (p : Prop) [Decidable p] (unwaited : ∀ i ∈ q, ¬(i.key = k ∧ p)) :
    (q.map fun i => if i.key = k ∧ p then { i with pins := i.pins + 1 } else i) = q :=
  (List.map_congr_left fun i inside => if_neg (unwaited i inside)).trans (List.map_id' q)

theorem State.keyWaits_false : s.keyWaits k = false ↔ ∀ i ∈ s.du.queue, i.key ≠ k := by
  unfold State.keyWaits
  rw [List.any_eq_false]
  simp

theorem State.requestKey_found {w : Fin 4} (found : (s.cacheSet (setOf k)).find k = some w) :
    s.KeyRequested k (s.requestKey k).1 (s.requestKey k).2 := by
  obtain ⟨e, entry, -⟩ := CacheSet.find_entry found
  have dry : s.mustWait k = false := by
    unfold State.mustWait
    rw [found]
    rfl
  have requested : s.requestKey k =
      (((s.setPins (setOf k) w (· + 1)).countRequest true).setCacheSet (setOf k)
        ((((s.setPins (setOf k) w (· + 1)).countRequest true).cacheSet (setOf k)).touch w),
        (((s.setPins (setOf k) w (· + 1)).countRequest true).way (setOf k) w).answer) := by
    unfold State.requestKey
    dsimp only
    rw [found]
  have pinned := s.setPins_onWay (setOf k) w (· + 1)
  have way : (s.setPins (setOf k) w (· + 1)).way (setOf k) w =
      { s.way (setOf k) w with entry := some { e with pins := e.pins + 1 } } := by
    unfold State.setPins
    dsimp only
    rw [State.setWay_way_self, show (s.way (setOf k) w).entry = some e from entry]
    rfl
  have queue : (s.setPins (setOf k) w (· + 1)).du.queue = s.du.queue := rfl
  rw [requested]
  generalize s.setPins (setOf k) w (· + 1) = v at *
  have counted := v.countRequest_cache true
  have counts := v.countRequest_frame true
  have used := OnWay.touch (setOf k) w w (v.countRequest true)
  have way' : (((v.countRequest true).setCacheSet (setOf k) (((v.countRequest true).cacheSet (setOf k)).touch w)).way
      (setOf k) w) = { s.way (setOf k) w with entry := some { e with pins := e.pins + 1 } } := by
    rw [State.touch_way, ← way]
    unfold State.way
    rw [(counted (setOf k)).1]
  constructor
  case frame =>
    have first := pinned.frame
    have last := used.frame
    dsimp only
    generalize (v.countRequest true).setCacheSet (setOf k) (((v.countRequest true).cacheSet (setOf k)).touch w) = u at *
    rw [last, counts, first]
  case table => exact used.table.trans ((counted (setOf k)).2.2.1.trans pinned.table)
  case sets => exact fun i other => (used.sets i other).trans ((counted i).1.trans (pinned.sets i other))
  case holds => exact fun a held => used.holds a (by rw [(counted (setOf k)).2.2.2.1]; exact pinned.holds a held)
  case queue =>
    have present : ¬(s.cacheSet (setOf k)).find k = none := by
      rw [found]
      exact Option.some_ne_none w
    rw [dry, State.pinned_none (p := (s.cacheSet (setOf k)).find k = none) fun i _ pins => present pins.2]
    refine ((counted (setOf k)).2.1.trans queue).trans ?_
    rw [if_neg fun waits => Bool.noConfusion waits.1, List.append_nil]
  case held =>
    intro w' e' found' entry'
    obtain rfl : w = w' := Option.some.inj (found.symm.trans found')
    obtain rfl : e = e' := Option.some.inj ((show (s.way (setOf k) w).entry = some e from entry).symm.trans entry')
    exact congrArg Way.entry way'
  case taken => exact fun none => absurd (found.symm.trans none) nofun
  case answer =>
    have same : (v.countRequest true).way (setOf k) w = v.way (setOf k) w := by
      unfold State.way
      rw [(counted (setOf k)).1]
    dsimp only
    rw [same, way]
    unfold State.requestAnswer
    rw [found]
    dsimp only
    rw [show (s.way (setOf k) w).entry = some e from entry]
    unfold Way.answer
    dsimp only
    obtain ⟨key, state, pins⟩ := e
    cases state <;> rfl

variable (absent : (s.cacheSet (setOf k)).find k = none)
include absent

/-- A request that finds no way holding its key, whatever becomes of it: nothing of the cache but one way it takes, and the
wait queue. -/
theorem State.keyRequested_absent {u : State} {r : KeyResult}
    (frame : u = { s with du := u.du, smi := { s.smi with port := u.smi.port } }) (table : u.du.table = s.du.table)
    (sets : ∀ i, i ≠ setOf k → u.cacheSet i = s.cacheSet i) (holds : ∀ a, s.smi.port.holds a → u.smi.port.holds a)
    (queue : u.du.queue = (s.du.queue.map fun i => if i.key = k then { i with pins := i.pins + 1 } else i) ++
      (if s.mustWait k = true ∧ s.du.queue.length < 256 then [{ key := k, joined := s.clock, pins := 1 }] else []))
    (taken : s.keyWaits k = false → ∀ w, (s.cacheSet (setOf k)).choose = some w →
      (∃ q, (u.way (setOf k) w).entry = some { key := k, state := .fetching 0 q, pins := 1 }) ∧
      ∀ (a x : Nat), s.du.table = some (a, x) → (s.way (setOf k) w).cancelled = false →
        u.smi.port.holds (.read (.fetch (setOf k) w) (a + 128 * ((k.title + 8191 * k.lang.val) % 2 ^ x)) 32 .urgent
          (fetchDetail a x k 0)))
    (answer : r = if s.keyWaits k = true ∨ (s.cacheSet (setOf k)).choose ≠ none ∨ s.du.queue.length < 256 then .pending
      else .faulted) : s.KeyRequested k u r where
  frame := frame
  table := table
  sets := sets
  holds := holds
  queue := by
    rw [queue]
    simp only [absent, and_true]
  held w e found := absurd (absent.symm.trans found) nofun
  taken _ := taken
  answer := by
    unfold State.requestAnswer
    rw [absent]
    exact answer

theorem State.requestKey_waits (waits : s.keyWaits k = true) :
    s.KeyRequested k (s.requestKey k).1 (s.requestKey k).2 := by
  have requested : s.requestKey k = ((s.countRequest false).setQueue
      (s.du.queue.map fun i => if i.key = k then { i with pins := i.pins + 1 } else i), .pending) := by
    unfold State.requestKey
    dsimp only
    rw [absent]
    exact if_pos waits
  have dry : s.mustWait k ≠ true := fun must => by
    rw [State.mustWait_iff, waits] at must
    exact Bool.noConfusion must.2.1
  rw [requested]
  refine State.keyRequested_absent absent rfl rfl (fun _ _ => rfl) (fun _ h => h) ?_
    (fun idle => Bool.noConfusion (waits.symm.trans idle)) (if_pos (.inl waits)).symm
  rw [if_neg fun must => dry must.1, List.append_nil]
  rfl

variable (idle : s.keyWaits k = false)
include idle

theorem State.requestKey_chosen {w : Fin 4} (chosen : (s.cacheSet (setOf k)).choose = some w) :
    s.KeyRequested k (s.requestKey k).1 (s.requestKey k).2 := by
  have requested : s.requestKey k = ((s.countRequest false).allocate (setOf k) w k 1, .pending) := by
    unfold State.requestKey
    dsimp only
    rw [absent]
    dsimp only
    rw [show (s.countRequest false).keyWaits k = false from idle,
      show ((s.countRequest false).cacheSet (setOf k)).choose = some w from chosen]
    exact if_neg Bool.false_ne_true
  have dry : s.mustWait k ≠ true := fun must => by
    rw [State.mustWait_iff, chosen] at must
    exact Option.some_ne_none w must.2.2
  have taken := State.allocate_onWay (setOf k) w k 1 (s.countRequest false)
  have queue := State.allocate_queue (setOf k) w k 1 (s.countRequest false)
  have way := State.allocate_way (setOf k) w k 1 (s.countRequest false)
  have holds (a x : Nat) := State.allocate_holds (j := setOf k) (w := w) (k := k) (pins := 1) (a := a) (x := x)
    (s := s.countRequest false)
  rw [requested]
  generalize (s.countRequest false).allocate (setOf k) w k 1 = u at *
  refine State.keyRequested_absent absent ?_ taken.table taken.sets taken.holds ?_ (fun _ w' chosen' => ?_)
    (if_pos (.inr (.inl (by rw [chosen]; exact Option.some_ne_none w)))).symm
  · have frame := taken.frame
    dsimp only
    rw [frame]
    rfl
  · rw [if_neg fun must => dry must.1, List.append_nil]
    refine queue.trans (((List.map_congr_left fun i inside => if_neg ?_).trans (List.map_id' _)).symm)
    exact State.keyWaits_false.mp idle i inside
  · obtain rfl : w = w' := Option.some.inj (chosen.symm.trans chosen')
    obtain ⟨q, way⟩ := way
    exact ⟨⟨q, congrArg Way.entry way⟩, fun a x table uncancelled => holds a x table uncancelled⟩

theorem State.requestKey_unplaced (full : (s.cacheSet (setOf k)).choose = none) :
    s.KeyRequested k (s.requestKey k).1 (s.requestKey k).2 := by
  have requested : s.requestKey k = if s.du.queue.length < 256 then ((s.countRequest false).setQueue
      (s.du.queue ++ [{ key := k, joined := s.clock, pins := 1 }]), .pending) else (s.countRequest false, .faulted) := by
    unfold State.requestKey
    dsimp only
    rw [absent]
    dsimp only
    rw [show (s.countRequest false).keyWaits k = false from idle,
      show ((s.countRequest false).cacheSet (setOf k)).choose = none from full]
    exact if_neg Bool.false_ne_true
  have must : s.mustWait k = true := State.mustWait_iff.mpr ⟨absent, idle, full⟩
  have same : (s.du.queue.map fun i => if i.key = k then { i with pins := i.pins + 1 } else i) = s.du.queue :=
    (List.map_congr_left fun i inside => if_neg (State.keyWaits_false.mp idle i inside)).trans (List.map_id' _)
  rw [requested]
  by_cases room : s.du.queue.length < 256
  · rw [if_pos room]
    refine State.keyRequested_absent absent rfl rfl (fun _ _ => rfl) (fun _ h => h) ?_
      (fun _ w chosen => absurd (full.symm.trans chosen) nofun) (if_pos (.inr (.inr room))).symm
    rw [same, if_pos ⟨must, room⟩]
    rfl
  · rw [if_neg room]
    refine State.keyRequested_absent absent rfl rfl (fun _ _ => rfl) (fun _ h => h) ?_
      (fun _ w chosen => absurd (full.symm.trans chosen) nofun) (if_neg ?_).symm
    · rw [same, if_neg fun both => room both.2, List.append_nil]
      rfl
    · rintro (waits | chosen | short)
      · exact Bool.noConfusion (idle.symm.trans waits)
      · exact chosen full
      · exact room short

end Request

theorem State.requestKey_requested (k : Key) (s : State) : s.KeyRequested k (s.requestKey k).1 (s.requestKey k).2 := by
  cases found : (s.cacheSet (setOf k)).find k with
  | some w => exact State.requestKey_found found
  | none =>
    cases waits : s.keyWaits k with
    | true => exact State.requestKey_waits found waits
    | false =>
      cases chosen : (s.cacheSet (setOf k)).choose with
      | some w => exact State.requestKey_chosen found waits chosen
      | none => exact State.requestKey_unplaced found waits chosen

/-! ### Several keys -/

theorem State.requestKeys_cons (k : Key) (ks : List Key) (s : State) : s.requestKeys (k :: ks) =
    (((s.requestKey k).1.requestKeys ks).1, (k, (s.requestKey k).2) :: ((s.requestKey k).1.requestKeys ks).2) := by
  have collects (ks : List Key) (s : State) (acc : List (Key × KeyResult)) :
      ks.foldl (fun (p : State × List (Key × KeyResult)) k => ((p.1.requestKey k).1, p.2 ++ [(k, (p.1.requestKey k).2)]))
        (s, acc) = ((s.requestKeys ks).1, acc ++ (s.requestKeys ks).2) := by
    induction ks generalizing s acc with
    | nil => exact congrArg (Prod.mk s) (List.append_nil acc).symm
    | cons k ks ih =>
      unfold State.requestKeys
      rw [List.foldl_cons, List.foldl_cons, ih, ih, List.append_assoc]
      rfl
  exact collects ks (s.requestKey k).1 [(k, (s.requestKey k).2)]

/-- The keys stand in sets of their own. -/
abbrev ownSets (ks : List Key) : Prop := ks.Pairwise fun k j => setOf k ≠ setOf j

section Next

variable {s v : State} {k j : Key} {r : KeyResult} (requested : s.KeyRequested k v r) (other : setOf k ≠ setOf j)
include requested other

theorem State.KeyRequested.set_other : v.cacheSet (setOf j) = s.cacheSet (setOf j) := requested.sets _ other.symm

theorem State.KeyRequested.way_other (w : Fin 4) : v.way (setOf j) w = s.way (setOf j) w := by
  unfold State.way
  rw [requested.set_other other]

/-- A request changes nothing of what a key of another set waits for. -/
theorem State.KeyRequested.waits_other : v.keyWaits j = s.keyWaits j := by
  have apart : k ≠ j := fun same => other (congrArg setOf same)
  unfold State.keyWaits
  rw [requested.queue, List.any_append, List.any_map]
  have keys : ((fun i : WaitItem => i.key == j) ∘ fun i => if i.key = k ∧ (s.cacheSet (setOf k)).find k = none then
      { i with pins := i.pins + 1 } else i) = fun i => i.key == j := by
    funext i
    dsimp only [Function.comp]
    split <;> rfl
  rw [keys]
  split
  · simp [apart]
  · simp

theorem State.KeyRequested.mustWait_other : v.mustWait j = s.mustWait j := by
  unfold State.mustWait
  rw [requested.set_other other, requested.waits_other other]

theorem State.KeyRequested.answer_other (n : Nat) : v.requestAnswer n j = s.requestAnswer n j := by
  unfold State.requestAnswer
  rw [requested.set_other other, requested.waits_other other]
  cases (s.cacheSet (setOf j)).find j with
  | none => rfl
  | some w =>
    dsimp only
    rw [requested.way_other other]

end Next

/-- Beyond its room the length of the wait queue is all one. -/
theorem State.answersInTurn_full (s : State) (ks : List Key) {n m : Nat} (full : 256 ≤ n) (full' : 256 ≤ m) :
    s.answersInTurn n ks = s.answersInTurn m ks := by
  induction ks generalizing n m with
  | nil => rfl
  | cons k ks ih =>
    have same : s.requestAnswer n k = s.requestAnswer m k := by
      unfold State.requestAnswer
      simp only [Nat.not_lt.mpr full, Nat.not_lt.mpr full']
    unfold State.answersInTurn
    rw [same, ih (n := if s.mustWait k then n + 1 else n) (m := if s.mustWait k then m + 1 else m)
      (by split <;> omega) (by split <;> omega)]

theorem State.answersInTurn_congr {s v : State} {ks : List Key} (must : ∀ j ∈ ks, v.mustWait j = s.mustWait j)
    (answer : ∀ j ∈ ks, ∀ n, v.requestAnswer n j = s.requestAnswer n j) (n : Nat) :
    v.answersInTurn n ks = s.answersInTurn n ks := by
  induction ks generalizing n with
  | nil => rfl
  | cons k ks ih =>
    unfold State.answersInTurn
    rw [must k List.mem_cons_self, answer k List.mem_cons_self, ih (fun j there => must j (List.mem_cons_of_mem k there))
      (fun j there => answer j (List.mem_cons_of_mem k there))]

/-- Requests for keys of different sets, one after another (R102, R103). -/
structure State.KeysAsked (ks : List Key) (s : State) (q : State × List (Key × KeyResult)) : Prop where
  frame : q.1 = { s with du := q.1.du, smi := { s.smi with port := q.1.smi.port } }
  sets : ∀ i, (∀ k ∈ ks, i ≠ setOf k) → q.1.cacheSet i = s.cacheSet i
  holds : ∀ a, s.smi.port.holds a → q.1.smi.port.holds a
  requested : s.keysRequested q.1 s.clock ks
  answers : q.2 = s.answersInTurn s.du.queue.length ks

/-- A waiting item as requests for some keys leave it: one pin more when its key is one of them and cached nowhere. -/
def State.repinned (ks : List Key) (s : State) (i : WaitItem) : WaitItem :=
  if i.key ∈ ks ∧ (s.cacheSet (setOf i.key)).find i.key = none then { i with pins := i.pins + 1 } else i

theorem State.repinned_key (ks : List Key) (s : State) (i : WaitItem) : (s.repinned ks i).key = i.key := by
  unfold State.repinned
  split <;> rfl

theorem State.repinned_other {ks : List Key} {s : State} {i : WaitItem} (other : i.key ∉ ks) : s.repinned ks i = i :=
  if_neg fun both => other both.1

theorem State.repinned_one (k : Key) (s : State) (i : WaitItem) : s.repinned [k] i =
    if i.key = k ∧ (s.cacheSet (setOf k)).find k = none then { i with pins := i.pins + 1 } else i := by
  unfold State.repinned
  by_cases same : i.key = k
  · simp [same]
  · rw [if_neg fun both => same (List.mem_singleton.mp both.1), if_neg fun both => same both.1]

theorem State.repinned_cons {s v : State} {k : Key} {ks : List Key} {r : KeyResult} (first : s.KeyRequested k v r)
    (apart : ∀ j ∈ ks, setOf k ≠ setOf j) (i : WaitItem) :
    v.repinned ks (s.repinned [k] i) = s.repinned (k :: ks) i := by
  have absent : k ∉ ks := fun there => apart k there rfl
  by_cases same : i.key = k
  · rw [State.repinned_other (by rw [State.repinned_key, same]; exact absent)]
    unfold State.repinned
    simp [same]
  · rw [State.repinned_other (ks := [k]) fun inside => same (List.mem_singleton.mp inside)]
    unfold State.repinned
    by_cases inside : i.key ∈ ks
    · rw [first.set_other (apart _ inside)]
      simp [inside]
    · rw [if_neg fun both => inside both.1, if_neg fun both => (List.mem_cons.mp both.1).elim same inside]

/-- The wait queue after a request for one key and then for keys of other sets. -/
theorem State.queueAsked {s v : State} {k : Key} {ks : List Key} {r : KeyResult} {queue : List WaitItem}
    (first : s.KeyRequested k v r) (apart : ∀ j ∈ ks, setOf k ≠ setOf j)
    (rest : queue = v.du.queue.map (v.repinned ks) ++
      ((ks.filter v.mustWait).take (256 - v.du.queue.length)).map fun k => { key := k, joined := v.clock, pins := 1 }) :
    queue = s.du.queue.map (s.repinned (k :: ks)) ++
      (((k :: ks).filter s.mustWait).take (256 - s.du.queue.length)).map fun k =>
        { key := k, joined := s.clock, pins := 1 } := by
  have absent : k ∉ ks := fun there => apart k there rfl
  have clock : v.clock = s.clock := by rw [first.frame]
  have must : ks.filter v.mustWait = ks.filter s.mustWait :=
    List.filter_congr fun j there => first.mustWait_other (apart j there)
  have one : v.du.queue = s.du.queue.map (s.repinned [k]) ++
      if s.mustWait k = true ∧ s.du.queue.length < 256 then [{ key := k, joined := s.clock, pins := 1 }] else [] := by
    rw [first.queue, show s.repinned [k] = fun i =>
      if i.key = k ∧ (s.cacheSet (setOf k)).find k = none then { i with pins := i.pins + 1 } else i from
        funext (s.repinned_one k)]
  have both : (s.du.queue.map (s.repinned [k])).map (v.repinned ks) = s.du.queue.map (s.repinned (k :: ks)) := by
    rw [List.map_map]
    exact List.map_congr_left fun i _ => State.repinned_cons first apart i
  have fresh : v.repinned ks { key := k, joined := s.clock, pins := 1 } = { key := k, joined := s.clock, pins := 1 } :=
    State.repinned_other absent
  rw [rest, must, clock, one, List.map_append, both, List.append_assoc, List.length_append, List.length_map]
  cases waits : s.mustWait k with
  | false =>
    rw [List.filter_cons_of_neg (by rw [waits]; exact Bool.false_ne_true), if_neg fun both => Bool.noConfusion both.1]
    rfl
  | true =>
    rw [List.filter_cons_of_pos waits]
    by_cases room : s.du.queue.length < 256
    · obtain ⟨n, left⟩ : ∃ n, 256 - s.du.queue.length = n + 1 := ⟨255 - s.du.queue.length, by omega⟩
      rw [if_pos ⟨rfl, room⟩, left, List.take_succ_cons, List.map_cons, List.map_cons, List.length_singleton,
        show 256 - (s.du.queue.length + 1) = n by omega, List.map_nil, fresh]
      rfl
    · rw [if_neg fun both => room both.2, show 256 - s.du.queue.length = 0 by omega,
        show 256 - (s.du.queue.length + ([] : List WaitItem).length) = 0 by rw [List.length_nil]; omega]
      rfl

theorem State.answersInTurn_cons (s : State) (n : Nat) (k : Key) (ks : List Key) : s.answersInTurn n (k :: ks) =
    (k, s.requestAnswer n k) :: s.answersInTurn (if s.mustWait k then n + 1 else n) ks := rfl

theorem State.requestKeys_asked (ks : List Key) (s : State) (own : ownSets ks) : s.KeysAsked ks (s.requestKeys ks) := by
  induction ks generalizing s with
  | nil =>
    refine ⟨rfl, fun _ _ => rfl, fun _ h => h, ⟨nofun, nofun, ?_⟩, rfl⟩
    show s.du.queue = _
    simp
  | cons k ks ih =>
    obtain ⟨apart, own⟩ := List.pairwise_cons.mp own
    have first := s.requestKey_requested k
    have rest := ih (s.requestKey k).1 own
    rw [State.requestKeys_cons]
    generalize (s.requestKey k).1 = v at *
    generalize (s.requestKey k).2 = r at *
    generalize v.requestKeys ks = q at *
    obtain ⟨frame, sets, holds, ⟨held, taken, queue⟩, answers⟩ := rest
    have untouched : q.1.cacheSet (setOf k) = v.cacheSet (setOf k) := sets (setOf k) apart
    have way (w : Fin 4) : q.1.way (setOf k) w = v.way (setOf k) w := by
      unfold State.way
      rw [untouched]
    constructor
    case frame =>
      have start := first.frame
      rw [start] at frame
      exact frame
    case sets =>
      intro i away
      exact (sets i fun j there => away j (List.mem_cons_of_mem k there)).trans
        (first.sets i (away k List.mem_cons_self))
    case holds => exact fun a h => holds a (first.holds a h)
    case requested =>
      refine ⟨fun j there w e found entry => ?_, fun j there absent idle w chosen => ?_, ?_⟩
      · rcases List.mem_cons.mp there with rfl | there
        · dsimp only
          rw [way]
          exact first.held w e found entry
        · have other := apart j there
          rw [← first.set_other other] at found
          rw [← first.way_other other] at entry
          exact held j there w e found entry
      · rcases List.mem_cons.mp there with rfl | there
        · dsimp only
          rw [way]
          obtain ⟨entry, access⟩ := first.taken absent idle w chosen
          exact ⟨entry, fun a x table uncancelled => holds _ (access a x table uncancelled)⟩
        · have other := apart j there
          rw [← first.set_other other] at absent chosen
          rw [← first.waits_other other] at idle
          obtain ⟨entry, access⟩ := taken j there absent idle w chosen
          refine ⟨entry, fun a x table uncancelled => access a x (first.table.trans table) ?_⟩
          rw [first.way_other other]
          exact uncancelled
      · exact State.queueAsked first apart queue
    case answers =>
      show (k, r) :: q.2 = _
      rw [answers, State.answersInTurn_cons, first.answer]
      refine congrArg (List.cons _) ?_
      rw [State.answersInTurn_congr (fun j there => first.mustWait_other (apart j there))
        (fun j there n => first.answer_other (apart j there) n), first.queue, List.length_append, List.length_map]
      cases must : s.mustWait k with
      | false => rfl
      | true =>
        by_cases room : s.du.queue.length < 256
        · rw [if_pos ⟨rfl, room⟩]
          rfl
        · rw [if_neg fun both => room both.2]
          exact s.answersInTurn_full ks (by show 256 ≤ _ + 0; omega) (by show 256 ≤ _ + 1; omega)

end Sys2Proof.Machine
end

section
/-! What becomes of an offer read (R67, R68): the keys of its cue, the entry R76 makes of it, and the review that follows. -/

namespace Sys2Proof.Machine

/-! ### The keys of a cue -/

theorem State.mem_keysOf {s : State} {copy : Cue} {k : Key} : k ∈ s.keysOf copy ↔
    copy.action = .title ∧ k.title = copy.title ∧ copy.langs.getLsbD k.lang.val = true ∧
      ∃ (i : Screen16) (m : Fin 4), s.isAddressed copy i ∧ (s.screen i).layout[m] = some k.lang := by
  have every (g : Lang) : g ∈ allLangs := by
    revert g
    decide
  unfold State.keysOf
  cases action : copy.action with
  | blank => simp
  | title =>
    simp only [List.mem_map, List.mem_filter, every, true_and, Bool.and_eq_true, List.any_eq_true, List.contains_iff_mem,
      s.mem_addressed, mem_layoutLangs]
    constructor
    · rintro ⟨g, ⟨bit, i, addressed, m, slot⟩, rfl⟩
      exact ⟨rfl, bit, i, m, addressed, slot⟩
    · rintro ⟨title, bit, i, m, addressed, slot⟩
      refine ⟨k.lang, ⟨bit, i, addressed, m, slot⟩, ?_⟩
      rw [← title]

theorem State.keysOf_ascend (s : State) (copy : Cue) :
    (s.keysOf copy).Pairwise fun k j => k.title = j.title ∧ k.lang < j.lang := by
  have ascending : allLangs.Pairwise (· < ·) := by decide
  unfold State.keysOf
  split
  · exact List.Pairwise.nil
  · exact List.pairwise_map.mpr ((ascending.filter _).imp fun below => ⟨rfl, below⟩)

theorem State.keysOf_are (s : State) (copy : Cue) : s.keysAre copy (s.keysOf copy) :=
  ⟨fun _ => State.mem_keysOf, (s.keysOf_ascend copy).imp And.right⟩

/-- The keys of one cue stand in sets of their own: one title, and languages below 8 (R99). -/
theorem State.keysOf_ownSets (s : State) (copy : Cue) : ownSets (s.keysOf copy) :=
  (s.keysOf_ascend copy).imp fun {k j} apart same => by
    obtain ⟨title, below⟩ := apart
    have sets : (k.title + k.lang.val) % 32 = (j.title + j.lang.val) % 32 := congrArg Fin.val same
    have below : k.lang.val < j.lang.val := below
    omega

/-! ### The entry of a handed cue -/

/-- The entry of the cue at the cursor before it is timed and before its keys are requested (R76). -/
def Cursor.blankEntry (c : Cursor) (x : Section) (copy : Cue) (target : Option (Int × Nat)) : Armed :=
  { cue := c.cue, pass := c.pass, sec := c.sec, copy := copy, dwellPercent := x.dwellPercent, target := target
    appear := none, fire := none, lead := none, timing := .waiting, keys := [], unpinned := [] }

theorem State.owedFor_eq (s : State) (c : Cursor) (copy : Cue) : s.wlk.owedFor c copy = s.owedWith c copy := by
  unfold Walker.owedFor State.owedWith Walker.atFireCursor
  cases copy.anchor <;> simp

/-- An entry with the answers of its keys (R76, R106). -/
def Armed.withKeys (keys : List (Key × KeyResult)) (e : Armed) : Armed :=
  { e with keys := keys, unpinned := unpinnedOf keys }

theorem State.firstTiming_armedFor (s : State) (t : Time) (w : Walker) (c : Cursor) (x : Section) (copy : Cue) :
    (((s.begin t).setWalker w).firstTiming (s.owedWith c copy)
      (c.blankEntry x copy (s.targetOf c x copy.anchor))).withKeys (s.answersInTurn s.du.queue.length (s.keysOf copy)) =
      s.armedFor (max s.clock t) c x copy := by
  have blank : (c.blankEntry x copy (s.targetOf c x copy.anchor)).copy.anchor = copy.anchor := rfl
  unfold State.armedFor State.firstTiming
  generalize s.answersInTurn s.du.queue.length (s.keysOf copy) = keys
  dsimp only
  rw [blank]
  cases anchor : copy.anchor with
  | position bar beat tick =>
    obtain ⟨p, target⟩ : ∃ p, s.targetOf c x (.position bar beat tick) = some p := ⟨_, rfl⟩
    rw [target]
    dsimp only
    by_cases known : s.sch.view.state = .tracking ∨ s.sch.view.state = .freewheel
    · rw [if_pos known, ← TrackerView.predicts_eq, ← TrackerView.gates_eq]
      exact congrArg (Armed.withKeys keys) (if_pos known)
    · rw [if_neg known]
      exact congrArg (Armed.withKeys keys) (if_neg known)
  | go => cases s.owedWith c copy <;> rfl
  | follow delay =>
    cases s.owedWith c copy with
    | some g => rfl
    | none =>
      dsimp only
      by_cases behind : (s.armedEntry (c.cue - 1) c.pass).isSome = true
      · rw [if_pos behind]
        exact congrArg (Armed.withKeys keys) (if_pos behind)
      · rw [if_neg behind]
        refine (congrArg (Armed.withKeys keys) (if_neg behind)).trans ?_
        have gap : (c.blankEntry x copy (s.targetOf c x (.follow delay))).copy.delay = delay := by
          show copy.delay = delay
          unfold Cue.delay
          rw [anchor]
        unfold State.followsFrom State.timeFollow
        rw [gap]
        cases record : s.sch.fireRecord with
        | none =>
          rw [show ((s.begin t).setWalker w).sch.fireRecord = none from record]
          rfl
        | some f =>
          rw [show ((s.begin t).setWalker w).sch.fireRecord = some f from record]
          rfl

/-! ### Where a record that passes its checks goes -/

section Dispose

variable {v : State} {c : Cursor} {x : Section} {copy : Cue}

theorem State.disposeCue_passes (gone : v.passesOver c x copy) : v.disposeCue c x copy = v.passCue c true := by
  unfold State.disposeCue
  dsimp only
  by_cases later : copy.passRule = .firstPass ∧ 1 < c.pass
  · exact if_pos later
  rw [if_neg later]
  by_cases orphan : copy.isFollow = true ∧ (c.cue - 1, c.pass) ∈ v.wlk.unhanded
  · exact if_pos orphan
  rw [if_neg orphan]
  rcases gone with rule | ⟨follow, unhanded⟩ | ⟨b, tick, target, below⟩
  · exact absurd rule later
  · exact absurd ⟨copy.isFollow_iff.mpr follow, unhanded⟩ orphan
  · refine if_pos ?_
    rw [target]
    exact decide_eq_true below

variable (stands : ¬v.passesOver c x copy)
include stands

/-- A record that nothing passes over is judged by its target, the armed list and the window (R67, steps 5 to 7). -/
theorem State.disposeCue_stands : v.disposeCue c x copy =
    if (v.targetOf c x copy.anchor).any (fun p => decide (v.horizon < p.1)) = true then
      v.setWalker { v.wlk with waiting := (v.targetOf c x copy.anchor).map (·.1) }
    else if (v.armedEntry c.cue c.pass).isSome = true then
      (if x.mode = .called then v.passCue c false else v.setWalker { v.wlk with heldBack := true })
    else if x.mode = .called ∧ !(v.wlk.calledWindow c || (copy.isFollow && v.wlk.followsHanded c)) then
      v.setWalker { v.wlk with heldBack := true }
    else v.handCue c x copy (v.targetOf c x copy.anchor) := by
  unfold State.passesOver at stands
  obtain ⟨first, rest⟩ := not_or.mp stands
  obtain ⟨orphan, below⟩ := not_or.mp rest
  have ahead : ¬((v.targetOf c x copy.anchor).any fun p => decide (p.1 < 0)) = true := by
    cases target : v.targetOf c x copy.anchor with
    | none => exact Bool.false_ne_true
    | some p => exact fun under => below ⟨p.1, p.2, target, of_decide_eq_true under⟩
  unfold State.disposeCue
  dsimp only
  rw [if_neg first, if_neg fun both => orphan ⟨copy.isFollow_iff.mp both.1, both.2⟩, if_neg ahead]
  cases x.mode <;> rfl

theorem State.disposeCue_beyond {b : Int} {tick : Nat} (target : v.targetOf c x copy.anchor = some (b, tick))
    (beyond : v.horizon < b) : v.disposeCue c x copy = v.setWalker { v.wlk with waiting := some b } := by
  rw [State.disposeCue_stands stands, target]
  exact if_pos (decide_eq_true beyond)

variable (within : ∀ p, v.targetOf c x copy.anchor = some p → p.1 ≤ v.horizon)
include within

omit stands in
theorem State.target_within : ¬(v.targetOf c x copy.anchor).any (fun p => decide (v.horizon < p.1)) = true := by
  cases target : v.targetOf c x copy.anchor with
  | none => exact Bool.false_ne_true
  | some p =>
    intro beyond
    exact absurd (within p target) (Int.not_le.mpr (of_decide_eq_true beyond))

theorem State.disposeCue_armed (armed : v.armedEntry c.cue c.pass ≠ none) : v.disposeCue c x copy =
    if x.mode = .called then v.passCue c false else v.setWalker { v.wlk with heldBack := true } := by
  rw [State.disposeCue_stands stands, if_neg (State.target_within within),
    if_pos (Option.isSome_iff_ne_none.mpr armed)]

theorem State.disposeCue_hands (unarmed : v.armedEntry c.cue c.pass = none)
    (open_ : x.mode = .called → v.wlk.calledOffers < 4 ∨
      (v.wlk.inForce = .sec c.sec ∧ v.wlk.fireCursor = some c.cue) ∨
      ((∃ delay, copy.anchor = .follow delay) ∧ 0 < c.cue ∧ v.wlk.lastHanded = some (c.cue - 1, c.pass))) :
    v.disposeCue c x copy = v.handCue c x copy (v.targetOf c x copy.anchor) := by
  rw [State.disposeCue_stands stands, if_neg (State.target_within within), unarmed]
  refine (if_neg Bool.false_ne_true).trans (if_neg fun shut => ?_)
  obtain ⟨called, shut⟩ := shut
  unfold Walker.calledWindow Walker.atFireCursor Walker.followsHanded at shut
  rcases open_ called with few | ⟨inForce, cursor⟩ | ⟨follow, some_, last⟩
  · simp [show v.wlk.calledOffers < Config.calledWindow from few] at shut
  · simp [inForce, cursor] at shut
  · simp [copy.isFollow_iff.mpr follow, some_, last] at shut

end Dispose

/-! ### A cue handed over -/

theorem insertArmed_place (order : List Nat) (e : Armed) (es : List Armed) : ∃ before after, es = before ++ after ∧
    insertArmed order e es = before ++ e :: after ∧ (∀ x ∈ before, performsBefore order e x = false) ∧
    ∀ x, after.head? = some x → performsBefore order e x = true := by
  induction es with
  | nil => exact ⟨[], [], rfl, rfl, fun _ h => absurd h List.not_mem_nil, fun _ h => absurd h.symm (Option.some_ne_none _)⟩
  | cons y ys ih =>
    unfold insertArmed
    cases first : performsBefore order e y with
    | true =>
      refine ⟨[], y :: ys, rfl, rfl, fun _ h => absurd h List.not_mem_nil, fun x head => ?_⟩
      rw [← Option.some.inj head]
      exact first
    | false =>
      obtain ⟨before, after, list, placed, later, sooner⟩ := ih
      refine ⟨y :: before, after, congrArg (y :: ·) list, congrArg (y :: ·) placed, fun x there => ?_, sooner⟩
      rcases List.mem_cons.mp there with rfl | there
      · exact first
      · exact later x there

/-- The walker as the cue at the cursor is handed over (R58, R67). -/
def Walker.handing (c : Cursor) (x : Section) (copy : Cue) (w : Walker) : Walker := { w with
  cursor := some { c with cue := c.cue + 1 }, waiting := none, heldBack := false
  lastHanded := some (c.cue, c.pass), unhanded := w.unhanded.filter fun p => p != (c.cue, c.pass)
  owedGo := if (w.owedFor c copy).isSome then none else w.owedGo
  calledOffers := if x.mode = .called then w.calledOffers + 1 else w.calledOffers }

/-- The state in which a record read is judged: the command has begun, and no offer is being read. -/
def State.offerRead (t : Time) (s : State) : State := (s.begin t).setWalker { s.wlk with reading := false }

/-- The cue at the cursor has been handed over (R67, R76). -/
structure State.HandedOver (t : Time) (c : Cursor) (x : Section) (copy : Cue) (s u : State) : Prop where
  frame : u = { s.begin t with
    wlk := { s.wlk with reading := false }.handing c x copy, sch := u.sch, du := u.du
    smi := { s.smi with port := u.smi.port } }
  place : s.armedInPlace u (s.armedFor (max s.clock t) c x copy)
  keys : s.keysRequested u (max s.clock t) (s.keysOf copy)
  busy : ∀ f, s.smi.port.inFlight = some f → u.smi.port.inFlight = some f

theorem State.handCue_handed (t : Time) (c : Cursor) (x : Section) (copy : Cue) (s : State) :
    s.HandedOver t c x copy ((s.offerRead t).handCue c x copy (s.targetOf c x copy.anchor)) := by
  let w : Walker := { s.wlk with reading := false }.handing c x copy
  let v := (s.begin t).setWalker w
  have asked : v.KeysAsked (s.keysOf copy) (v.requestKeys (s.keysOf copy)) :=
    State.requestKeys_asked _ v (s.keysOf_ownSets copy)
  have busy (f : InFlight) (h : s.smi.port.inFlight = some f) :=
    (Titles.inFlight f).requestKeys (s.keysOf copy) v h
  have entry : (v.firstTiming (s.wlk.owedFor c copy) (c.blankEntry x copy (s.targetOf c x copy.anchor))).withKeys
      (s.answersInTurn s.du.queue.length (s.keysOf copy)) = s.armedFor (max s.clock t) c x copy := by
    rw [s.owedFor_eq]
    exact s.firstTiming_armedFor t w c x copy
  have handed : (s.offerRead t).handCue c x copy (s.targetOf c x copy.anchor) =
      (v.requestKeys (s.keysOf copy)).1.setArmed (insertArmed ((v.requestKeys (s.keysOf copy)).1.wlk.order.getD [])
        ((v.firstTiming (s.wlk.owedFor c copy) (c.blankEntry x copy (s.targetOf c x copy.anchor))).withKeys
          (v.requestKeys (s.keysOf copy)).2) (v.requestKeys (s.keysOf copy)).1.sch.armed) := rfl
  have answers : (v.requestKeys (s.keysOf copy)).2 = s.answersInTurn s.du.queue.length (s.keysOf copy) :=
    asked.answers.trans (State.answersInTurn_congr (s := s) (v := v) (fun _ _ => rfl) (fun _ _ _ => rfl) _)
  rw [answers, entry] at handed
  rw [handed]
  obtain ⟨frame, -, -, requested, -⟩ := asked
  generalize v.requestKeys (s.keysOf copy) = q at *
  have sch : q.1.sch = s.sch := by rw [frame]; rfl
  have order : q.1.wlk.order = s.wlk.order := by rw [frame]; rfl
  obtain ⟨before, after, list, placed, later, sooner⟩ := insertArmed_place (s.wlk.order.getD [])
    (s.armedFor (max s.clock t) c x copy) s.sch.armed
  constructor
  case frame =>
    unfold State.setArmed
    rw [frame]
    rfl
  case place =>
    refine ⟨before, after, list, ?_, later, sooner⟩
    unfold State.setArmed
    dsimp only
    rw [sch, order, placed]
  case keys => exact requested
  case busy => exact busy

theorem State.armedInPlace_found {s u : State} {e : Armed} (place : s.armedInPlace u e)
    (unarmed : s.armedEntry e.cue e.pass = none) : u.armedEntry e.cue e.pass = some e := by
  obtain ⟨before, after, list, sch, -⟩ := place
  unfold State.armedEntry at *
  rw [list, List.find?_append, Option.or_eq_none_iff] at unarmed
  rw [sch]
  dsimp only
  rw [List.find?_append, unarmed.1, Option.none_or, List.find?_cons_of_pos]
  simp [Armed.isOf]

theorem State.armedInPlace_mem {s u : State} {e y : Armed} (place : s.armedInPlace u e) (there : y ∈ u.sch.armed) :
    y = e ∨ y ∈ s.sch.armed := by
  obtain ⟨before, after, list, sch, -⟩ := place
  rw [sch] at there
  rw [list, List.mem_append]
  rcases List.mem_append.mp there with there | there
  · exact .inr (.inl there)
  · exact (List.mem_cons.mp there).imp_right .inr

theorem State.armedFor_names (s : State) (now : Time) (c : Cursor) (x : Section) (copy : Cue) :
    (s.armedFor now c x copy).cue = c.cue ∧ (s.armedFor now c x copy).pass = c.pass := by
  unfold State.armedFor
  dsimp only
  repeat' split
  all_goals exact ⟨rfl, rfl⟩

theorem State.firstFirable_undue {s : State} {es : List Armed} (undue : ∀ y ∈ es, y.timing ≠ .due) :
    s.firstFirable es = none := by
  induction es with
  | nil => rfl
  | cons y ys ih =>
    unfold State.firstFirable
    rw [if_neg (undue y List.mem_cons_self), ih fun z there => undue z (List.mem_cons_of_mem y there)]

/-! ### The review that follows -/

/-- A review keeps a cursor that waits for nothing waiting for nothing. -/
theorem State.reviewOffers_waiting {s : State} (idle : s.wlk.waiting = none) : s.reviewOffers.wlk.waiting = none := by
  have advanced (n : Nat) (v : State) (idle : v.wlk.waiting = none) : (State.advanceCursor n v).wlk.waiting = none := by
    induction n generalizing v with
    | zero => exact idle
    | succ n ih =>
      unfold State.advanceCursor
      repeat' split
      all_goals first
        | exact idle
        | exact ih _ rfl
  have offered (v : State) (idle : v.wlk.waiting = none) : v.offerAtCursor.wlk.waiting = none := by
    unfold State.offerAtCursor
    repeat' split
    all_goals exact idle
  unfold State.reviewOffers
  split
  · exact offered _ (advanced _ _ idle)
  · exact idle

theorem execOffer {t : Time} {d : List Byte} {s : State} {discarded : Bool} (h : s.answering (.offer discarded)) :
    exec (.offerReadComplete t d) s = .next (((if discarded then s.offerRead t
      else (s.offerRead t).takeOffer d).fireAll.reviewOffers).freePort) := by
  refine (congrArg Host.Outcome.next (State.answer_eq (act := State.endOffer discarded (some d))
    (s.answering_begin t h) rfl)).trans ?_
  cases discarded <;> rfl

/-- The review and the port after an offer read that fires nothing. -/
theorem State.reviewed_frame (v : State) : v.reviewOffers.freePort = { v with
    wlk := v.reviewOffers.freePort.wlk, smi := v.reviewOffers.freePort.smi } ∧
    v.wlk.sameWalk v.reviewOffers.freePort.wlk ∧
    v.reviewOffers.freePort.smi.journalQueue = v.smi.journalQueue ∧
    v.reviewOffers.freePort.smi.journalCount = v.smi.journalCount := by
  have frame := v.reviewOffers_moved.frame
  have walk := v.reviewOffers_moved.walk
  obtain ⟨queue, count⟩ := v.reviewOffers_queue
  generalize v.reviewOffers = u at *
  refine ⟨?_, walk, queue, count⟩
  rw [frame]
  rfl

end Sys2Proof.Machine
end

section
/-! The end of an offer read (R67, R68, R76): handed over, fired, dropped, discarded, waiting, passed over, armed already. -/

namespace Sys2Proof.Machine

section Offer

variable {t : Time} {d : List Byte} {s : State} {c : Cursor} {sc : Script} {x : Section}
variable (h : s.answering (.offer false)) (cursor : s.wlk.cursor = some c) (script : s.wlk.script = some sc)
  (sec : s.wlk.sec c.sec = some x)
include h cursor script sec

/-- A record that passes its checks is disposed of. -/
theorem execOffer_passes (checks : checkCue sc.sections sc.bars sc.speakerCount c.cue d = none) :
    exec (.offerReadComplete t d) s =
      .next (((s.offerRead t).disposeCue c x (parseCue d)).fireAll.reviewOffers).freePort := by
  have taken : (s.offerRead t).takeOffer d = (s.offerRead t).disposeCue c x (parseCue d) := by
    unfold State.takeOffer
    rw [show (s.offerRead t).wlk.cursor = some c from cursor, show (s.offerRead t).wlk.script = some sc from script]
    dsimp only
    rw [show (s.offerRead t).wlk.sec c.sec = some x from sec]
    dsimp only
    rw [checks]
  rw [execOffer h, if_neg Bool.false_ne_true, taken]

/-- A record that fails a check is dropped (R67, step 1). -/
theorem execOffer_fails {f : FaultCode} (checks : checkCue sc.sections sc.bars sc.speakerCount c.cue d = some f) :
    exec (.offerReadComplete t d) s =
      .next (((s.offerRead t).dropCue c f.code (u16 d 0)).fireAll.reviewOffers).freePort := by
  have taken : (s.offerRead t).takeOffer d = (s.offerRead t).dropCue c f.code (u16 d 0) := by
    unfold State.takeOffer
    rw [show (s.offerRead t).wlk.cursor = some c from cursor, show (s.offerRead t).wlk.script = some sc from script]
    dsimp only
    rw [show (s.offerRead t).wlk.sec c.sec = some x from sec]
    dsimp only
    rw [checks]
  rw [execOffer h, if_neg Bool.false_ne_true, taken]

variable (checks : checkCue sc.sections sc.bars sc.speakerCount c.cue d = none)
  (stands : ¬s.passesOver c x (parseCue d))
  (within : ∀ p, s.targetOf c x (parseCue d).anchor = some p → p.1 ≤ s.horizon)
  (unarmed : s.armedEntry c.cue c.pass = none)
  (open_ : x.mode = .called → s.wlk.calledOffers < 4 ∨ (s.wlk.inForce = .sec c.sec ∧ s.wlk.fireCursor = some c.cue) ∨
    ((∃ delay, (parseCue d).anchor = .follow delay) ∧ 0 < c.cue ∧ s.wlk.lastHanded = some (c.cue - 1, c.pass)))
include checks stands within unarmed open_

/-- A cue nothing holds back is handed over (R67, step 7). -/
theorem execOffer_hands : ∃ v, s.HandedOver t c x (parseCue d) v ∧
    exec (.offerReadComplete t d) s = .next (v.fireAll.reviewOffers).freePort := by
  refine ⟨_, s.handCue_handed t c x (parseCue d), ?_⟩
  rw [execOffer_passes h cursor script sec checks,
    State.disposeCue_hands (v := s.offerRead t) stands within unarmed open_]
  rfl

/-- A cue handed over while nothing can fire (R67, R76). -/
theorem offer_handed (still : s.ctl.engine ≠ .running ∨ s.sch.freeze = true ∨
      ((∀ y ∈ s.sch.armed, y.timing ≠ .due) ∧ (s.armedFor (max s.clock t) c x (parseCue d)).timing ≠ .due)) :
    ∃ u, exec (.offerReadComplete t d) s = .next u ∧ u.trk = s.trk ∧ u.desk = s.desk ∧ u.arb = s.arb ∧
      u.links = s.links ∧ u.ctl = s.ctl ∧ u.smi.journalCount = s.smi.journalCount ∧
      s.armedInPlace u (s.armedFor (max s.clock t) c x (parseCue d)) ∧
      u.armedEntry c.cue c.pass = some (s.armedFor (max s.clock t) c x (parseCue d)) ∧
      s.keysRequested u (max s.clock t) (s.keysOf (parseCue d)) ∧
      u.wlk.lastHanded = some (c.cue, c.pass) ∧ u.wlk.waiting = none ∧
      u.wlk.owedGo = (if s.owedWith c (parseCue d) = none then s.wlk.owedGo else none) ∧
      u.wlk.calledOffers = s.wlk.calledOffers + (if x.mode = .called then 1 else 0) ∧
      (c.cue + 1 < x.cueEnd → u.wlk.cursor = some { c with cue := c.cue + 1 }) := by
  obtain ⟨v, handed, he⟩ := execOffer_hands (t := t) h cursor script sec checks stands within unarmed open_
  obtain ⟨f, busy, -, purpose⟩ := State.answering_busy h
  obtain ⟨frame, place, keys, kept⟩ := handed
  have quiet : v.fireAll = v := by
    refine State.fireAll_none fun may => ?_
    obtain ⟨running, thawed⟩ := v.mayFire_iff.mp may
    have running' : s.ctl.engine = .running := by
      rw [frame] at running
      exact running
    have thawed' : s.sch.freeze = false := by
      obtain ⟨_, _, -, sch, -⟩ := place
      rw [sch] at thawed
      exact thawed
    obtain still | still | ⟨undue, fresh⟩ := still
    · exact absurd running' still
    · exact absurd (thawed'.symm.trans still) Bool.false_ne_true
    · refine State.firstFirable_undue fun y there => ?_
      rcases State.armedInPlace_mem place there with rfl | there
      · exact fresh
      · exact undue y there
  rw [quiet] at he
  obtain ⟨reviewed, walk, -, count⟩ := v.reviewed_frame
  have idle : v.reviewOffers.freePort.wlk.waiting = none :=
    State.reviewOffers_waiting (s := v) (by rw [frame]; rfl)
  have moves (more : c.cue + 1 < x.cueEnd) :
      v.reviewOffers.freePort.wlk.cursor = some { c with cue := c.cue + 1 } :=
    State.reviewOffers_cursor (s := v) (x := x) (by rw [frame]; rfl) (by rw [frame]; exact sec) more
  have holds (a : Access) (held : v.smi.port.holds a) (other : a.purpose ≠ .offer false) :
      v.reviewOffers.freePort.smi.port.holds a := by
    have waits := Port.waits_of_holds (kept f busy) held fun same => other (same ▸ purpose)
    exact State.freePort_holds ((⟨fun b _ w => State.waitsBehind_enqueue b w, fun _ _ _ w => w⟩ :
      Offers (State.waitsBehind a f)).reviewOffers v ⟨kept f busy, waits⟩).2
  generalize v.reviewOffers.freePort = u at *
  have hand : u.wlk.lastHanded = some (c.cue, c.pass) ∧
      u.wlk.owedGo = (if (s.wlk.owedFor c (parseCue d)).isSome then none else s.wlk.owedGo) ∧
      u.wlk.calledOffers = if x.mode = .called then s.wlk.calledOffers + 1 else s.wlk.calledOffers := by
    rw [walk, frame]
    exact ⟨rfl, rfl, rfl⟩
  obtain ⟨last, owed, called⟩ := hand
  have sch : u.sch = v.sch := by rw [reviewed]
  have du : u.du = v.du := by rw [reviewed]
  have rest : u.trk = s.trk ∧ u.desk = s.desk ∧ u.arb = s.arb ∧ u.links = s.links ∧ u.ctl = s.ctl := by
    rw [reviewed, frame]
    exact ⟨rfl, rfl, rfl, rfl, rfl⟩
  obtain ⟨trk, desk, arb, links, ctl⟩ := rest
  have place' : s.armedInPlace u (s.armedFor (max s.clock t) c x (parseCue d)) := by
    unfold State.armedInPlace
    rw [sch]
    exact place
  obtain ⟨names, inPass⟩ := s.armedFor_names (max s.clock t) c x (parseCue d)
  have found := State.armedInPlace_found place' (by rw [names, inPass]; exact unarmed)
  rw [names, inPass] at found
  have way (j : Fin 32) (w : Fin 4) : u.way j w = v.way j w := by
    unfold State.way State.cacheSet
    rw [du]
  refine ⟨u, he, trk, desk, arb, links, ctl, ?_, place', found, ?_, last, idle, ?_, ?_, moves⟩
  · rw [count, frame]
  · obtain ⟨held, taken, queue⟩ := keys
    refine ⟨fun k there w e found entry => ?_, fun k there absent idle w chosen => ?_, ?_⟩
    · rw [way]
      exact held k there w e found entry
    · rw [way]
      obtain ⟨entry, access⟩ := taken k there absent idle w chosen
      exact ⟨entry, fun a n table free => holds _ (access a n table free) nofun⟩
    · rw [du]
      exact queue
  · rw [owed, s.owedFor_eq]
    cases s.owedWith c (parseCue d) <;> rfl
  · rw [called]
    split <;> rfl

/-- A complete DUE cue handed over into the empty list fires (R87). -/
theorem offer_fires (running : s.ctl.engine = .running) (thawed : s.sch.freeze = false) (empty : s.sch.armed = [])
    (due : (s.armedFor (max s.clock t) c x (parseCue d)).timing = .due)
    (complete : ∀ p ∈ (s.armedFor (max s.clock t) c x (parseCue d)).keys, p.2 ≠ .pending) :
    ∃ u, exec (.offerReadComplete t d) s = .next u ∧ u.sch.armed = [] ∧ u.sch.fireRecord = some {
      cue := c.cue, pass := c.pass
      appear := ((s.armedFor (max s.clock t) c x (parseCue d)).appear).getD 0 } := by
  obtain ⟨v, ⟨frame, place, -, -⟩, he⟩ :=
    execOffer_hands (t := t) h cursor script sec checks stands within unarmed open_
  obtain ⟨before, after, list, sch, -⟩ := place
  obtain ⟨rfl, rfl⟩ := List.append_eq_nil_iff.mp (list.symm.trans empty)
  have may : v.mayFire = true := v.mayFire_iff.mpr ⟨by rw [frame]; exact running, by rw [sch]; exact thawed⟩
  obtain ⟨-, armed, record, -⟩ :=
    State.fireAll_alone may (by rw [sch]; rfl) due ((Armed.isComplete_iff _).mpr complete)
  obtain ⟨names, inPass⟩ := s.armedFor_names (max s.clock t) c x (parseCue d)
  rw [names, inPass] at record
  obtain ⟨reviewed, -⟩ := v.fireAll.reviewed_frame
  generalize v.fireAll = w at *
  generalize w.reviewOffers.freePort = u at *
  exact ⟨u, he, by rw [reviewed]; exact armed, by rw [reviewed]; exact record⟩

end Offer

/-! ### Nothing handed -/

theorem State.fireAll_still {s : State} (still : s.ctl.engine ≠ .running ∨ s.nothingFires) : s.fireAll = s :=
  still.elim State.fireAll_idle State.fireAll_nothing

/-- The review after a walker placed in a state in which nothing fires hands nothing and journals nothing. -/
theorem State.reviewed_hands {s : State} (t : Time) (w : Walker) :
    s.nothingHanded (((s.begin t).setWalker w).reviewOffers).freePort ∧
      w.sameWalk (((s.begin t).setWalker w).reviewOffers).freePort.wlk := by
  obtain ⟨reviewed, walk, -, count⟩ := ((s.begin t).setWalker w).reviewed_frame
  refine ⟨?_, walk⟩
  unfold State.nothingHanded
  rw [count]
  rw [reviewed]
  exact ⟨rfl, rfl, rfl, rfl, rfl, rfl, rfl, rfl⟩

theorem offer_discarded (t : Time) (d : List Byte) (s : State) (still : s.ctl.engine ≠ .running ∨ s.nothingFires)
    (h : s.answering (.offer true)) :
    ∃ u, exec (.offerReadComplete t d) s = .next u ∧ u.trk = s.trk ∧ u.desk = s.desk ∧ u.arb = s.arb ∧
      u.links = s.links ∧ u.ctl = s.ctl ∧ u.sch = s.sch ∧ u.du = s.du ∧
      u.smi.journalCount = s.smi.journalCount ∧ u.smi.journalQueue = s.smi.journalQueue := by
  have quiet : (s.offerRead t).fireAll = s.offerRead t := State.fireAll_still still
  refine ⟨_, (execOffer h).trans (by rw [if_pos rfl, quiet]), ?_⟩
  obtain ⟨reviewed, -, queue, count⟩ := (s.offerRead t).reviewed_frame
  rw [queue, count]
  rw [reviewed]
  exact ⟨rfl, rfl, rfl, rfl, rfl, rfl, rfl, rfl, rfl⟩

section Unhanded

variable {t : Time} {d : List Byte} {s : State} {c : Cursor} {sc : Script} {x : Section}
variable (still : s.ctl.engine ≠ .running ∨ s.nothingFires) (h : s.answering (.offer false))
  (cursor : s.wlk.cursor = some c) (script : s.wlk.script = some sc) (sec : s.wlk.sec c.sec = some x)
include still h cursor script sec

theorem offer_dropped {f : FaultCode} (checks : checkCue sc.sections sc.bars sc.speakerCount c.cue d = some f)
    (unowed : s.wlk.owedGo = none) (room : s.smi.journalQueue.length < 16) :
    ∃ u, exec (.offerReadComplete t d) s = .next u ∧ u.trk = s.trk ∧ u.desk = s.desk ∧ u.arb = s.arb ∧
      u.links = s.links ∧ u.ctl = s.ctl ∧ u.sch = s.sch ∧ u.du = s.du ∧ (c.cue, c.pass) ∈ u.wlk.unhanded ∧
      u.smi.journalQueue = s.smi.journalQueue ++
        [⟨s.smi.journalCount, max s.clock t, .cueRejected f.code c.cue (u16 d 0) 0⟩] := by
  let b : Journal := .cueRejected f.code c.cue (u16 d 0) 0
  obtain ⟨y, dropped⟩ := State.passCue_unowed (s := (s.offerRead t).journal b) c true (by
    rw [State.journal_wlk]
    exact unowed)
  have joined := State.journal_queue (s := s.offerRead t) b room
  have he := execOffer_fails (t := t) h cursor script sec checks
  have journaled : (s.offerRead t).journal b = { s.offerRead t with smi := ((s.offerRead t).journal b).smi } :=
    State.journalAt_onlyBus _ b (s.offerRead t).onlyBus_refl
  unfold State.dropCue at he
  rw [dropped, State.fireAll_still (by rw [journaled]; exact still)] at he
  generalize (s.offerRead t).journal b = v at *
  generalize hw : v.setWalker _ = w at he
  have unhanded : (c.cue, c.pass) ∈ w.wlk.unhanded := by
    rw [← hw]
    exact mem_addOnce _ _
  have frame : w = { s.begin t with wlk := w.wlk, smi := w.smi } := by
    rw [← hw, journaled]
    rfl
  have queued : w.smi.journalQueue = v.smi.journalQueue := by rw [← hw]; rfl
  obtain ⟨reviewed, walk, queue, -⟩ := w.reviewed_frame
  generalize w.reviewOffers.freePort = u at *
  have unhanded' : u.wlk.unhanded = w.wlk.unhanded := by rw [walk]
  refine ⟨u, he, ?_, ?_, ?_, ?_, ?_, ?_, ?_, by rw [unhanded']; exact unhanded,
    queue.trans (queued.trans joined)⟩
  all_goals rw [reviewed, frame]; rfl

variable (checks : checkCue sc.sections sc.bars sc.speakerCount c.cue d = none)
include checks

omit checks script still h in
/-- A review that may not read the cue at the cursor does nothing. -/
theorem State.reviewOffers_holds (before : c.cue < x.cueEnd) (held : s.mayRead c x = false) : s.reviewOffers = s := by
  have stays : State.advanceCursor 600 s = s := by
    unfold State.advanceCursor
    rw [cursor]
    dsimp only
    rw [sec]
    exact if_pos before
  have unread : s.offerAtCursor = s := by
    unfold State.offerAtCursor
    rw [cursor]
    split
    · next c' _ same _ =>
      obtain rfl := Option.some.inj same
      rw [sec]
      dsimp only
      rw [held, Bool.and_false]
      rfl
    · rfl
  unfold State.reviewOffers
  split
  · rw [stays, unread]
  · rfl

/-- A cue beyond the look-ahead waits for its target (R67, step 5). -/
theorem offer_waits (before : c.cue < x.cueEnd) (stands : ¬s.passesOver c x (parseCue d)) {b : Int} {tick : Nat}
    (mode : x.mode = .beat) (target : s.targetOf c x (parseCue d).anchor = some (b, tick)) (beyond : s.horizon < b) :
    ∃ u, exec (.offerReadComplete t d) s = .next u ∧ s.nothingHanded u ∧
        u.wlk = { s.wlk with reading := false, waiting := some b } := by
  let w : Walker := { s.wlk with reading := false, waiting := some b }
  have he := execOffer_passes (t := t) h cursor script sec checks
  have waits : (s.offerRead t).disposeCue c x (parseCue d) = (s.begin t).setWalker w :=
    State.disposeCue_beyond (v := s.offerRead t) stands target beyond
  have quiet : ((s.begin t).setWalker w).fireAll = (s.begin t).setWalker w := State.fireAll_still still
  have held : ((s.begin t).setWalker w).reviewOffers = (s.begin t).setWalker w :=
    State.reviewOffers_holds (s := (s.begin t).setWalker w) cursor sec before (by
      unfold State.mayRead
      rw [mode]
      have far : decide (b ≤ ((s.begin t).setWalker w).horizon) = false := decide_eq_false (Int.not_le.mpr beyond)
      show (decide (b ≤ ((s.begin t).setWalker w).horizon) && _) = false
      rw [far]
      rfl)
  rw [waits, quiet] at he
  refine ⟨_, he, (s.reviewed_hands t w).1, ?_⟩
  rw [held]
  rfl

/-- A cue passed over is left behind without a record (R67, steps 2 to 4). -/
theorem offer_passed (passes : s.passesOver c x (parseCue d)) (unowed : s.wlk.owedGo = none) :
    ∃ u, exec (.offerReadComplete t d) s = .next u ∧ s.nothingHanded u ∧ u.wlk.lastHanded = s.wlk.lastHanded ∧
        (c.cue, c.pass) ∈ u.wlk.unhanded ∧ u.wlk.waiting = none ∧
        (c.cue + 1 < x.cueEnd → u.wlk.cursor = some { c with cue := c.cue + 1 }) := by
  obtain ⟨y, passed⟩ := State.passCue_unowed (s := s.offerRead t) c true unowed
  have he := execOffer_passes (t := t) h cursor script sec checks
  rw [State.disposeCue_passes (v := s.offerRead t) passes, passed, State.fireAll_still (by exact still)] at he
  let w : Walker := { s.wlk with
    reading := false, cursor := some { c with cue := c.cue + 1 }, waiting := none, heldBack := false
    unhanded := addOnce (c.cue, c.pass) s.wlk.unhanded, fireCursor := y }
  obtain ⟨hands, walk⟩ := s.reviewed_hands t w
  have unhanded : (((s.begin t).setWalker w).reviewOffers).freePort.wlk.unhanded = w.unhanded := by rw [walk]
  refine ⟨_, he, hands, ?_, ?_, State.reviewOffers_waiting (s := (s.begin t).setWalker w) rfl, fun more =>
    State.reviewOffers_cursor (s := (s.begin t).setWalker w) (x := x) rfl sec more⟩
  · show (((s.begin t).setWalker w).reviewOffers).freePort.wlk.lastHanded = _
    rw [walk]
  · exact unhanded ▸ mem_addOnce _ _

/-- A cue armed already is not handed again (R67, step 6; log entry 19). -/
theorem offer_again (before : c.cue < x.cueEnd) (stands : ¬s.passesOver c x (parseCue d))
    (within : ∀ p, s.targetOf c x (parseCue d).anchor = some p → p.1 ≤ s.horizon)
    (armed : s.armedEntry c.cue c.pass ≠ none) :
    ∃ u, exec (.offerReadComplete t d) s = .next u ∧ s.nothingHanded u ∧ u.wlk.lastHanded = s.wlk.lastHanded ∧
        u.wlk.unhanded = s.wlk.unhanded ∧ (x.mode = .beat → u.wlk.cursor = some c ∧ u.wlk.reading = false) ∧
        (x.mode = .called → c.cue + 1 < x.cueEnd → u.wlk.cursor = some { c with cue := c.cue + 1 }) := by
  have he := execOffer_passes (t := t) h cursor script sec checks
  rw [State.disposeCue_armed (v := s.offerRead t) stands within armed] at he
  cases mode : x.mode with
  | called =>
    let w : Walker := { s.wlk with
      reading := false, cursor := some { c with cue := c.cue + 1 }, waiting := none, heldBack := false }
    have passed : (s.offerRead t).passCue c false = (s.begin t).setWalker w := rfl
    rw [mode, if_pos rfl, passed, State.fireAll_still (by exact still)] at he
    obtain ⟨hands, walk⟩ := s.reviewed_hands t w
    refine ⟨_, he, hands, by rw [walk], by rw [walk], fun beat => Mode.noConfusion beat, fun _ more =>
      State.reviewOffers_cursor (s := (s.begin t).setWalker w) (x := x) rfl sec more⟩
  | beat =>
    let w : Walker := { s.wlk with reading := false, heldBack := true }
    have held : ((s.begin t).setWalker w).reviewOffers = (s.begin t).setWalker w :=
      State.reviewOffers_holds (s := (s.begin t).setWalker w) cursor sec before (by
        unfold State.mayRead
        rw [mode]
        have there : ((s.begin t).setWalker w).armedEntry c.cue c.pass = s.armedEntry c.cue c.pass := rfl
        dsimp only
        rw [there, Option.isSome_iff_ne_none.mpr armed]
        exact Bool.and_false _)
    have holds : (s.offerRead t).setWalker { (s.offerRead t).wlk with heldBack := true } = (s.begin t).setWalker w := rfl
    rw [mode, if_neg nofun, holds, State.fireAll_still (by exact still)] at he
    obtain ⟨hands, walk⟩ := s.reviewed_hands t w
    refine ⟨_, he, hands, by rw [walk], by rw [walk], fun _ => ?_, fun called => Mode.noConfusion called⟩
    rw [held]
    exact ⟨cursor, rfl⟩

end Unhanded

/-- Settles O36: a record that passes is handed, fired, left to wait or left behind, and one that fails is dropped. -/
theorem offerReads : Obligations.OfferReads := by
  refine ⟨fun t d s c sc x h cursor script sec checks stands within unarmed open_ still =>
      offer_handed h cursor script sec checks stands within unarmed open_ still,
    State.keysOf_are,
    fun t d s c sc x running thawed empty h cursor script sec checks stands within few due complete =>
      offer_fires h cursor script sec checks stands within ?_ (fun called => .inl (few called)) running thawed empty due
        complete,
    fun t d s c sc x f still h cursor script sec checks unowed room =>
      offer_dropped still h cursor script sec checks unowed room,
    offer_discarded, fun t d s c sc x still h cursor script sec before checks => ⟨fun stands b tick mode target beyond =>
        offer_waits still h cursor script sec checks before stands mode target beyond,
      fun passes unowed => offer_passed still h cursor script sec checks passes unowed,
      fun stands within armed => offer_again still h cursor script sec checks before stands within armed⟩⟩
  unfold State.armedEntry
  rw [empty]
  rfl

end Sys2Proof.Machine
end

section
/-! A HELLO retried, and a HELLO-REPLY with its resync (R142, R143, R127, R134): the message of the resync leaves first, and
the evaluation that follows finds the link BUSY, so that nothing else leaves. -/

namespace Sys2Proof.Machine

/-! ### A panel judged on a link that is not READY -/

/-- Nothing has left between two panels, and the screen has changed in its entries and requests alone. -/
structure Panel.Silent (p q : Panel) : Prop where
  message : q.message = p.message
  frame : q.screen = { p.screen with stack := q.screen.stack, pendingAt := q.screen.pendingAt }

theorem Panel.Silent.refl (p : Panel) : p.Silent p := ⟨rfl, rfl⟩

theorem Panel.Silent.trans {p q r : Panel} (h : p.Silent q) (g : q.Silent r) : p.Silent r where
  message := g.message.trans h.message
  frame := by
    have first := h.frame
    have second := g.frame
    rw [first] at second
    exact second

theorem Panel.Silent.unready {p q : Panel} {s : State} {i : Screen16} (h : p.Silent q) (unready : p.ready s i = false) :
    q.ready s i = false := by
  unfold Panel.ready at *
  rw [h.message]
  exact unready

/-- An entry taken off another level that is masked, or beneath, leaves the visible top. -/
theorem Screen.visibleTop_without {x y : Screen} {l k : Level} {e : Entry} (top : x.visibleTop = some (l, e)) (apart : k ≠ l)
    (mask : y.mask = x.mask) (gone : y.stack[k] = none) (others : ∀ m : Level, m ≠ k → y.stack[m] = x.stack[m]) :
    y.visibleTop = some (l, e) := by
  obtain ⟨entry, unmasked, least⟩ := Screen.visibleTop_iff.1 top
  refine Screen.visibleTop_iff.2 ⟨(others l (Ne.symm apart)).trans entry, (Screen.masked_congr mask l).trans unmasked,
    fun m below open_ => ?_⟩
  by_cases same : m = k
  · rw [same]
    exact gone
  · rw [others m same]
    exact least m below ((Screen.masked_congr mask m).symm.trans open_)

section Unready

variable {s : State} {i : Screen16} {p : Panel} (unready : p.ready s i = false)
include unready

theorem Panel.defer_unready (k : Level) (r : Request) : p.defer s i k r = p := by
  unfold Panel.defer
  rw [unready]
  rfl

/-- A TITLE or NOTICE judged on a link that is not READY is granted silently beneath the shown top, or waits. -/
theorem Panel.judgeShow_unready (k : Level) (r : Request) : p.Silent (p.judgeShow s i k r) ∧
    ∀ l e, p.screen.visibleTop = some (l, e) → e.visibleSince ≠ none →
      (p.judgeShow s i k r).screen.visibleTop = some (l, e) := by
  have silent : p.Silent (p.insertSilently k r) := ⟨rfl, rfl⟩
  unfold Panel.judgeShow
  rw [unready]
  split
  · next none => exact ⟨.refl p, fun l e top => absurd (none.symm.trans top) nofun⟩
  · next m y here =>
    have keeps : p.Silent p ∧ ∀ l e, p.screen.visibleTop = some (l, e) → e.visibleSince ≠ none →
      p.screen.visibleTop = some (l, e) := ⟨.refl p, fun _ _ top _ => top⟩
    split
    · exact keeps
    · split
      · next lower =>
        refine ⟨silent, fun l e top _ => ?_⟩
        obtain ⟨rfl, rfl⟩ := Prod.mk.inj (Option.some.inj (here.symm.trans top))
        exact Screen.visibleTop_beneath here lower rfl fun j other =>
          Screen.setEntry_stack_ne (p.screen.setPending k none) _ (Ne.symm other)
      · split
        · next dark =>
          refine ⟨silent, fun l e top since => ?_⟩
          obtain ⟨rfl, rfl⟩ := Prod.mk.inj (Option.some.inj (here.symm.trans top))
          exact absurd (Option.isNone_iff_eq_none.mp dark) since
        · split
          · exact keeps
          · rw [Panel.defer_unready unready]
            exact keeps

theorem Panel.judgeBlank_unready (k : Level) (r : Request) : p.Silent (p.judgeBlank s i k r) ∧
    ∀ l e, p.screen.visibleTop = some (l, e) → e.visibleSince ≠ none →
      (p.judgeBlank s i k r).screen.visibleTop = some (l, e) := by
  have keeps : p.Silent p ∧ ∀ l e, p.screen.visibleTop = some (l, e) → e.visibleSince ≠ none →
    p.screen.visibleTop = some (l, e) := ⟨.refl p, fun _ _ top _ => top⟩
  unfold Panel.judgeBlank
  rw [unready]
  split
  · exact ⟨⟨rfl, rfl⟩, fun _ _ top _ => top⟩
  · split
    · split
      · exact keeps
      · rw [Panel.defer_unready unready]
        exact keeps
    · next buried =>
      refine ⟨⟨rfl, rfl⟩, fun l e top since => ?_⟩
      obtain ⟨v, shown⟩ := Option.ne_none_iff_exists'.mp since
      have apart : k ≠ l := by
        rintro rfl
        exact buried (Screen.isShownTop_iff.mpr ⟨e, v, top, shown⟩)
      exact Screen.visibleTop_without (k := k) top apart rfl (Screen.setEntry_stack_self (p.screen.setPending k none) _ _)
        fun j other => Screen.setEntry_stack_ne (p.screen.setPending k none) _ (Ne.symm other)

theorem Panel.judge_unready (k : Level) : p.Silent (p.judge s i k) ∧
    ∀ l e, p.screen.visibleTop = some (l, e) → e.visibleSince ≠ none → (p.judge s i k).screen.visibleTop = some (l, e) := by
  unfold Panel.judge
  split
  · exact ⟨.refl p, fun _ _ top _ => top⟩
  · split
    · split
      · exact Panel.judgeBlank_unready unready k _
      · exact Panel.judgeShow_unready unready k _
      · exact Panel.judgeShow_unready unready k _
    · exact ⟨.refl p, fun _ _ top _ => top⟩

theorem Panel.judgeEach_unready (ks : List Level) : p.Silent (ks.foldl (Panel.judge s i) p) ∧
    ∀ l e, p.screen.visibleTop = some (l, e) → e.visibleSince ≠ none →
      (ks.foldl (Panel.judge s i) p).screen.visibleTop = some (l, e) := by
  induction ks generalizing p with
  | nil => exact ⟨.refl p, fun _ _ top _ => top⟩
  | cons k ks ih =>
    obtain ⟨first, keeps⟩ := Panel.judge_unready unready k
    obtain ⟨rest, later⟩ := ih (first.unready unready)
    rw [List.foldl_cons]
    exact ⟨first.trans rest, fun l e top since => later l e (keeps l e top since) since⟩

/-- What an evaluation leaves of a panel on a link that is not READY: nothing leaves, the shown top stands, and the
screen changes in its entries, requests and timers alone. -/
structure Panel.Darkened (s : State) (p q : Panel) : Prop where
  message : q.message = p.message
  frame : q.screen = { p.screen with
    stack := q.screen.stack, pendingAt := q.screen.pendingAt, releaseTimer := q.screen.releaseTimer
    dwellTimer := q.screen.dwellTimer, noticeTimer := q.screen.noticeTimer }
  top : ∀ l e, p.screen.visibleTop = some (l, e) → e.visibleSince ≠ none → q.screen.visibleTop = some (l, e)
  quiet : p.screen.nothingReleased s.clock → q.screen.stack = p.screen.stack ∧ q.screen.pendingAt = p.screen.pendingAt

theorem Panel.evaluated_unready (ends : p.screen.noneEnded s.clock) : Panel.Darkened s p (p.evaluated s i) := by
  have opened : p.opened s i = p := Panel.opened_stands ends (.inr unready)
  obtain ⟨silent, keeps⟩ := Panel.judgeEach_unready unready allLevels
  have judged : p.judged s i = allLevels.foldl (Panel.judge s i) p := by
    unfold Panel.judged
    rw [opened]
  rw [← judged] at silent keeps
  have still : (p.judged s i).refreshed s i .default = p.judged s i :=
    Panel.refreshed_of_unready _ (silent.unready unready)
  have quiet (released : p.screen.nothingReleased s.clock) : p.judged s i = p :=
    judged.trans (Panel.judgeEach_released allLevels released)
  unfold Panel.evaluated Panel.ended
  rw [still]
  generalize p.judged s i = q at *
  obtain ⟨message, frame⟩ := silent
  refine ⟨message, ?_, keeps, fun released => ?_⟩
  · unfold Panel.put Screen.retime
    dsimp only
    rw [frame]
  · rw [quiet released]
    exact ⟨rfl, rfl⟩

end Unready

/-! ### The resync of a screen that is no monitor (R127) -/

theorem Screen.noticesEnded_noneEnded (x : Screen) (now : Time) : (x.noticesEnded now).noneEnded now := by
  have later {T : Time} {o : Option Time} (ahead : (!o.any fun T => decide (T ≤ now)) = true) (ends : o = some T) :
      now < T := by
    rw [ends] at ahead
    simpa using ahead
  rintro l T (entry | request)
  · obtain ⟨e, there, ends⟩ := Option.bind_eq_some_iff.1 entry
    have there : (Vector.ofFn fun l : Level => x.stack[l].filter fun e => !e.endTime.any fun T => decide (T ≤ now))[l] =
      some e := there
    rw [Fin.getElem_fin, Vector.getElem_ofFn, Option.filter_eq_some_iff] at there
    exact later there.2 ends
  · obtain ⟨r, there, ends⟩ := Option.bind_eq_some_iff.1 request
    have there : (Vector.ofFn fun l : Level => x.pendingAt[l].filter fun r => !r.endTime.any fun T => decide (T ≤ now))[l] =
      some r := there
    rw [Fin.getElem_fin, Vector.getElem_ofFn, Option.filter_eq_some_iff] at there
    exact later there.2 ends

/-- The panel of a screen whose link has become READY, its ended notices gone (R128). -/
def State.resyncPanel (i : Screen16) (b : State) : Panel :=
  ⟨(b.screen i).noticesEnded b.clock, none, b.arb.entrySerial⟩

/-- The resync of a panel: a SHOW of the visible top, or a CLEAR, with CUT (R127). -/
def Panel.resynced (b : State) (i : Screen16) (p : Panel) : Panel :=
  match p.screen.visibleTop with
  | some (l, e) => p.shown b i l e .cut
  | none => p.cleared .cut

/-- The message of the resync of a panel. -/
def Panel.resyncMessage (p : Panel) : Message :=
  match p.screen.visibleTop with
  | some (l, e) => p.showOf l e .cut
  | none => clearMessage .cut

section Resync

variable {b : State} {i : Screen16}

theorem Panel.resynced_message (p : Panel) : (p.resynced b i).message = some p.resyncMessage := by
  unfold Panel.resynced Panel.resyncMessage
  split <;> rfl

variable (plain : b.isMonitor i = false)
include plain

theorem State.realized_evaluate (p : Panel) : (b.realized i p).evaluate i = b.realized i (p.evaluated b i) := by
  have still : (b.realized i p).isMonitor i = false := by
    unfold State.isMonitor
    rw [State.realized_mirror]
    exact plain
  unfold State.evaluate
  rw [if_neg (by rw [still]; exact Bool.false_ne_true), State.realized_judgeRequests plain,
    State.realized_endEvaluation plain]
  rfl

theorem State.resync_plain : b.resync i = b.realized i (((b.resyncPanel i).resynced b i).evaluated b i) := by
  have unpaired : (b.arb.mirror.filter fun p => p.2 == i) = none := by
    unfold State.isMonitor at plain
    cases pair : b.arb.mirror with
    | none => rfl
    | some p =>
      rw [pair] at plain
      rw [Option.filter_some, if_neg (by rw [show (p.2 == i) = false from plain]; exact Bool.false_ne_true)]
  have begun : b.setScreen i ((b.screen i).endNotices b.clock true) = b.realized i (b.resyncPanel i) := by
    rw [Screen.endNotices_ready]
    rfl
  have screen : (b.realized i (b.resyncPanel i)).screen i = (b.resyncPanel i).screen := State.realized_screen plain _
  unfold State.resync
  rw [unpaired]
  dsimp only
  rw [begun, screen, ← State.realized_evaluate plain]
  unfold Panel.resynced
  cases top : (b.resyncPanel i).screen.visibleTop with
  | none => exact congrArg (State.evaluate i) (State.realized_sendClear plain _ .cut rfl)
  | some q => exact congrArg (State.evaluate i) (State.realized_showEntry plain _ q.1 q.2 .cut rfl)

end Resync

section Resync

variable {v b : State} {i : Screen16} (plain : v.isMonitor i = false) (alike : State.Alike i v b)
  (screen : b.screen i = v.screen i)
include screen

theorem State.resyncPanel_face : (v.screen i).sameFace (b.resyncPanel i).screen := by
  rw [← screen]
  exact ⟨rfl, rfl, rfl, rfl, rfl⟩

omit screen in
/-- The evaluation after the resync of a panel changes entries, requests and timers alone. -/
theorem State.resync_darkened :
    Panel.Darkened b ((b.resyncPanel i).resynced b i) (((b.resyncPanel i).resynced b i).evaluated b i) := by
  refine Panel.evaluated_unready (Panel.ready_of_sent (Panel.resynced_message _)) ?_
  have none := (b.screen i).noticesEnded_noneEnded b.clock
  unfold Panel.resynced
  cases top : (b.resyncPanel i).screen.visibleTop with
  | none =>
    dsimp only
    rw [Panel.cleared_screen]
    exact none
  | some q =>
    obtain ⟨l, e⟩ := q
    dsimp only
    obtain ⟨entry, others, pending, -⟩ : (b.resyncPanel i).screen.ShownOver
      ((b.resyncPanel i).shown b i l e .cut).screen l e ((b.resyncPanel i).dwellOf b i l e .cut) b.clock :=
        Panel.shown_over rfl
    rintro k T (there | request)
    · by_cases same : k = l
      · subst same
        rw [entry] at there
        have start : (b.resyncPanel i).screen.stack[k] = some e := (Screen.visibleTop_iff.1 top).1
        exact none k T (.inl ((congrArg (·.bind Entry.endTime) start).trans there))
      · rw [others k same] at there
        exact none k T (.inl there)
    · rw [pending] at request
      exact none k T (.inr request)

include plain alike

omit screen in
theorem State.resync_eq : b.resync i = b.realized i (((b.resyncPanel i).resynced b i).evaluated b i) :=
  State.resync_plain ((State.isMonitor_alike alike i).trans plain)

omit screen in
/-- The message of the resync has left, with its copy, and nothing else. -/
theorem State.resync_sent (unsent : b.sent = []) : v.Sent (b.resync i) i (b.resyncPanel i).resyncMessage ∧
    v.framesLeft (b.resync i) i (b.resyncPanel i).resyncMessage [] := by
  have here : b.isMonitor i = false := (State.isMonitor_alike alike i).trans plain
  obtain ⟨message, frame, -, -⟩ := State.resync_darkened (b := b) (i := i)
  have record : ((b.resyncPanel i).resynced b i).screen.onScreen = (b.resyncPanel i).resyncMessage.record ∧
      ((b.resyncPanel i).resynced b i).screen.preferred = (b.screen i).preferred := by
    unfold Panel.resynced Panel.resyncMessage
    cases top : (b.resyncPanel i).screen.visibleTop with
    | none =>
      dsimp only
      rw [Panel.cleared_screen]
      exact ⟨rfl, rfl⟩
    | some q =>
      dsimp only
      rw [Panel.shown_screen]
      exact ⟨rfl, rfl⟩
  rw [State.resync_eq plain alike]
  have sends := message.trans (Panel.resynced_message (b := b) (i := i) _)
  generalize ((b.resyncPanel i).resynced b i).evaluated b i = q at *
  obtain ⟨record, preferred⟩ := record
  refine ⟨State.Sent.of_alike alike (State.realized_sent here sends ?_ ?_), State.framesLeft_alike alike ?_⟩
  · rw [frame]
    exact record
  · rw [frame]
    exact preferred
  · rw [← unsent]
    exact State.realized_framesLeft here sends (by rw [frame]; exact preferred)

/-- The resync shows the visible top (R127, R125). -/
theorem State.resync_shows (unsent : b.sent = []) {l : Level} {e : Entry}
    (top : ((v.screen i).noticesEnded b.clock).visibleTop = some (l, e)) :
    ((b.resync i).screen i).onScreen = .entry l e.serial ∧ (v.screen i).counted ((b.resync i).screen i) .shown 1 ∧
      (∃ d, v.dwellIs i e d ∧ ((b.resync i).screen i).stack[l] = some { e with
        minDwell := some d, visibleSince := some b.clock }) ∧
      (((v.screen i).noticesEnded b.clock).nothingReleased b.clock →
        ((b.resync i).screen i).pendingAt = ((v.screen i).noticesEnded b.clock).pendingAt ∧
        ∀ k : Level, k ≠ l → ((b.resync i).screen i).stack[k] = ((v.screen i).noticesEnded b.clock).stack[k]) ∧
      v.sentAndCopied (b.resync i) i fun m => v.showWith i l e .cut m ∧ v.messageSent (b.resync i) i m := by
  have here : b.isMonitor i = false := (State.isMonitor_alike alike i).trans plain
  obtain ⟨sent, left⟩ := State.resync_sent plain alike unsent
  obtain ⟨-, frame, kept, quiet⟩ := State.resync_darkened (b := b) (i := i)
  have face := State.resyncPanel_face screen
  have starts : (b.resyncPanel i).screen = (v.screen i).noticesEnded b.clock := by
    unfold State.resyncPanel
    rw [screen]
  have top' : (b.resyncPanel i).screen.visibleTop = some (l, e) := by rw [starts]; exact top
  have shown : (b.resyncPanel i).resynced b i = (b.resyncPanel i).shown b i l e .cut := by
    unfold Panel.resynced
    rw [top']
  have message : (b.resyncPanel i).resyncMessage = (b.resyncPanel i).showOf l e .cut := by
    unfold Panel.resyncMessage
    rw [top']
  have final : (b.resync i).screen i = (((b.resyncPanel i).resynced b i).evaluated b i).screen := by
    rw [State.resync_eq plain alike]
    exact State.realized_screen here _
  have bare : (b.resyncPanel i).screen.ShownOver ((b.resyncPanel i).shown b i l e .cut).screen l e
      ((b.resyncPanel i).dwellOf b i l e .cut) b.clock := Panel.shown_over rfl
  rw [message] at sent left
  rw [shown] at frame kept quiet final
  rw [final]
  generalize ((b.resyncPanel i).shown b i l e .cut).evaluated b i = q at *
  have record : q.screen.onScreen = .entry l e.serial := by
    rw [frame]
    show ((b.resyncPanel i).shown b i l e .cut).screen.onScreen = _
    rw [Panel.shown_screen]
  have visible : ((b.resyncPanel i).shown b i l e .cut).screen.visibleTop =
      some (l, e.onAir ((b.resyncPanel i).dwellOf b i l e .cut) b.clock) := by
    obtain ⟨-, unmasked, least⟩ := Screen.visibleTop_iff.1 top'
    refine Screen.visibleTop_iff.2 ⟨bare.entry, (Screen.masked_congr bare.mask l).trans unmasked, fun k below clear => ?_⟩
    rw [bare.others k (ne_of_lt below)]
    exact least k below ((Screen.masked_congr bare.mask k).symm.trans clear)
  refine ⟨record, ?_, ⟨_, ?_, (Screen.visibleTop_iff.1 (kept l _ visible (Option.some_ne_none _))).1⟩, fun released => ?_, ?_⟩
  · have rises := bare.shown
    rw [starts] at rises
    rw [frame]
    exact rises
  · unfold Panel.dwellOf
    rw [State.entryDwell_alike alike]
    exact State.entryDwell_dwellIs face l e .cut
  · rw [← starts] at released ⊢
    obtain ⟨stack, pending⟩ := quiet fun k r there => by
      rw [bare.pending] at there
      rw [Screen.masked_congr bare.mask]
      exact released k r there
    rw [stack, pending]
    exact ⟨bare.pending, bare.others⟩
  · exact sent.sentAndCopied left ⟨State.showMessage_showWith face l e .cut, sent.message⟩

/-- The resync clears a screen on which nothing is visible (R127). -/
theorem State.resync_clears (unsent : b.sent = []) (top : ((v.screen i).noticesEnded b.clock).visibleTop = none) :
    ((b.resync i).screen i).onScreen = .blank ∧
      (((v.screen i).noticesEnded b.clock).nothingReleased b.clock →
        ((b.resync i).screen i).pendingAt = ((v.screen i).noticesEnded b.clock).pendingAt ∧
        ((b.resync i).screen i).stack = ((v.screen i).noticesEnded b.clock).stack) ∧
      v.sentAndCopied (b.resync i) i fun m => m.isClear .cut ∧ v.messageSent (b.resync i) i m := by
  have here : b.isMonitor i = false := (State.isMonitor_alike alike i).trans plain
  obtain ⟨sent, left⟩ := State.resync_sent plain alike unsent
  obtain ⟨-, frame, -, quiet⟩ := State.resync_darkened (b := b) (i := i)
  have starts : (b.resyncPanel i).screen = (v.screen i).noticesEnded b.clock := by
    unfold State.resyncPanel
    rw [screen]
  have top' : (b.resyncPanel i).screen.visibleTop = none := by rw [starts]; exact top
  have cleared : (b.resyncPanel i).resynced b i = (b.resyncPanel i).cleared .cut := by
    unfold Panel.resynced
    rw [top']
  have message : (b.resyncPanel i).resyncMessage = clearMessage .cut := by
    unfold Panel.resyncMessage
    rw [top']
  have final : (b.resync i).screen i = (((b.resyncPanel i).resynced b i).evaluated b i).screen := by
    rw [State.resync_eq plain alike]
    exact State.realized_screen here _
  rw [message] at sent left
  rw [cleared] at frame quiet final
  refine ⟨sent.record, fun released => ?_, sent.sentAndCopied left ⟨⟨rfl, rfl, rfl⟩, sent.message⟩⟩
  rw [final]
  rw [← starts] at released ⊢
  rw [Panel.cleared_screen] at quiet
  exact (quiet released).symm

end Resync

/-! ### A HELLO-REPLY -/

/-- A link whose HELLO has been answered (R143). -/
def Link.answered (c : Caps) (k : Link) : Link := { k with state := .ready, caps := some c, op := none, retryTimer := none }

/-- The state in which the resync of a link is sent: it has its capabilities, and LINK STATE is journalled (R143). -/
def State.helloTaken (t : Time) (i : Screen16) (c : Caps) (s : State) : State :=
  ((s.begin t).setLink i ((s.link i).answered c)).journal (.linkState i (s.link i).state.code LinkState.ready.code
    LinkCause.helloReply.code 0 0 (capsBits (some c)) c.fadeTime 0)

theorem State.helloTaken_frame (t : Time) (i : Screen16) (c : Caps) (s : State) : s.helloTaken t i c =
    { (s.begin t).setLink i ((s.link i).answered c) with smi := (s.helloTaken t i c).smi } :=
  State.journalAt_onlyBus _ _ (((s.begin t).setLink i ((s.link i).answered c)).onlyBus_refl)

section Hello

variable (t : Time) (i : Screen16) (c : Caps) (s : State)

theorem State.helloTaken_link : (s.helloTaken t i c).link i = (s.link i).answered c := by
  rw [State.helloTaken_frame]
  exact State.setLink_link_self (s := s.begin t) i _

theorem State.helloTaken_line : (s.setLink i { s.link i with caps := some c }).sameLine (s.helloTaken t i c) i := by
  unfold State.sameLine
  rw [State.helloTaken_link, State.setLink_link_self, State.helloTaken_frame]
  exact ⟨rfl, rfl, rfl⟩

theorem State.helloTaken_alike (plain : s.isMonitor i = false) :
    State.Alike i (s.setLink i { s.link i with caps := some c }) (s.helloTaken t i c) := by
  have line := s.helloTaken_line t i c
  rw [State.helloTaken_frame] at line ⊢
  refine ⟨rfl, rfl, rfl, rfl, line, fun mon pair => ?_⟩
  have apart : i ≠ mon := (State.mirror_ne plain pair).symm
  have link : ((s.begin t).setLink i ((s.link i).answered c)).link mon =
      (s.setLink i { s.link i with caps := some c }).link mon :=
    (State.setLink_link_ne _ _ apart).trans (State.setLink_link_ne s _ apart).symm
  refine ⟨⟨?_, ?_, rfl⟩, link⟩
  · exact congrArg Link.tag link
  · exact congrArg Link.caps link

theorem State.helloTaken_records : (s.helloTaken t i c).smi.flags = s.smi.flags ∧
    (s.helloTaken t i c).smi.journalCount = (s.smi.journalCount + 1) % 4294967296 ∧
    (s.smi.journalQueue.length < 16 → (s.helloTaken t i c).smi.journalQueue = s.smi.journalQueue ++
      [⟨s.smi.journalCount, max s.clock t, .linkState i (s.link i).state.code LinkState.ready.code
        LinkCause.helloReply.code 0 0 (capsBits (some c)) c.fadeTime 0⟩]) :=
  ⟨(State.journalAt_registers _ _ _).2.1, (State.journalAt_journal _ _ _).1, fun room =>
    State.journal_queue (s := (s.begin t).setLink i ((s.link i).answered c)) _ room⟩

end Hello

theorem State.resolved_cut {s : State} (i : Screen16) {m : Message} (cut : m.override = .cut) : s.resolved i m = .cut := by
  unfold State.resolved
  rw [cut]
  split <;> rfl

theorem Panel.resyncMessage_cut (p : Panel) : p.resyncMessage.override = .cut := by
  unfold Panel.resyncMessage
  split <;> rfl

theorem sourceCopy_cut (x : Screen) : (sourceCopy x).override = .cut := by
  unfold sourceCopy
  split <;> rfl

theorem sourceCopy_isDisplayOf (x : Screen) : (sourceCopy x).isDisplayOf x .cut := by
  unfold sourceCopy
  refine ⟨fun top => ?_, fun l e top => ?_⟩
  · rw [top]
    exact ⟨rfl, rfl, rfl⟩
  · rw [top]
    exact ⟨rfl, rfl, rfl, rfl, rfl⟩

/-- The resync of the mirror monitor is the copy of its source (R127, R134). -/
theorem State.resync_monitor {b : State} {i a : Screen16} (pair : b.arb.mirror = some (a, i)) :
    b.resync i = { b with arb := { b.arb with hold := none } }.deliver i (sourceCopy (b.screen a)) := by
  unfold State.resync
  rw [pair, Option.filter_some, if_pos (by simp)]

/-- What every resync keeps, and the operation it leaves on its link (R127, R146). -/
structure State.Resynced (s b u : State) (i : Screen16) : Prop where
  frame : u = { b with arb := u.arb, links := u.links, sent := u.sent }
  link : ∃ m : Message, m.override = .cut ∧ u.link i = (b.link i).busy b.clock m .cut
  others : s.othersStand u i

theorem State.helloTaken_others {t : Time} {i : Screen16} {c : Caps} {s u : State}
    (others : (s.helloTaken t i c).othersStand u i) : s.othersStand u i := by
  intro j apart pair
  unfold State.othersStand at others
  rw [State.helloTaken_frame] at others
  obtain ⟨screen, link⟩ := others j apart pair
  exact ⟨screen, link.trans (State.setLink_link_ne (s.begin t) _ (Ne.symm apart))⟩

theorem State.helloTaken_resynced (t : Time) (i : Screen16) (c : Caps) (s : State) :
    State.Resynced s (s.helloTaken t i c) ((s.helloTaken t i c).resync i) i := by
  have mirror : (s.helloTaken t i c).arb.mirror = s.arb.mirror := by
    rw [State.helloTaken_frame]
    rfl
  cases plain : (s.helloTaken t i c).isMonitor i with
  | false =>
    have message := Panel.Darkened.message (State.resync_darkened (b := s.helloTaken t i c) (i := i))
    have same := State.resync_plain plain
    refine ⟨?_, ⟨((s.helloTaken t i c).resyncPanel i).resyncMessage, Panel.resyncMessage_cut _, ?_⟩, ?_⟩
    · rw [same, State.realized_frame]
    · rw [same, State.realized_link plain, message, Panel.resynced_message]
      dsimp only
      rw [State.resolved_cut i (Panel.resyncMessage_cut _)]
    · rw [same]
      exact State.helloTaken_others (State.realized_othersStand _)
  | true =>
    obtain ⟨⟨a, j⟩, pair, here⟩ := (Option.any_eq_true _ _).mp plain
    obtain rfl : j = i := by simpa using here
    rw [State.resync_monitor pair]
    refine ⟨rfl, ⟨sourceCopy ((s.helloTaken t j c).screen a), sourceCopy_cut _, ?_⟩, ?_⟩
    · unfold State.deliver
      rw [State.linkSend_link_self, State.resolved_cut j (sourceCopy_cut _)]
      rfl
    · refine State.helloTaken_others (t := t) (c := c) fun k apart _ => ⟨?_, ?_⟩
      · exact State.setScreen_screen_ne _ _ (Ne.symm apart)
      · exact State.setLink_link_ne _ _ (Ne.symm apart)

/-- The copy that the mirror monitor is sent once its HELLO is answered (R127, R134). -/
theorem State.helloTaken_monitor (t : Time) (i : Screen16) (c : Caps) (s : State) {a : Screen16}
    (pair : s.arb.mirror = some (a, i)) (u : State) (resynced : u = (s.helloTaken t i c).resync i) :
    u.arb.hold = none ∧ u.screen i = (s.screen i).sentMessage (sourceCopy (s.screen a)) ∧
      (s.setLink i { s.link i with caps := some c }).messageSent u i (sourceCopy (s.screen a)) ∧
      u.sent = [(i, (s.setLink i { s.link i with caps := some c }).nextFrame i (sourceCopy (s.screen a)))] := by
  have screens (j : Screen16) : (s.helloTaken t i c).screen j = s.screen j := by
    rw [State.helloTaken_frame]
    rfl
  have unsent : (s.helloTaken t i c).sent = [] := by
    rw [State.helloTaken_frame]
    rfl
  have line := s.helloTaken_line t i c
  rw [State.resync_monitor (by rw [State.helloTaken_frame]; exact pair), screens] at resynced
  unfold State.deliver at resynced
  generalize s.helloTaken t i c = b at *
  let w : State := { b with arb := { b.arb with hold := none } }
  have line' : (s.setLink i { s.link i with caps := some c }).sameLine
      (w.setScreen i ((w.screen i).sentMessage (sourceCopy (s.screen a)))) i :=
    State.sameLine_trans line (State.setScreen_sameLine (s := w) i (Screen.sentMessage_settings _ _).2.2.1 i)
  have screen : w.screen i = s.screen i := screens i
  rw [resynced]
  refine ⟨rfl, ?_, ?_, ?_⟩
  · refine (State.setScreen_screen_self (s := w) i _).trans ?_
    rw [screen]
  · exact (State.messageSent_congr line' _).mp (State.linkSend_messageSent _ _ _)
  · refine (State.linkSend_sent _ _ _).trans ?_
    rw [State.nextFrame_congr line']
    show b.sent ++ _ = _
    rw [unsent]
    rfl

/-- A HELLO-REPLY that is taken (R143). -/
theorem execHelloReply_taken (t : Time) (s : State) (i : Screen16) (caps : Byte) (f n : Nat)
    (probing : (s.link i).state = .probing) (short : f ≤ 2000) (some_ : 1 ≤ n) (four : n ≤ 4) :
    exec (.helloReply t i (s.link i).tag caps f n) s = .next ((s.helloTaken t i
      { fade := caps.getLsbD 0, overlap := caps.getLsbD 1, fadeTime := f, capacity := n }).resync i) := by
  have takes : ((s.begin t).link i).takesHello (s.link i).tag f n = true := by
    show (s.link i).takesHello (s.link i).tag f n = true
    unfold Link.takesHello
    simp [probing, short, some_, four]
  show Host.Outcome.next ((s.begin t).helloReplied i (s.link i).tag caps f n) = _
  unfold State.helloReplied
  dsimp only
  rw [if_pos takes]
  rfl

/-- The HELLO retry timer expires (R142). -/
theorem execHelloRetryTimer_sends (t : Time) (s : State) (i : Screen16) (e : Time) (probing : (s.link i).state = .probing)
    (runs : (s.link i).retryTimer = some e) (past : e ≤ max s.clock t) :
    exec (.helloRetryTimer t i) s = .next (((s.begin t).setLink i { s.link i with
      hellos := min 4294967295 ((s.link i).hellos + 1)
      retryTimer := some (max s.clock t + 1000000) }).transmit i (helloFrame (s.link i).tag)) := by
  show Host.Outcome.next ((s.begin t).retryHello i) = _
  unfold State.retryHello
  dsimp only
  rw [if_pos ⟨probing, expired_some runs past⟩, bump_eq]
  rfl

/-- A HELLO-REPLY that is not taken is counted (R151). -/
theorem execHelloReply_ignored (t : Time) (s : State) (i : Screen16) (tag caps : Byte) (f n : Nat)
    (refuses : ¬((s.link i).state = .probing ∧ (s.link i).tag = tag ∧ f ≤ 2000 ∧ 1 ≤ n ∧ n ≤ 4)) :
    exec (.helloReply t i tag caps f n) s = .next ((s.begin t).setLink i { s.link i with
      ignored := min 4294967295 ((s.link i).ignored + 1) }) := by
  have passes : ¬((s.begin t).link i).takesHello tag f n = true := by
    intro takes
    refine refuses ?_
    unfold Link.takesHello at takes
    simp only [Bool.and_eq_true, beq_iff_eq, decide_eq_true_eq, and_assoc] at takes
    exact takes
  show Host.Outcome.next ((s.begin t).helloReplied i tag caps f n) = _
  unfold State.helloReplied
  dsimp only
  rw [if_neg passes, State.ignoreMessage_eq]
  rfl

/-- Settles O55: the HELLO sent again, a reply taken with its resync, and one that is not taken. -/
theorem helloExchange : Obligations.HelloExchange := by
  refine ⟨execHelloRetryTimer_sends, fun t s i caps f n probing short some_ four => ?_, execHelloReply_ignored⟩
  dsimp only
  refine ⟨_, execHelloReply_taken t s i caps f n probing short some_ four, ?_⟩
  generalize hc : ({ fade := caps.getLsbD 0, overlap := caps.getLsbD 1, fadeTime := f, capacity := n } : Caps) = c
  have code : capsBits (some c) = 8 + 16 * bit (caps.getLsbD 0) + 32 * bit (caps.getLsbD 1) + 64 * (n - 1) := by
    rw [← hc]
    unfold capsBits
    dsimp only
    rw [Nat.mod_eq_of_lt (by omega)]
  have fade : c.fadeTime = f := by rw [← hc]
  obtain ⟨frame, ⟨m, -, link⟩, others⟩ := s.helloTaken_resynced t i c
  obtain ⟨flags, count, queue⟩ := s.helloTaken_records t i c
  have begun := s.helloTaken_frame t i c
  have clock : (s.helloTaken t i c).clock = max s.clock t := by rw [begun]; rfl
  rw [probing, code, fade] at queue
  rw [s.helloTaken_link] at link
  have clock' : ((s.helloTaken t i c).resync i).clock = max s.clock t := by rw [frame]; exact clock
  have smi : ((s.helloTaken t i c).resync i).smi = (s.helloTaken t i c).smi := by rw [frame]
  refine ⟨?_, ?_, clock', others, ?_, ?_, fun room => ?_, ?_, ?_, fun a pair => ?_, fun plain => ?_⟩
  · rw [frame, begun]
    exact ⟨rfl, rfl, rfl, rfl, rfl⟩
  · rw [frame, begun]
    rfl
  · rw [smi, flags]
  · rw [smi, count]
  · rw [smi, queue room]
    rfl
  · rw [link, clock]
    rfl
  · rw [link]
    rfl
  · obtain ⟨hold, screen, sent, line⟩ := s.helloTaken_monitor t i c pair _ rfl
    have display := sourceCopy_isDisplayOf (s.screen a)
    rw [screen]
    refine ⟨hold, ?_, ?_, fun l e top => ⟨?_, ?_⟩, fun top => ?_, _, display, sent, line⟩
    · rw [Screen.sentMessage_frame]
    · rw [Screen.sentMessage_frame]
    · rw [Screen.sentMessage_onScreen]
      unfold Message.record
      rw [(display.2 l e top).2.2.1]
    · exact Screen.sentMessage_counted (display.2 l e top).1
    · rw [Screen.sentMessage_onScreen]
      unfold Message.record
      rw [(display.1 top).2.2]
  · have alike := s.helloTaken_alike t i c plain
    have screen : (s.helloTaken t i c).screen i = s.screen i := by rw [begun]; rfl
    have unsent : (s.helloTaken t i c).sent = [] := by rw [begun]; rfl
    have shows (l : Level) (e : Entry) := State.resync_shows (v := s.setLink i { s.link i with caps := some c }) (l := l) (e := e) plain alike
      screen unsent
    have clears := State.resync_clears (v := s.setLink i { s.link i with caps := some c }) plain alike screen unsent
    rw [clock] at shows clears
    rw [clock']
    refine ⟨fun l e top => ?_, fun top => ?_⟩
    · obtain ⟨record, counted, entry, rest, sent⟩ := shows l e top
      exact ⟨record, counted, entry, rest, sent⟩
    · obtain ⟨record, rest, sent⟩ := clears top
      exact ⟨record, rest, sent⟩

end Sys2Proof.Machine
end

section
/-! An entry that an evaluation does not take off its level (R119 to R123), and a desk BLANK pressed (R129, R158, R160, R161):
the flags it sets, and the screens it then evaluates. -/

namespace Sys2Proof.Machine

/-! ### An entry that stays at its level -/

/-- What one and the same entry keeps, however often it is shown or buried: its serial number, identity and tuples. -/
def Entry.content (e : Entry) : Nat × Ident × List Tuple := (e.serial, e.ident, e.tuples)

/-- The content of the entry at a level. -/
def Screen.contentAt (x : Screen) (m : Level) : Option (Nat × Ident × List Tuple) := x.stack[m].map Entry.content

/-- The entry that a level's content is that of. -/
theorem Screen.contentAt_some {x : Screen} {m : Level} {e : Entry} (h : x.contentAt m = some e.content) :
    ∃ y, x.stack[m] = some y ∧ y.serial = e.serial ∧ y.ident = e.ident ∧ y.tuples = e.tuples := by
  obtain ⟨y, entry, same⟩ := Option.map_eq_some_iff.1 h
  obtain ⟨serial, rest⟩ := Prod.mk.inj same
  obtain ⟨ident, tuples⟩ := Prod.mk.inj rest
  exact ⟨y, entry, serial, ident, tuples⟩

theorem Screen.contentAt_setEntry (x : Screen) {k m : Level} (e : Option Entry) (apart : k ≠ m) :
    (x.setEntry k e).contentAt m = x.contentAt m := congrArg (Option.map _) (Screen.setEntry_stack_ne x e apart)

/-- An entry replaced by itself, seen otherwise, is the same entry. -/
theorem Screen.contentAt_renewed {x : Screen} {k : Level} {e y : Entry} (entry : x.stack[k] = some e)
    (same : y.content = e.content) (m : Level) : (x.setEntry k (some y)).contentAt m = x.contentAt m := by
  by_cases apart : k = m
  · subst apart
    unfold Screen.contentAt
    rw [Screen.setEntry_stack_self, entry]
    exact congrArg some same
  · exact Screen.contentAt_setEntry x _ apart

theorem Screen.contentAt_congr {x y : Screen} (stack : y.stack = x.stack) (m : Level) : y.contentAt m = x.contentAt m := by
  unfold Screen.contentAt
  rw [stack]

section Stays

variable {s : State} {i : Screen16} {p : Panel} (m : Level)

theorem Panel.shown_contentAt {l : Level} {e : Entry} {o : TransOverride} :
    (p.shown s i l e o).screen.contentAt m = (p.screen.setEntry l (some (e.onAir (p.dwellOf s i l e o) s.clock))).contentAt m :=
  Screen.contentAt_congr (by rw [Panel.shown_screen]; rfl) m

theorem Panel.refreshed_contentAt (o : TransOverride) : (p.refreshed s i o).screen.contentAt m = p.screen.contentAt m := by
  unfold Panel.refreshed
  split
  · split
    · next l e top =>
      split
      · rfl
      · rw [Panel.shown_contentAt]
        exact Screen.contentAt_renewed (y := e.onAir _ _) (Screen.visibleTop_some top).1 rfl m
    · split
      · rfl
      · exact Screen.contentAt_congr (by rw [Panel.cleared_screen]) m
  · rfl

variable {m} {k : Level} (apart : k ≠ m) (r : Request)
include apart

theorem Panel.grantShow_contentAt : (p.grantShow s i k r).screen.contentAt m = p.screen.contentAt m := by
  unfold Panel.grantShow
  rw [Panel.shown_contentAt, Screen.contentAt_setEntry _ _ apart]
  exact Screen.contentAt_congr (by rw [Panel.granted_eq]; rfl) m

theorem Panel.judgeShow_contentAt : (p.judgeShow s i k r).screen.contentAt m = p.screen.contentAt m := by
  have inserted : (p.insertSilently k r).screen.contentAt m = p.screen.contentAt m :=
    Screen.contentAt_setEntry (p.screen.setPending k none) _ apart
  have deferred : (p.defer s i k r).screen.contentAt m = p.screen.contentAt m := by
    unfold Panel.defer
    split <;> rfl
  unfold Panel.judgeShow
  split
  · split
    · exact Panel.grantShow_contentAt apart r
    · rfl
  · next l e top =>
    split
    · split
      · exact (Panel.grantShow_contentAt apart r).trans (Screen.contentAt_renewed
          (y := { e with visibleSince := none }) (Screen.visibleTop_some top).1 rfl m)
      · rfl
    · split
      · exact inserted
      · split
        · exact inserted
        · split
          · split
            · exact Panel.grantShow_contentAt apart r
            · rfl
          · exact deferred

theorem Panel.judgeBlank_contentAt : (p.judgeBlank s i k r).screen.contentAt m = p.screen.contentAt m := by
  have removed : ((p.screen.setPending k none).setEntry k none).contentAt m = p.screen.contentAt m :=
    Screen.contentAt_setEntry (p.screen.setPending k none) _ apart
  have deferred : (p.defer s i k r).screen.contentAt m = p.screen.contentAt m := by
    unfold Panel.defer
    split <;> rfl
  unfold Panel.judgeBlank
  split
  · rfl
  · split
    · split
      · split
        · exact (Panel.refreshed_contentAt m r.override).trans removed
        · rfl
      · exact deferred
    · exact removed

omit r in
/-- A request judged at one level takes nothing off the others. -/
theorem Panel.judge_contentAt : (p.judge s i k).screen.contentAt m = p.screen.contentAt m := by
  unfold Panel.judge
  split
  · rfl
  · split
    · split
      · exact Panel.judgeBlank_contentAt apart _
      · exact Panel.judgeShow_contentAt apart _
      · exact Panel.judgeShow_contentAt apart _
    · rfl

end Stays

theorem Panel.judgeEach_contentAt {s : State} {i : Screen16} {m : Level} (ks : List Level) {p : Panel}
    (idle : p.screen.pendingAt[m] = none) : (ks.foldl (Panel.judge s i) p).screen.contentAt m = p.screen.contentAt m := by
  induction ks generalizing p with
  | nil => rfl
  | cons k ks ih =>
    rw [List.foldl_cons]
    by_cases same : k = m
    · subst same
      rw [Panel.judge_idle fun r there => absurd (idle.symm.trans there) nofun]
      exact ih idle
    · have kept : (p.judge s i k).screen.pendingAt[m] = p.screen.pendingAt[m] := Panel.judge_pending_ne (Ne.symm same)
      rw [ih (kept.trans idle), Panel.judge_contentAt same]

/-- Step 1 keeps an entry whose end has not been reached, and makes no request (R128). -/
theorem Screen.endNotices_keeps {x : Screen} {now : Time} (ready : Bool) {m : Level} {e : Entry}
    (entry : x.stack[m] = some e) (ahead : ∀ T, e.endTime = some T → now < T) (idle : x.pendingAt[m] = none) :
    (x.endNotices now ready).stack[m] = some e ∧ (x.endNotices now ready).pendingAt[m] = none := by
  refine foldl_keeps (P := fun y : Screen => y.stack[m] = some e ∧ y.pendingAt[m] = none) (fun y k h => ?_) allLevels x
    ⟨entry, idle⟩
  obtain ⟨entry, idle⟩ := h
  have unreached : (some e).any (fun e => e.endTime.any fun t => decide (t ≤ now)) = false := by
    cases ends : e.endTime with
    | none => simp [ends]
    | some T => simpa [ends] using ahead T ends
  unfold Screen.endNoticeAt
  dsimp only
  by_cases same : k = m
  · subst same
    have kept : (if y.pendingAt[k].any (fun r => r.endTime.any fun t => decide (t ≤ now)) = true
        then y.setPending k none else y) = y := by
      rw [idle]
      exact if_neg Bool.false_ne_true
    rw [kept, entry, unreached]
    exact ⟨entry, idle⟩
  · have discarded : (if y.pendingAt[k].any (fun r => r.endTime.any fun t => decide (t ≤ now)) = true
        then y.setPending k none else y).stack[m] = some e ∧
        (if y.pendingAt[k].any (fun r => r.endTime.any fun t => decide (t ≤ now)) = true
          then y.setPending k none else y).pendingAt[m] = none := by
      split
      · exact ⟨entry, (Screen.setPending_pending_ne y none same).trans idle⟩
      · exact ⟨entry, idle⟩
    generalize (if y.pendingAt[k].any (fun r => r.endTime.any fun t => decide (t ≤ now)) = true
      then y.setPending k none else y) = z at *
    split
    · exact ⟨(Screen.setEntry_stack_ne z none same).trans discarded.1, discarded.2⟩
    · exact discarded

/-- An evaluation keeps the entry of a level without a request, while its end has not been reached and no desk BLANK is
carried out. -/
theorem Panel.evaluated_contentAt {s : State} {i : Screen16} {p : Panel} {m : Level} {e : Entry}
    (entry : p.screen.stack[m] = some e) (ahead : ∀ T, e.endTime = some T → s.clock < T)
    (idle : p.screen.pendingAt[m] = none) (blank : p.screen.blankPending = false ∨ p.ready s i = false) :
    (p.evaluated s i).screen.contentAt m = some e.content := by
  have pressed : (p.screen.endNotices s.clock (p.ready s i)).blankPending = p.screen.blankPending := by
    refine foldl_keeps (P := fun y : Screen => y.blankPending = p.screen.blankPending) (fun y k h => ?_) allLevels p.screen rfl
    unfold Screen.endNoticeAt
    dsimp only
    split <;> split <;> exact h
  obtain ⟨entry, idle⟩ := Screen.endNotices_keeps (p.ready s i) entry ahead idle
  have opened : (p.opened s i).screen = p.screen.endNotices s.clock (p.ready s i) := by
    rw [Panel.opened_screen]
    exact Screen.carryOutBlank_stands (by rw [pressed]; exact blank)
  have judged : (p.judged s i).screen.contentAt m = some e.content := by
    unfold Panel.judged
    rw [Panel.judgeEach_contentAt allLevels (by rw [opened]; exact idle), opened]
    unfold Screen.contentAt
    rw [entry]
    rfl
  unfold Panel.evaluated Panel.ended
  generalize p.judged s i = q at *
  exact (Panel.refreshed_contentAt m .default).trans judged

/-- On a link that is not READY an evaluation sends nothing, and a desk BLANK waits on. -/
theorem Panel.evaluated_dark {s : State} {i : Screen16} {p : Panel} (unready : p.ready s i = false) :
    (p.evaluated s i).message = p.message ∧ (p.evaluated s i).screen.blankPending = p.screen.blankPending ∧
      (p.evaluated s i).screen.onScreen = p.screen.onScreen := by
  have ended : (p.screen.endNotices s.clock false).blankPending = p.screen.blankPending ∧
      (p.screen.endNotices s.clock false).onScreen = p.screen.onScreen := by
    refine foldl_keeps (P := fun y : Screen => y.blankPending = p.screen.blankPending ∧
      y.onScreen = p.screen.onScreen) (fun y k h => ?_) allLevels p.screen ⟨rfl, rfl⟩
    unfold Screen.endNoticeAt
    dsimp only
    split <;> split <;> exact h
  have opened : p.opened s i = p.put (p.screen.endNotices s.clock false) := by
    unfold Panel.opened
    rw [unready, Screen.carryOutBlank_stands (.inr rfl)]
  generalize p.screen.endNotices s.clock false = x at *
  have still : (p.put x).ready s i = false := unready
  obtain ⟨silent, -⟩ := Panel.judgeEach_unready still allLevels
  have judged : p.judged s i = allLevels.foldl (Panel.judge s i) (p.put x) := by
    unfold Panel.judged
    rw [opened]
  rw [← judged] at silent
  unfold Panel.evaluated Panel.ended
  rw [Panel.refreshed_of_unready .default (silent.unready still)]
  obtain ⟨message, frame⟩ := silent
  generalize p.judged s i = q at *
  refine ⟨message, ?_⟩
  unfold Panel.put Screen.retime
  dsimp only
  rw [frame]
  exact ended

/-! ### The flags -/

/-- A screen that a desk BLANK has reached. -/
def Screen.pressed (x : Screen) : Screen := { x with blankPending := true }

theorem State.takesBlank_iff {s : State} {i : Screen16} : s.takesBlank i = true ↔ s.takesPress i := by
  unfold State.takesBlank State.takesPress
  rw [Bool.and_eq_true, Bool.or_eq_true, beq_iff_eq, beq_iff_eq, Option.any_eq_true]
  refine and_congr_right fun _ => ⟨?_, ?_⟩
  · rintro ⟨⟨l, e⟩, top, title⟩
    exact ⟨l, e, top, by simpa using title⟩
  · rintro ⟨l, e, top, title⟩
    exact ⟨(l, e), top, by simpa using title⟩

theorem State.pressBlank_frame (s : State) :
    ∃ xs, s.pressBlank = { s with arb := { s.arb with screens := xs } } := by
  unfold State.pressBlank
  refine foldl_keeps (P := fun u : State => ∃ xs, u = { s with arb := { s.arb with screens := xs } })
    (fun u i h => ?_) allScreens s ⟨s.arb.screens, rfl⟩
  obtain ⟨xs, frame⟩ := h
  split
  · exact ⟨xs.set i { u.screen i with blankPending := true }, by rw [frame]; rfl⟩
  · exact ⟨xs, frame⟩

theorem State.pressBlank_screen (s : State) (i : Screen16) :
    s.pressBlank.screen i = if s.takesBlank i = true then (s.screen i).pressed else s.screen i := by
  obtain ⟨y, -, view, done⟩ := foldl_once (P := fun _ : State => True) (i := i)
    (f := fun s i => if s.takesBlank i then s.setScreen i { s.screen i with blankPending := true } else s)
    (fun u : State => (u.screen i, u.link i)) (fun _ _ _ => trivial) (fun u j _ apart => by
      split
      · exact congrArg₂ Prod.mk (State.setScreen_screen_ne _ _ apart) rfl
      · rfl) s trivial
  obtain ⟨screen, link⟩ := Prod.mk.inj view
  have takes : y.takesBlank i = s.takesBlank i := by
    unfold State.takesBlank
    rw [screen, link]
  unfold State.pressBlank
  obtain ⟨same, -⟩ := Prod.mk.inj done
  rw [same, takes]
  split
  · rw [State.setScreen_screen_self, screen]
    rfl
  · exact screen

theorem State.blankHeld_iff {s : State} : s.blankHeld = true ↔ ∃ i, (s.screen i).blankPending = true := by
  unfold State.blankHeld
  rw [List.any_eq_true]
  exact ⟨fun ⟨i, _, held⟩ => ⟨i, held⟩, fun ⟨i, held⟩ => ⟨i, mem_allScreens i, held⟩⟩

theorem State.pressBlank_alike (s : State) (i : Screen16) : State.Alike i s s.pressBlank := by
  have preferred (j : Screen16) : (s.pressBlank.screen j).preferred = (s.screen j).preferred := by
    rw [State.pressBlank_screen]
    split <;> rfl
  obtain ⟨xs, frame⟩ := s.pressBlank_frame
  rw [frame] at preferred ⊢
  exact ⟨rfl, rfl, rfl, rfl, ⟨rfl, rfl, preferred i⟩, fun mon _ => ⟨⟨rfl, rfl, preferred mon⟩, rfl⟩⟩

/-! ### The screens evaluated -/

/-- The step of a desk BLANK at one screen, once the flags are set. -/
def State.blankAt (s : State) (i : Screen16) : State := if (s.screen i).blankPending then s.evaluate i else s

/-- The screens that hold the flag are evaluated in turn (R129). -/
def State.blankEach (s : State) : State := allScreens.foldl State.blankAt s

theorem State.takeBlank_eq (s : State) : s.takeBlank =
    if s.pressBlank.blankHeld = true then s.pressBlank.blankEach else s.pressBlank.ignoreDesk .blank .nothingShown := by
  have each : State.blankAt = fun s i => if (s.screen i).blankPending then s.evaluate i else s := rfl
  unfold State.takeBlank State.blankEach
  rw [each]

theorem State.blankAt_untouched {s : State} {i j : Screen16} (apart : j ≠ i) (notCopy : s.arb.mirror ≠ some (j, i)) :
    State.Untouched i s (s.blankAt j) := by
  unfold State.blankAt
  split
  · exact State.evaluate_untouched apart notCopy
  · exact State.Untouched.refl i s

theorem State.blankAt_mirror (s : State) (i : Screen16) : (s.blankAt i).arb.mirror = s.arb.mirror := by
  unfold State.blankAt
  split
  · exact State.evaluate_mirror i s
  · rfl

/-- The walk comes to a screen that is no monitor with all of it as it was, and leaves it as its own step has left it. -/
theorem State.blankEach_around {z : State} {i : Screen16} (plain : z.isMonitor i = false) :
    ∃ y, State.Untouched i z y ∧ State.Untouched i (y.blankAt i) z.blankEach := by
  obtain ⟨before, after, -, first, last⟩ := foldl_around (st := id) (f := State.blankAt) (i := i) (pair := z.arb.mirror)
    (fun y j apart mirror => State.blankAt_untouched apart (by rw [mirror]; exact State.plain_mirror plain j))
    (fun y mirror => (State.blankAt_mirror y i).trans mirror) z rfl
  exact ⟨_, first, last⟩

theorem State.blankEach_onlyScreens (z : State) : z.onlyScreens z.blankEach :=
  foldl_keeps (P := z.onlyScreens) (fun y j h => by
    unfold State.blankAt
    split
    · exact (Screens.only z).evaluate j y h
    · exact h) allScreens z z.onlyScreens_refl

theorem State.blankEach_smi (z : State) : z.blankEach.smi = z.smi :=
  foldl_keeps (P := fun y : State => y.smi = z.smi) (fun y j h => by
    unfold State.blankAt
    split
    · exact (State.evaluate_smi y j).trans h
    · exact h) allScreens z rfl

/-! ### The press -/

theorem State.edgeTaken_alike (s : State) (t : Time) (l : Line) (i : Screen16) : State.Alike i s (s.edgeTaken t l) :=
  ⟨rfl, rfl, rfl, rfl, s.sameLine_refl i, fun mon _ => ⟨s.sameLine_refl mon, rfl⟩⟩

/-- A BLANK that is carried to the arbiter (R158). -/
theorem execBlank_takes {t : Time} {s : State} (engine : s.ctl.engine = .running ∨ s.ctl.engine = .pausing ∨
    s.ctl.engine = .paused ∨ s.ctl.engine = .ended) (accepts : s.acceptsEdge t .blank) :
    exec (.blank t) s = .next (s.edgeTaken t .blank).takeBlank := by
  refine congrArg Host.Outcome.next ((State.risingEdge_accepted _ accepts).trans ?_)
  have same : (s.edgeTaken t .blank).ctl.engine = s.ctl.engine := rfl
  unfold State.routeBlank
  rcases engine with engine | engine | engine | engine
  all_goals rw [same, engine]

theorem execBlank_refused (t : Time) (s : State) (engine : s.ctl.engine = .idle ∨ s.ctl.engine = .loading ∨
    s.ctl.engine = .loaded ∨ s.ctl.engine = .armed) (accepts : s.acceptsEdge t .blank) :
    ∃ u, exec (.blank t) s = .next u ∧ s.pressIgnored u t .blank 1 := by
  refine ⟨_, congrArg Host.Outcome.next ((State.risingEdge_accepted _ accepts).trans ?_),
    s.edgeTaken_ignored t .blank .engineState⟩
  have same : (s.edgeTaken t .blank).ctl.engine = s.ctl.engine := rfl
  unfold State.routeBlank
  rcases engine with engine | engine | engine | engine
  all_goals rw [same, engine]

section Press

variable {s : State} (t : Time)

/-- The flags after the edge has been accepted. -/
def State.blankFlagged (t : Time) (s : State) : State := (s.edgeTaken t .blank).pressBlank

theorem State.blankFlagged_screen (i : Screen16) : (s.blankFlagged t).screen i =
    if s.takesBlank i = true then (s.screen i).pressed else s.screen i :=
  (s.edgeTaken t .blank).pressBlank_screen i

theorem State.blankFlagged_frame : ∃ xs, s.blankFlagged t =
    { s.edgeTaken t .blank with arb := { s.arb with screens := xs } } := (s.edgeTaken t .blank).pressBlank_frame

theorem State.blankFlagged_alike (i : Screen16) : State.Alike i s (s.blankFlagged t) :=
  (s.edgeTaken_alike t .blank i).trans ((s.edgeTaken t .blank).pressBlank_alike i)

/-- With a flag held the screens that hold one are evaluated. -/
theorem State.takeBlank_held {i : Screen16} (held : ((s.blankFlagged t).screen i).blankPending = true) :
    (s.edgeTaken t .blank).takeBlank = (s.blankFlagged t).blankEach := by
  rw [State.takeBlank_eq]
  exact if_pos (State.blankHeld_iff.mpr ⟨i, held⟩)

theorem State.blankEach_blocks : (s.blankFlagged t).blankEach.trk = s.trk ∧ (s.blankFlagged t).blankEach.wlk = s.wlk ∧
    (s.blankFlagged t).blankEach.sch = s.sch ∧ (s.blankFlagged t).blankEach.du = s.du ∧
    (s.blankFlagged t).blankEach.ctl = s.ctl ∧ (s.blankFlagged t).blankEach.smi = (s.edgeTaken t .blank).smi := by
  obtain ⟨⟨trk, wlk, sch, du, -⟩, ctl, -⟩ := (s.blankFlagged t).blankEach_onlyScreens
  have smi := (s.blankFlagged t).blankEach_smi
  obtain ⟨xs, frame⟩ := State.blankFlagged_frame (s := s) t
  generalize (s.blankFlagged t).blankEach = u at *
  rw [frame] at trk wlk sch du ctl smi
  exact ⟨trk, wlk, sch, du, ctl, smi⟩

/-- A screen that a desk BLANK reaches is evaluated once, with its flag set. -/
theorem State.blankEach_reaches {i : Screen16} (plain : s.isMonitor i = false) (takes : s.takesPress i) :
    (s.edgeTaken t .blank).takeBlank = (s.blankFlagged t).blankEach ∧ ∃ y, State.Alike i s y ∧
      y.screen i = (s.screen i).pressed ∧ y.link i = s.link i ∧
      State.Untouched i (y.evaluate i) (s.blankFlagged t).blankEach := by
  have alike := State.blankFlagged_alike (s := s) t i
  have screen : (s.blankFlagged t).screen i = (s.screen i).pressed := by
    rw [State.blankFlagged_screen, if_pos (State.takesBlank_iff.mpr takes)]
  have link : (s.blankFlagged t).link i = s.link i := by
    obtain ⟨xs, frame⟩ := State.blankFlagged_frame (s := s) t
    rw [frame]
    rfl
  obtain ⟨y, first, last⟩ := State.blankEach_around ((State.isMonitor_alike alike i).trans plain)
  have reached : y.screen i = (s.screen i).pressed := first.screen.trans screen
  have step : y.blankAt i = y.evaluate i := if_pos (by rw [reached]; rfl)
  rw [step] at last
  exact ⟨State.takeBlank_held t (i := i) (by rw [screen]; rfl), y, alike.trans first.alike, reached,
    first.link.trans link, last⟩

/-- On a BUSY link the flag is held, and the title stays. -/
theorem State.blankEach_busy {i : Screen16} (plain : s.isMonitor i = false) (busy : (s.link i).state = .busy) {l : Level}
    {e : Entry} (top : (s.screen i).visibleTop = some (l, e)) (title : l ≠ 0) :
    ((s.blankFlagged t).blankEach.screen i).blankPending = true ∧
      (e.endTime = none → (s.screen i).pendingAt[l] = none →
        ((s.blankFlagged t).blankEach.screen i).stack[l].map (·.serial) = some e.serial) ∧
      (s.blankFlagged t).blankEach.link i = s.link i := by
  obtain ⟨-, y, alike, screen, link, last⟩ := State.blankEach_reaches t plain ⟨.inr busy, l, e, top, title⟩
  have here : y.isMonitor i = false := (State.isMonitor_alike alike i).trans plain
  have dark : (y.panel i).ready y i = false := State.panel_unready (by
    rw [link, busy]
    exact fun h => LinkState.noConfusion h)
  have evaluated := State.evaluate_eq here
  obtain ⟨message, pressed, -⟩ := Panel.evaluated_dark dark
  have final : (s.blankFlagged t).blankEach.screen i = ((y.panel i).evaluated y i).screen := by
    rw [last.screen, evaluated, State.realized_screen here]
  have start : (y.panel i).screen = (s.screen i).pressed := screen
  refine ⟨?_, fun endless idle => ?_, ?_⟩
  · rw [final, pressed, start]
    rfl
  · rw [final]
    have stays : ((y.panel i).evaluated y i).screen.contentAt l = some e.content := by
      refine Panel.evaluated_contentAt ?_ (fun T ends => absurd (endless.symm.trans ends) nofun) ?_ (.inr dark)
      · rw [start]
        exact (Screen.visibleTop_some top).1
      · rw [start]
        exact idle
    obtain ⟨x, entry, serial, -⟩ := Screen.contentAt_some stays
    rw [entry]
    exact congrArg some serial
  · rw [last.link, evaluated, State.realized_link here, message]
    exact link

/-- On a READY link the press is carried out. -/
theorem State.blankEach_ready {i : Screen16} (plain : s.isMonitor i = false) (ready : (s.link i).state = .ready) {l : Level}
    {e : Entry} (top : (s.screen i).visibleTop = some (l, e)) (title : l ≠ 0) :
    s.blankCarriedOut (s.blankFlagged t).blankEach i := by
  obtain ⟨-, y, alike, screen, link, last⟩ := State.blankEach_reaches t plain ⟨.inl ready, l, e, top, title⟩
  refine State.Pressed.carriedOut (b := y) ⟨alike, plain, ?_, by rw [link]; exact ready, last,
    fun bare => absurd (bare l e top) title⟩
  rw [screen]
  exact Screen.Recounted.refl _

/-- A screen that another's press does not reach stays as it is. -/
theorem State.blankEach_passes {i j : Screen16} (plain : s.isMonitor i = false) (reaches : s.takesPress j)
    (misses : ¬s.takesPress i) (clear : (s.screen i).blankPending = false) :
    (s.edgeTaken t .blank).takeBlank = (s.blankFlagged t).blankEach ∧
      (s.blankFlagged t).blankEach.screen i = s.screen i ∧ (s.blankFlagged t).blankEach.link i = s.link i := by
  have alike := State.blankFlagged_alike (s := s) t i
  have screen : (s.blankFlagged t).screen i = s.screen i := by
    rw [State.blankFlagged_screen, if_neg fun takes => misses (State.takesBlank_iff.mp takes)]
  have link : (s.blankFlagged t).link i = s.link i := by
    obtain ⟨xs, frame⟩ := State.blankFlagged_frame (s := s) t
    rw [frame]
    rfl
  obtain ⟨y, first, last⟩ := State.blankEach_around ((State.isMonitor_alike alike i).trans plain)
  have stands : y.blankAt i = y := if_neg (by rw [first.screen, screen, clear]; exact Bool.false_ne_true)
  rw [stands] at last
  refine ⟨State.takeBlank_held t (i := j) ?_, last.screen.trans (first.screen.trans screen),
    last.link.trans (first.link.trans link)⟩
  rw [State.blankFlagged_screen, if_pos (State.takesBlank_iff.mpr reaches)]
  rfl

/-- A press that finds nothing to take down is ignored. -/
theorem State.takeBlank_ignored (nothing : ∀ i, ¬s.takesPress i ∧ (s.screen i).blankPending = false) :
    (s.edgeTaken t .blank).takeBlank = (s.edgeTaken t .blank).ignoreDesk .blank .nothingShown := by
  have untaken (i : Screen16) : s.takesBlank i = false := by
    rw [← Bool.not_eq_true, State.takesBlank_iff]
    exact (nothing i).1
  have screens (i : Screen16) : (s.blankFlagged t).screen i = s.screen i := by
    rw [State.blankFlagged_screen, untaken]
    exact if_neg Bool.false_ne_true
  have flagged : s.blankFlagged t = s.edgeTaken t .blank := by
    obtain ⟨xs, frame⟩ := State.blankFlagged_frame (s := s) t
    have same : xs = s.arb.screens := Vector.ext fun k hk => by
      have at_k := screens ⟨k, hk⟩
      rw [frame] at at_k
      exact at_k
    rw [frame, same]
    rfl
  have unheld : ¬(s.blankFlagged t).blankHeld = true := by
    rw [State.blankHeld_iff]
    rintro ⟨i, held⟩
    rw [screens, (nothing i).2] at held
    cases held
  rw [State.takeBlank_eq]
  refine (if_neg unheld).trans ?_
  rw [show (s.edgeTaken t .blank).pressBlank = s.edgeTaken t .blank from flagged]

end Press

/-- Settles O49: a BLANK held, carried out, passing a screen by, and ignored. -/
theorem blankPressed : Obligations.BlankPressed := by
  refine ⟨fun t s engine accepts => ?_, execBlank_refused⟩
  have he := execBlank_takes engine accepts
  obtain ⟨trk, wlk, sch, du, ctl, smi⟩ := State.blankEach_blocks (s := s) t
  refine ⟨fun i l e plain top title => ⟨fun busy => ?_, fun ready => ?_⟩, fun i j plain reaches misses clear => ?_,
    fun nothing => ?_⟩
  · obtain ⟨flag, stays, link⟩ := State.blankEach_busy t plain busy top title
    rw [(State.blankEach_reaches t plain ⟨.inr busy, l, e, top, title⟩).1] at he
    exact ⟨_, he, flag, stays, link, trk, wlk, sch, du, ctl⟩
  · rw [(State.blankEach_reaches t plain ⟨.inl ready, l, e, top, title⟩).1] at he
    exact ⟨_, he, State.blankEach_ready t plain ready top title, trk, wlk, sch, du, ctl, smi⟩
  · obtain ⟨taken, screen, link⟩ := State.blankEach_passes t plain reaches misses clear
    rw [taken] at he
    exact ⟨_, he, screen, link⟩
  · rw [State.takeBlank_ignored t nothing] at he
    exact ⟨_, he, s.edgeTaken_ignored t .blank .nothingShown⟩

end Sys2Proof.Machine
end

section
/-! SET MIRROR (R133 to R135): a pair ended, a pair set, and the copy that it begins with. -/

namespace Sys2Proof.Machine

/-! ### A pair ended (R135) -/

/-- Without the mirror pair and its hold. -/
def State.unpaired (s : State) : State := { s with arb := { s.arb with mirror := none, hold := none } }

theorem State.unpaired_plain (s : State) (i : Screen16) : s.unpaired.isMonitor i = false := rfl

theorem State.endMirror_none {s : State} (none : s.arb.mirror = none) : s.endMirror = s := by
  unfold State.endMirror
  rw [none]

section Ends

variable {s : State} {a b : Screen16} (pair : s.arb.mirror = some (a, b))
include pair

theorem State.endMirror_ready (ready : (s.link b).state = .ready) : s.endMirror = s.unpaired.sendClear b .cut := by
  unfold State.endMirror
  rw [pair]
  dsimp only
  split
  · rfl
  · next busy => exact LinkState.noConfusion (ready.symm.trans busy)
  · next unready _ => exact absurd ready unready

theorem State.endMirror_busy (busy : (s.link b).state = .busy) : s.endMirror =
    s.unpaired.setScreen b { s.screen b with onScreen := .unknown, clearOwed := true } := by
  unfold State.endMirror
  rw [pair]
  dsimp only
  split
  · next ready => exact LinkState.noConfusion (ready.symm.trans busy)
  · rfl
  · next _ idle => exact absurd busy idle

theorem State.endMirror_dark (unready : (s.link b).state ≠ .ready) (idle : (s.link b).state ≠ .busy) : s.endMirror =
    s.unpaired.setScreen b { s.screen b with onScreen := .unknown } := by
  unfold State.endMirror
  rw [pair]
  dsimp only
  split
  · next ready => exact absurd ready unready
  · next busy => exact absurd busy idle
  · rfl

/-- The CLEAR that a READY monitor is sent as its pair ends. -/
theorem State.endMirror_clears (ready : (s.link b).state = .ready) : ∃ m : Message, m.isClear .cut ∧
    s.messageSent s.endMirror b m ∧ (s.endMirror.screen b).onScreen = .blank ∧
    s.endMirror.arb.mirror = none ∧ s.endMirror.arb.hold = none ∧
    ∀ j, j ≠ b → s.endMirror.screen j = s.screen j ∧ s.endMirror.link j = s.link j := by
  have plain : s.unpaired.isMonitor b = false := rfl
  have sent : s.endMirror = s.unpaired.realized b ((s.unpaired.panel b).cleared .cut) := by
    rw [State.endMirror_ready pair ready, ← State.realized_sendClear plain _ .cut rfl, State.realized_panel]
  have others := State.realized_othersStand (s := s.unpaired) (i := b) ((s.unpaired.panel b).cleared .cut)
  have left := State.realized_sent plain (Panel.cleared_message (override := .cut) (p := s.unpaired.panel b))
    (by rw [Panel.cleared_screen]; rfl) (by rw [Panel.cleared_screen]; rfl)
  have hold : s.endMirror.arb.hold = none := by
    rw [sent]
    rfl
  have mirror : s.endMirror.arb.mirror = none := by
    rw [sent, State.realized_mirror]
    rfl
  rw [← sent] at others left
  exact ⟨clearMessage .cut, ⟨rfl, rfl, rfl⟩, left.message, left.record, mirror, hold,
    fun j apart => others j apart nofun⟩

end Ends

theorem State.endMirror_pairless (s : State) : s.endMirror.arb.mirror = none ∧ s.endMirror.smi = s.smi ∧
    (s.arb.mirror ≠ none → s.endMirror.arb.hold = none) := by
  cases pair : s.arb.mirror with
  | none =>
    rw [State.endMirror_none pair]
    exact ⟨pair, rfl, fun h => absurd rfl h⟩
  | some p =>
    obtain ⟨a, b⟩ := p
    by_cases ready : (s.link b).state = .ready
    · rw [State.endMirror_ready pair ready]
      exact ⟨rfl, rfl, fun _ => rfl⟩
    · by_cases busy : (s.link b).state = .busy
      · rw [State.endMirror_busy pair busy]
        exact ⟨rfl, rfl, fun _ => rfl⟩
      · rw [State.endMirror_dark pair ready busy]
        exact ⟨rfl, rfl, fun _ => rfl⟩

/-! ### A pair set (R133) -/

/-- The new pair, its monitor emptied, before the copy leaves. -/
def State.paired (a b : Screen16) (s : State) : State :=
  { s.setScreen b ((s.screen b).emptied.retime s.clock) with
    arb := { (s.setScreen b ((s.screen b).emptied.retime s.clock)).arb with mirror := some (a, b) } }

theorem State.setMirrorPair_eq {a b : Screen16} (apart : a ≠ b) (s : State) : s.setMirrorPair a b =
    (s.endMirror.paired a b).sendCopy b (sourceCopy (s.endMirror.screen a)) := by
  unfold State.setMirrorPair State.retimeScreen
  dsimp only
  rw [State.setScreen_screen_self, State.setScreen_setScreen, State.setScreen_screen_ne _ _ (Ne.symm apart)]
  rfl

theorem State.paired_screen (a b : Screen16) (s : State) :
    (s.paired a b).screen b = (s.screen b).emptied.retime s.clock := State.setScreen_screen_self _ _ _

/-- What a copy does not change of a pair just set. -/
theorem State.sendCopy_paired (a b : Screen16) (m : Message) (s : State) :
    ((s.paired a b).sendCopy b m).arb.mirror = some (a, b) ∧ ((s.paired a b).sendCopy b m).smi = s.smi ∧
      (((s.paired a b).sendCopy b m).screen b).stack = Vector.replicate 8 none ∧
      (((s.paired a b).sendCopy b m).screen b).pendingAt = Vector.replicate 8 none ∧
      (((s.paired a b).sendCopy b m).screen b).blankPending = false ∧
      (((s.paired a b).sendCopy b m).screen b).clearOwed = false := by
  have start := s.paired_screen a b
  unfold State.sendCopy
  split
  · refine ⟨rfl, rfl, ?_⟩
    unfold State.deliver
    have screen : (((s.paired a b).setScreen b (((s.paired a b).screen b).sentMessage m)).linkSend b m).screen b =
        ((s.paired a b).screen b).sentMessage m := State.setScreen_screen_self _ _ _
    rw [screen, Screen.sentMessage_frame, start]
    exact ⟨rfl, rfl, rfl, rfl⟩
  · refine ⟨rfl, rfl, ?_⟩
    show ((s.paired a b).screen b).stack = _ ∧ ((s.paired a b).screen b).pendingAt = _ ∧
      ((s.paired a b).screen b).blankPending = _ ∧ ((s.paired a b).screen b).clearOwed = _
    rw [start]
    exact ⟨rfl, rfl, rfl, rfl⟩

/-! ### The directive -/

theorem readMirror_pair {words : List Nat} {a b : Screen16} (source : word words 0 = a.val) (monitor : word words 1 = b.val)
    (apart : a ≠ b) : readMirror words = some (some (a, b)) := by
  have short : b.val ≠ 255 := by have := b.isLt; omega
  unfold readMirror
  rw [source, monitor, if_neg short, readScreen_eq, readScreen_eq]
  exact if_neg apart

/-- SET MIRROR with two screens leaves what the pair set leaves. -/
theorem execSetMirror_pair {t : Time} {s : State} {slot : Slot} {words : List Nat} {a b : Screen16}
    (taken : s.taken slot 12 words) (loaded : s.ctl.engine ≠ .loading) (source : word words 0 = a.val)
    (monitor : word words 1 = b.val) (apart : a ≠ b) : ∃ u, exec (.setMirror t) s = .next u ∧ s.handedBack u slot .ok [] ∧
    u.finished slot ∧ s.sameShow u ∧ u.ctl = { s.ctl with progress := none } ∧
      u.arb = (((s.begin t).taking slot 12 words).setMirrorPair a b).arb ∧
      u.links = (((s.begin t).taking slot 12 words).setMirrorPair a b).links ∧
      u.sent = (((s.begin t).taking slot 12 words).setMirrorPair a b).sent := by
  have smi : (((s.begin t).taking slot 12 words).setMirrorPair a b).smi = ((s.begin t).taking slot 12 words).smi := by
    rw [State.setMirrorPair_eq apart, (State.sendCopy_paired a b _ _).2.1, (State.endMirror_pairless _).2.1]
  obtain ⟨handed, finished, sameShow, ctl, arb, links, sent⟩ := State.screenDirective t taken
    (allowedIn_unlessLoading (kind := 12) (by decide) (by decide) loaded) (read := fun ws _ => readMirror ws)
    State.setMirrorTo (readMirror_pair source monitor apart) rfl
    ((Screens.only _).setMirrorPair a b _ (State.onlyScreens_refl _)) fun f busy => by
      rw [smi]
      exact busy
  exact ⟨_, rfl, handed, finished, sameShow, ctl, arb, links, sent⟩

/-- SET MIRROR OFF leaves what the end of the pair leaves. -/
theorem execSetMirror_off {t : Time} {s : State} {slot : Slot} {words : List Nat} (taken : s.taken slot 12 words)
    (loaded : s.ctl.engine ≠ .loading) (off : word words 1 = 255) : ∃ u, exec (.setMirror t) s = .next u ∧
    s.handedBack u slot .ok [] ∧ u.finished slot ∧ s.sameShow u ∧ u.ctl = { s.ctl with progress := none } ∧
      u.clock = max s.clock t ∧ u.arb = ((s.begin t).taking slot 12 words).endMirror.arb ∧
      u.links = ((s.begin t).taking slot 12 words).endMirror.links ∧
      u.sent = ((s.begin t).taking slot 12 words).endMirror.sent := by
  have reads : readMirror words = some none := if_pos off
  have busy (f : InFlight) (h : s.smi.port.inFlight = some f) :
      ((s.begin t).taking slot 12 words).endMirror.smi.port.inFlight = some f := by
    rw [(State.endMirror_pairless _).2.1]
    exact h
  have allowed := allowedIn_unlessLoading (kind := 12) (by decide) (by decide) loaded
  obtain ⟨handed, finished, sameShow, ctl, arb, links, sent⟩ := State.screenDirective t taken allowed
    (read := fun ws _ => readMirror ws) State.setMirrorTo reads rfl
    ((Screens.only _).endMirror _ (State.onlyScreens_refl _)) busy
  obtain ⟨clock, -⟩ := State.screenDirective_rest t taken allowed (read := fun ws _ => readMirror ws) State.setMirrorTo
    reads rfl ((Screens.only _).endMirror _ (State.onlyScreens_refl _)) busy
  exact ⟨_, rfl, handed, finished, sameShow, ctl, clock, arb, links, sent⟩

/-- A message sent, seen in a state with the same links, frames and clock. -/
theorem State.messageSent_view {s u v : State} {i : Screen16} {m : Message} (links : u.links = v.links)
    (sent : u.sent = v.sent) (clock : u.clock = v.clock) (h : s.messageSent v i m) : s.messageSent u i m :=
  State.messageSent_later h (by unfold State.link; rw [links]) clock fun p there => by rw [sent]; exact there

/-- The copy that a new pair begins with (R133, R134). -/
theorem State.sendCopy_begins {a b : Screen16} {m : Message} {s : State} (cut : m.override = .cut) (unsent : s.sent = []) :
    (∀ j, j ≠ b → ((s.paired a b).sendCopy b m).screen j = s.screen j ∧ ((s.paired a b).sendCopy b m).link j = s.link j) ∧
      ((s.link b).state = .ready → (((s.paired a b).sendCopy b m).link b).state = .busy ∧
        (((s.paired a b).sendCopy b m).link b).tag = (s.link b).tag + 1 ∧
        ((s.paired a b).sendCopy b m).sent =
          [(b, messageFrame m ((s.link b).tag + 1) .cut (capacityOf (s.link b).caps))]) ∧
      ((s.link b).state ≠ .ready → ((s.paired a b).sendCopy b m).link b = s.link b ∧
        ((s.paired a b).sendCopy b m).sent = [] ∧ ((s.paired a b).sendCopy b m).arb.hold = some m) := by
  refine ⟨fun j apart => ⟨?_, ?_⟩, fun ready => ?_, fun dark => ?_⟩
  · rw [State.sendCopy_screen_ne (Ne.symm apart)]
    exact State.setScreen_screen_ne _ _ (Ne.symm apart)
  · rw [State.sendCopy_link_ne (Ne.symm apart)]
    rfl
  · rw [State.sendCopy_ready (s := s.paired a b) m ready, State.linkSend_link_self, State.linkSend_sent]
    refine ⟨rfl, rfl, ?_⟩
    unfold State.nextFrame
    rw [State.resolved_cut b cut]
    show s.sent ++ _ = _
    rw [unsent]
    rfl
  · rw [State.sendCopy_held (s := s.paired a b) m dark]
    exact ⟨rfl, unsent, rfl⟩

/-- Settles O30: a pair set with its copy, and a pair ended. -/
theorem setMirrorCarriedOut : Obligations.SetMirrorCarriedOut := by
  refine ⟨fun t s slot words a b taken loaded source monitor apart => ?_, fun t s slot words taken loaded off => ?_⟩
  · obtain ⟨u, he, handed, finished, sameShow, ctl, arb, links, sent⟩ :=
      execSetMirror_pair (t := t) taken loaded source monitor apart
    rw [State.setMirrorPair_eq apart] at arb links sent
    obtain ⟨mirror, -, stack, pending, blank, owed⟩ := State.sendCopy_paired a b
      (sourceCopy (((s.begin t).taking slot 12 words).endMirror.screen a)) ((s.begin t).taking slot 12 words).endMirror
    have screen (j : Screen16) : u.screen j = ((((s.begin t).taking slot 12 words).endMirror.paired a b).sendCopy b
        (sourceCopy (((s.begin t).taking slot 12 words).endMirror.screen a))).screen j := by
      unfold State.screen
      rw [arb]
      rfl
    have link (j : Screen16) : u.link j = ((((s.begin t).taking slot 12 words).endMirror.paired a b).sendCopy b
        (sourceCopy (((s.begin t).taking slot 12 words).endMirror.screen a))).link j := by
      unfold State.link
      rw [links]
    refine ⟨u, he, handed, finished, sameShow, ctl, by rw [arb, mirror], fun l => ?_, fun pairless => ?_⟩
    · rw [screen, stack, pending]
      simp
    · rw [screen, arb, sent]
      refine ⟨blank, owed, ?_⟩
      simp only [screen, link, State.linkStands, sent]
      rw [State.endMirror_none (s := (s.begin t).taking slot 12 words) pairless]
      obtain ⟨others, leaves, held⟩ := State.sendCopy_begins (a := a) (b := b)
        (s := (s.begin t).taking slot 12 words) (sourceCopy_cut (s.screen a)) rfl
      exact ⟨others, sourceCopy (s.screen a), sourceCopy_isDisplayOf _, leaves, fun dark => by
        obtain ⟨stands, silent, hold⟩ := held dark
        exact ⟨⟨stands, silent⟩, hold⟩⟩
  · obtain ⟨u, he, handed, finished, sameShow, ctl, clock, arb, links, sent⟩ := execSetMirror_off (t := t) taken loaded off
    obtain ⟨mirror, -, hold⟩ := State.endMirror_pairless ((s.begin t).taking slot 12 words)
    have screen (j : Screen16) : u.screen j = ((s.begin t).taking slot 12 words).endMirror.screen j := by
      unfold State.screen
      rw [arb]
    have link (j : Screen16) : u.link j = ((s.begin t).taking slot 12 words).endMirror.link j := by
      unfold State.link
      rw [links]
    refine ⟨u, he, handed, finished, sameShow, ctl, by rw [arb, mirror], fun paired => by rw [arb, hold paired],
      fun pairless => ?_, fun a b pair => ?_⟩
    · rw [arb, links, State.endMirror_none (s := (s.begin t).taking slot 12 words) pairless]
      exact ⟨rfl, rfl⟩
    · have clock' : u.clock = ((s.begin t).taking slot 12 words).endMirror.clock := by
        obtain ⟨-, -, same, -⟩ := (Screens.only ((s.begin t).taking slot 12 words)).endMirror _ (State.onlyScreens_refl _)
        exact clock.trans same.symm
      simp only [screen, link, State.linkStands, State.clearSent, sent]
      have begun : ((s.begin t).taking slot 12 words).arb.mirror = some (a, b) := pair
      by_cases ready : (s.link b).state = .ready
      · obtain ⟨m, clears, message, record, -, -, others⟩ := State.endMirror_clears begun ready
        have line : s.sameLine ((s.begin t).taking slot 12 words) b := ⟨rfl, rfl, rfl⟩
        have message' := (State.messageSent_congr line m).mp message
        refine ⟨others, fun _ => ⟨⟨record, m, clears, State.messageSent_view links sent clock' message'⟩, ?_⟩,
          fun busy => LinkState.noConfusion (ready.symm.trans busy), fun unready => absurd ready unready⟩
        obtain ⟨-, -, -, op, -⟩ := message'
        rw [op, State.resolved_cut b clears.2.1]
        rfl
      · by_cases busy : (s.link b).state = .busy
        · rw [State.endMirror_busy begun busy, State.setScreen_screen_self]
          exact ⟨fun j apart => ⟨State.setScreen_screen_ne _ _ (Ne.symm apart), rfl⟩, fun h => absurd h ready,
            fun _ => ⟨⟨rfl, rfl⟩, rfl, rfl⟩, fun _ idle => absurd busy idle⟩
        · rw [State.endMirror_dark begun ready busy, State.setScreen_screen_self]
          exact ⟨fun j apart => ⟨State.setScreen_screen_ne _ _ (Ne.symm apart), rfl⟩, fun h => absurd h ready,
            fun h => absurd h busy, fun _ _ => ⟨⟨rfl, rfl⟩, rfl, rfl⟩⟩

end Sys2Proof.Machine
end

section
/-! SET MASK: the visible top settled after step 3, and the refresh that follows (R115, R123, R126). -/

namespace Sys2Proof.Machine

/-! ### Masked entries and entries beneath the visible top -/

/-- The visible top is decided by the unmasked levels. -/
theorem Screen.visibleTop_unmasked {x y : Screen} (mask : y.mask = x.mask)
    (stack : ∀ l : Level, x.masked l = false → y.stack[l] = x.stack[l]) : y.visibleTop = x.visibleTop := by
  unfold Screen.visibleTop
  refine congrArg (fun f => allLevels.findSome? f) (funext fun l => ?_)
  rw [Screen.masked_congr mask l]
  cases masked : x.masked l with
  | true => rfl
  | false => rw [stack l masked]

theorem Screen.hideMasked_stack {x : Screen} {l : Level} (unmasked : x.masked l = false) :
    x.hideMasked.stack[l] = x.stack[l] := by
  simp [Screen.hideMasked, unmasked]

theorem Screen.hideMasked_visibleTop (x : Screen) : x.hideMasked.visibleTop = x.visibleTop :=
  Screen.visibleTop_unmasked rfl fun _ unmasked => Screen.hideMasked_stack unmasked

/-- What an entry of the hidden stack was before. -/
theorem Screen.hideMasked_entry {x : Screen} {l : Level} {y : Entry} (entry : x.hideMasked.stack[l] = some y) :
    ∃ e, x.stack[l] = some e ∧ y.endTime = e.endTime := by
  cases masked : x.masked l with
  | false => exact ⟨y, (Screen.hideMasked_stack masked).symm.trans entry, rfl⟩
  | true =>
    have : x.stack[l].map (fun e => { e with visibleSince := none }) = some y := by
      simpa [Screen.hideMasked, masked] using entry
    obtain ⟨e, here, rfl⟩ := Option.map_eq_some_iff.1 this
    exact ⟨e, here, rfl⟩

/-- No entry but the visible top has a visible-since (R115, R118). -/
def Screen.Settled (x : Screen) : Prop :=
  ∀ (l : Level) (y : Entry) (v : Time), x.stack[l] = some y → y.visibleSince = some v → x.visibleTop = some (l, y)

theorem Screen.settleVisible_top {x : Screen} {l : Level} {e : Entry} (top : x.visibleTop = some (l, e)) :
    x.settleVisible.stack[l] = x.stack[l] := by
  simp [Screen.settleVisible, top]

theorem Screen.settleVisible_beneath {x : Screen} {l : Level} (beneath : ∀ e, x.visibleTop ≠ some (l, e)) :
    x.settleVisible.stack[l] = x.stack[l].map fun e => { e with visibleSince := none } := by
  have away : (x.visibleTop.any fun p => p.1 == l) = false := by
    rw [← Bool.not_eq_true, Option.any_eq_true]
    rintro ⟨⟨k, e⟩, top, same⟩
    obtain rfl : k = l := by simpa using same
    exact beneath e top
  simp [Screen.settleVisible, away]

theorem Screen.settleVisible_none {x : Screen} {l : Level} (empty : x.stack[l] = none) :
    x.settleVisible.stack[l] = none := by
  have empty' : x.stack[l.val] = none := empty
  simp [Screen.settleVisible, empty']

theorem Screen.settleVisible_visibleTop (x : Screen) : x.settleVisible.visibleTop = x.visibleTop := by
  cases top : x.visibleTop with
  | none =>
    refine Screen.visibleTop_none.2 fun l unmasked => Screen.settleVisible_none ?_
    exact Screen.visibleTop_none.1 top l unmasked
  | some q =>
    obtain ⟨l, e⟩ := q
    obtain ⟨entry, unmasked, least⟩ := Screen.visibleTop_iff.1 top
    exact Screen.visibleTop_iff.2 ⟨(Screen.settleVisible_top top).trans entry, unmasked,
      fun k lower open' => Screen.settleVisible_none (least k lower open')⟩

theorem Screen.settleVisible_settled (x : Screen) : x.settleVisible.Settled := by
  intro l y v entry since
  by_cases shown : ∃ e, x.visibleTop = some (l, e)
  · obtain ⟨e, top⟩ := shown
    rw [Screen.settleVisible_top top, (Screen.visibleTop_some top).1] at entry
    cases entry
    rw [Screen.settleVisible_visibleTop, top]
  · rw [Screen.settleVisible_beneath fun e top => shown ⟨e, top⟩] at entry
    obtain ⟨e, -, rfl⟩ := Option.map_eq_some_iff.1 entry
    cases since

theorem Screen.Settled.congr {x y : Screen} (h : x.Settled) (mask : y.mask = x.mask) (stack : y.stack = x.stack) :
    y.Settled := by
  intro l e v entry since
  rw [Screen.visibleTop_congr mask stack]
  rw [stack] at entry
  exact h l e v entry since

/-- A SHOW of the visible top leaves a settled screen settled. -/
theorem Panel.shown_settled {s : State} {i : Screen16} {l : Level} {e : Entry} {o : TransOverride} {p : Panel}
    (settled : p.screen.Settled) (top : p.screen.visibleTop = some (l, e)) : (p.shown s i l e o).screen.Settled := by
  have over' := Panel.shown_over (s := s) (i := i) (l := l) (e := e) (override := o) (p := p)
    (Screen.retime_retimed (p.shown s i l e o).screen 0)
  obtain ⟨-, unmasked, least⟩ := Screen.visibleTop_iff.1 top
  have shown : ((p.shown s i l e o).screen.retime 0).visibleTop = some (l, e.onAir (p.dwellOf s i l e o) s.clock) := by
    refine Screen.visibleTop_iff.2 ⟨over'.entry, (Screen.masked_congr over'.mask l).trans unmasked,
      fun k lower open' => ?_⟩
    rw [over'.others k (ne_of_lt lower)]
    exact least k lower ((Screen.masked_congr over'.mask k).symm.trans open')
  have retimed : ((p.shown s i l e o).screen.retime 0).Settled := by
    intro k y v entry since
    by_cases same : k = l
    · subst same
      rw [over'.entry] at entry
      cases entry
      exact shown
    · rw [over'.others k same] at entry
      have := settled k y v entry since
      rw [top] at this
      cases this
      exact absurd rfl same
  exact Screen.Settled.congr retimed rfl rfl

theorem Panel.refreshed_settled {s : State} {i : Screen16} {o : TransOverride} {p : Panel}
    (settled : p.screen.Settled) : (p.refreshed s i o).screen.Settled := by
  unfold Panel.refreshed
  split
  · split
    · next l e top =>
      split
      · exact settled
      · exact Panel.shown_settled settled top
    · split
      · exact settled
      · rw [Panel.cleared_screen]
        exact settled.congr rfl rfl
  · exact settled

/-! ### The end of the evaluation -/

section
variable {s b : State} {i : Screen16} (alike : State.Alike i s b) (plain : s.isMonitor i = false)
  (link : b.link i = s.link i) (unsent : b.sent = []) {p : Panel} (silent : p.message = none)
  (face : (s.screen i).sameFace p.screen)
include alike plain link unsent silent face

/-- The SHOW that ends an evaluation which has sent nothing yet. -/
theorem State.ended_shows (ready : (s.link i).state = .ready) (known : p.screen.onScreen ≠ .unknown) {l : Level}
    {e : Entry} (top : p.screen.visibleTop = some (l, e)) (differs : p.screen.onScreen ≠ .entry l e.serial) :
    ∃ d n, s.showSent (b.realized i (p.ended b i)) i l (e.onAir d n) ∧
      s.sentAndCopied (b.realized i (p.ended b i)) i (s.showOf i l (e.onAir d n)) := by
  have ready' : p.ready b i = true := by
    rw [Panel.ready_of_unsent silent]
    simpa [State.linkReady, link] using ready
  obtain ⟨showed, -⟩ := State.ended_show (override := .default) alike plain face ready' known top differs
    (Screen.retime_retimed _ b.clock)
  obtain ⟨d, sent, show'⟩ := showed.showSent
  refine ⟨d, _, sent, showed.sent.sentAndCopied ?_ show'⟩
  rw [← unsent]
  refine State.panel_framesLeft alike plain face ?_ ?_
  · rw [Panel.refreshed_show _ ready' known top differs]
    rfl
  · rw [Panel.refreshed_show _ ready' known top differs]
    show (Panel.shown b i l e e.override p).screen.preferred = _
    rw [Panel.shown_screen]

/-- The CLEAR that ends an evaluation which has sent nothing yet. -/
theorem State.ended_clears (ready : (s.link i).state = .ready) (known : p.screen.onScreen ≠ .unknown)
    (top : p.screen.visibleTop = none) (differs : p.screen.onScreen ≠ .blank) :
    s.clearSent (b.realized i (p.ended b i)) i .default ∧
      s.sentAndCopied (b.realized i (p.ended b i)) i (fun m => m.isClear .default) := by
  have ready' : p.ready b i = true := by
    rw [Panel.ready_of_unsent silent]
    simpa [State.linkReady, link] using ready
  obtain ⟨cleared, -⟩ := State.ended_clear (override := .default) alike plain face ready' known top differs
    (Screen.retime_retimed _ b.clock)
  refine ⟨cleared.clearSent, cleared.sent.sentAndCopied ?_ cleared.clears⟩
  rw [← unsent]
  refine State.panel_framesLeft alike plain face ?_ ?_
  · rw [Panel.refreshed_clear _ ready' known top differs]
    rfl
  · rw [Panel.refreshed_clear _ ready' known top differs]
    show (Panel.cleared .default p).screen.preferred = _
    rw [Panel.cleared_screen]

omit alike plain face in
/-- Nothing leaves at the end of an evaluation where the visible top stands. -/
theorem State.ended_stands
    (stands : (s.link i).state ≠ .ready ∨ p.screen.onScreen = .unknown ∨ p.screen.agrees) :
    s.linkStands (b.realized i (p.ended b i)) i ∧
      ((b.realized i (p.ended b i)).screen i).stack = p.screen.stack := by
  have same : p.refreshed b i .default = p := Panel.refreshed_stands .default (stands.imp_left fun dark => by
    rw [Panel.ready_of_unsent silent]
    simpa [State.linkReady, link] using dark)
  have ended : b.realized i (p.ended b i) = (b.setScreen i (p.screen.retime b.clock)).setSerial p.serial := by
    unfold Panel.ended
    rw [same]
    exact State.realized_silent (p := p.put (p.screen.retime b.clock)) silent
  rw [ended]
  refine ⟨⟨link, unsent⟩, ?_⟩
  show ((b.setScreen i (p.screen.retime b.clock)).screen i).stack = _
  rw [State.setScreen_screen_self]
  rfl

/-- The end of an evaluation that has sent nothing yet: the refresh of the visible top that step 3 leaves. -/
theorem State.ended_refreshed {x : Screen} (top : p.screen.visibleTop = x.visibleTop)
    (record : p.screen.onScreen = x.onScreen) : s.refreshed (b.realized i (p.ended b i)) i x := by
  have agrees : p.screen.agrees ↔ x.agrees := by
    unfold Screen.agrees
    rw [top, record]
  refine ⟨fun stands => ?_, fun ready known => ⟨fun l e shown differs => ?_, fun dark differs => ?_⟩⟩
  · rw [← record, ← agrees] at stands
    obtain ⟨silent', stack⟩ := State.ended_stands link unsent silent stands
    refine ⟨silent', fun l e shown => ?_⟩
    rw [stack]
    exact (Screen.visibleTop_some (top.trans shown)).1
  · rw [← record] at known differs
    obtain ⟨d, n, sent, copied⟩ := State.ended_shows alike plain link unsent silent face ready known (top.trans shown) differs
    exact ⟨_, sent, rfl, copied⟩
  · rw [← record] at known differs
    exact State.ended_clears alike plain link unsent silent face ready known (top.trans dark) differs

end

/-! ### SET MASK -/

/-- Screen `i` with its new mask, before its requests are judged. -/
def State.maskSet (i : Screen16) (m : BitVec 8) (s : State) : State :=
  s.setScreen i { s.screen i with mask := m &&& 0xFE#8 }.hideMasked

theorem State.setLevelMask_monitor {i : Screen16} {m : BitVec 8} {s : State} (monitor : s.isMonitor i = true) :
    s.setLevelMask i m = s.maskSet i m := if_pos monitor

/-- The panel that step 3 leaves, with its visible top settled. -/
def State.maskJudged (i : Screen16) (m : BitVec 8) (s : State) : Panel :=
  let p := ((s.maskSet i m).panel i).judged (s.maskSet i m) i
  p.put p.screen.settleVisible

theorem State.setLevelMask_plain {i : Screen16} {m : BitVec 8} {s : State} (plain : s.isMonitor i = false) :
    s.setLevelMask i m = (s.maskSet i m).realized i ((s.maskJudged i m).ended (s.maskSet i m) i) := by
  have here : (s.maskSet i m).isMonitor i = false := plain
  have unfolded : s.setLevelMask i m = ((((s.maskSet i m).judgeRequests i).setScreen i
      (((s.maskSet i m).judgeRequests i).screen i).settleVisible).endEvaluation i) := if_neg ((Bool.not_eq_true _).mpr here)
  have judged : (s.maskSet i m).judgeRequests i =
      (s.maskSet i m).realized i (((s.maskSet i m).panel i).judged (s.maskSet i m) i) := by
    conv_lhs => rw [← State.realized_panel (s := s.maskSet i m) (i := i)]
    exact State.realized_judgeRequests here _
  unfold State.maskJudged
  dsimp only
  rw [unfolded, judged]
  generalize ((s.maskSet i m).panel i).judged (s.maskSet i m) i = p
  rw [State.realized_screen here, State.realized_setScreen here (x := p.screen.settleVisible) _ rfl,
    State.realized_endEvaluation here]

/-- The mask is no matter of an evaluation. -/
theorem Screen.kept_mask (m : BitVec 8) : Screen.Kept fun y => y.mask = m where
  stack _ _ _ h := h
  pending _ _ _ h := h
  count _ _ _ _ _ h := h
  sent y m h := by rw [Screen.sentMessage_frame]; exact h
  staged y h := (Screen.applyStaged_mask y).trans h
  pressed _ h := h
  retimed _ _ h := h

section
variable {s z : State} {i : Screen16} {m : BitVec 8}

theorem State.maskSet_screen : (z.maskSet i m).screen i = { z.screen i with mask := m &&& 0xFE#8 }.hideMasked :=
  State.setScreen_screen_self _ _ _

theorem State.maskJudged_mask : (z.maskJudged i m).screen.mask = m &&& 0xFE#8 := by
  have kept := Screen.kept_mask (m &&& 0xFE#8)
  have start : ((z.maskSet i m).panel i).screen.mask = m &&& 0xFE#8 := congrArg Screen.mask State.maskSet_screen
  have judged := kept.judgedFrom (s := z.maskSet i m) (i := i) (p := (z.maskSet i m).panel i) (kept.opened start)
  unfold State.maskJudged Panel.put
  generalize ((z.maskSet i m).panel i).judged (z.maskSet i m) i = p at judged ⊢
  exact judged

theorem State.setLevelMask_mask : ((z.setLevelMask i m).screen i).mask = m &&& 0xFE#8 := by
  by_cases plain : z.isMonitor i = false
  · rw [State.setLevelMask_plain plain, State.realized_screen (s := z.maskSet i m) plain]
    exact (Screen.kept_mask (m &&& 0xFE#8)).refreshed State.maskJudged_mask
  · rw [State.setLevelMask_monitor (by simpa using plain), State.maskSet_screen]
    rfl

/-- Afterwards the visible top alone has a visible-since (R115, log entry 43). -/
theorem State.setLevelMask_settles (plain : z.isMonitor i = false) : ((z.setLevelMask i m).screen i).Settled := by
  rw [State.setLevelMask_plain plain, State.realized_screen (s := z.maskSet i m) plain]
  refine Screen.Settled.congr (Panel.refreshed_settled (s := z.maskSet i m) (i := i) (o := .default)
    (p := z.maskJudged i m) ?_) rfl rfl
  exact Screen.settleVisible_settled _

theorem State.setLevelMask_others (z : State) (i : Screen16) (m : BitVec 8) : z.othersStand (z.setLevelMask i m) i := by
  intro j apart copy
  have put : (z.maskSet i m).screen j = z.screen j := State.setScreen_screen_ne _ _ (Ne.symm apart)
  by_cases plain : z.isMonitor i = false
  · rw [State.setLevelMask_plain plain]
    obtain ⟨screen, link⟩ := State.realized_othersStand (s := z.maskSet i m) (i := i)
      ((z.maskJudged i m).ended (z.maskSet i m) i) j apart copy
    exact ⟨screen.trans put, link⟩
  · rw [State.setLevelMask_monitor (by simpa using plain)]
    exact ⟨put, rfl⟩

/-- The mask of another screen stands. -/
theorem State.setLevelMask_mask_ne {j : Screen16} (apart : j ≠ i) :
    ((z.setLevelMask i m).screen j).mask = (z.screen j).mask := by
  have put : (z.maskSet i m).screen j = z.screen j := State.setScreen_screen_ne _ _ (Ne.symm apart)
  by_cases plain : z.isMonitor i = false
  · rw [State.setLevelMask_plain plain]
    rcases State.realized_elsewhere (s := z.maskSet i m) (p := (z.maskJudged i m).ended (z.maskSet i m) i) plain apart
      with stands | ⟨sent, copy⟩
    · rw [stands, put]
    · rw [copy, Screen.sentMessage_frame, put]
  · rw [State.setLevelMask_monitor (by simpa using plain), put]

section
variable (ends : ∀ (l : Level) (y : Entry), (z.screen i).stack[l] = some y → y.endTime = none)
  (blank : (z.screen i).blankPending = false)
include ends blank

/-- With no notice end and no desk BLANK, steps 1 and 2 change nothing. -/
theorem State.maskSet_opened (requests : ∀ (l : Level) (r : Request), (z.screen i).pendingAt[l] = some r →
    r.endTime = none) : ((z.maskSet i m).panel i).opened (z.maskSet i m) i = (z.maskSet i m).panel i := by
  refine Panel.opened_stands ?_ (.inl ?_)
  · show ((z.maskSet i m).screen i).noneEnded z.clock
    rw [State.maskSet_screen]
    rintro l T (entry | request)
    · obtain ⟨y, here, ended⟩ := Option.bind_eq_some_iff.1 entry
      obtain ⟨e, there, same⟩ := Screen.hideMasked_entry here
      rw [same, ends l e there] at ended
      cases ended
    · obtain ⟨r, here, ended⟩ := Option.bind_eq_some_iff.1 request
      rw [requests l r here] at ended
      cases ended
  · show ((z.maskSet i m).screen i).blankPending = false
    rw [State.maskSet_screen]
    exact blank

/-- With nothing pending, step 3 changes nothing. -/
theorem State.maskJudged_quiet (quiet : ∀ l : Level, (z.screen i).pendingAt[l] = none) :
    z.maskJudged i m = ((z.maskSet i m).panel i).put ((z.maskSet i m).screen i).settleVisible := by
  have judged : ((z.maskSet i m).panel i).judged (z.maskSet i m) i = (z.maskSet i m).panel i := by
    unfold Panel.judged
    rw [State.maskSet_opened ends blank fun l r here => by rw [quiet l] at here; cases here]
    refine Panel.judgeEach_idle _ fun l _ r here => ?_
    have : ((z.maskSet i m).screen i).pendingAt[l] = some r := here
    rw [State.maskSet_screen] at this
    have empty : (z.screen i).pendingAt[l] = some r := this
    rw [quiet l] at empty
    cases empty
  unfold State.maskJudged
  dsimp only
  rw [judged]
  rfl

/-- One request alone, released and unmasked, over an entry that is not shown, is judged. -/
theorem State.maskJudged_only {p : Level} {r : Request} (pending : (z.screen i).pendingAt[p] = some r)
    (level : r.level = p) (released : r.release ≤ z.clock) (endless : r.endTime = none)
    (unmasked : ({ z.screen i with mask := m &&& 0xFE#8 } : Screen).masked p = false)
    (others : ∀ k : Level, k ≠ p → (z.screen i).pendingAt[k] = none) :
    z.maskJudged i m =
      let q := if r.kind = .blank then ((z.maskSet i m).panel i).judgeBlank (z.maskSet i m) i p r
        else ((z.maskSet i m).panel i).judgeShow (z.maskSet i m) i p r
      q.put q.screen.settleVisible := by
  have pending' : ((z.maskSet i m).panel i).screen.pendingAt[p] = some r := by
    show ((z.maskSet i m).screen i).pendingAt[p] = some r
    rw [State.maskSet_screen]
    exact pending
  have eligible : ((z.maskSet i m).panel i).screen.eligible (z.maskSet i m).clock r = true := by
    refine Screen.eligible_iff.2 ⟨released, ?_⟩
    show ((z.maskSet i m).screen i).masked r.level = false
    rw [State.maskSet_screen, level]
    exact unmasked
  have judged : ((z.maskSet i m).panel i).judged (z.maskSet i m) i = ((z.maskSet i m).panel i).judge (z.maskSet i m) i p := by
    unfold Panel.judged
    rw [State.maskSet_opened ends blank fun l q here => by
      by_cases same : l = p
      · subst same
        rw [pending] at here
        cases here
        exact endless
      · rw [others l same] at here
        cases here]
    refine Panel.judgeEach_only fun k apart => ?_
    show ((z.maskSet i m).screen i).pendingAt[k] = none
    rw [State.maskSet_screen]
    exact others k apart
  unfold State.maskJudged
  dsimp only
  rw [judged]
  unfold Panel.judge
  rw [pending']
  dsimp only
  rw [if_pos eligible]
  cases kind : r.kind <;> simp

end

end

section
variable {z : State} {i : Screen16} {m : BitVec 8} (plain : z.isMonitor i = false) {p : Panel}
  (judged : z.maskJudged i m = p.put p.screen.settleVisible)
include plain judged

/-- The refresh leaves the requests as step 3 has left them. -/
theorem State.setLevelMask_pendingAt : ((z.setLevelMask i m).screen i).pendingAt = p.screen.pendingAt := by
  rw [State.setLevelMask_plain plain, State.realized_screen (s := z.maskSet i m) plain, judged]
  exact Panel.refreshed_pendingAt (s := z.maskSet i m) (i := i) (o := .default) (p := p.put p.screen.settleVisible)

/-- A level that step 3 has left empty stays empty. -/
theorem State.setLevelMask_empty {l : Level} (empty : p.screen.stack[l] = none) :
    ((z.setLevelMask i m).screen i).stack[l] = none := by
  rw [State.setLevelMask_plain plain, State.realized_screen (s := z.maskSet i m) plain, judged]
  exact Panel.refreshed_empty (s := z.maskSet i m) (i := i) (o := .default) (p := p.put p.screen.settleVisible)
    (Screen.settleVisible_none empty)

end

section
variable {s : State} {i : Screen16} {l : Level} {r : Request} {y : Entry} {p : Panel}
  (entry : p.screen.stack[l] = some y) (hidden : y.visibleSince = none)
include entry hidden

/-- A BLANK takes away an entry that is not shown. -/
theorem Panel.judgeBlank_hidden :
    p.judgeBlank s i l r = p.put ((p.screen.setPending l none).setEntry l none) := by
  have unshown : p.screen.isShownTop l = false := by
    rw [← Bool.not_eq_true, Screen.isShownTop_iff]
    rintro ⟨e, v, top, since⟩
    rw [(Screen.visibleTop_some top).1] at entry
    cases entry
    rw [hidden] at since
    cases since
  unfold Panel.judgeBlank
  rw [entry]
  simp [unshown]

/-- A TITLE or NOTICE takes the place of an unmasked entry that is not shown. -/
theorem Panel.judgeShow_hidden (unmasked : p.screen.masked l = false) :
    p.judgeShow s i l r = p.insertSilently l r := by
  unfold Panel.judgeShow
  cases top : p.screen.visibleTop with
  | none =>
    rw [Screen.visibleTop_none.1 top l unmasked] at entry
    cases entry
  | some q =>
    obtain ⟨m, e⟩ := q
    have above : ¬l < m := fun lower => by
      rw [Screen.visibleTop_least top lower unmasked] at entry
      cases entry
    by_cases same : m = l
    · subst same
      rw [(Screen.visibleTop_some top).1] at entry
      cases entry
      simp [hidden]
    · have lower : m < l := lt_of_le_of_ne (not_lt.1 above) same
      simp [above, lower]

end

/-- An entry put in the place of the visible top is the visible top. -/
theorem Screen.visibleTop_replaced {x : Screen} {l : Level} {y e : Entry} (top : x.visibleTop = some (l, y)) :
    (x.setEntry l (some e)).visibleTop = some (l, e) := by
  obtain ⟨-, unmasked, least⟩ := Screen.visibleTop_iff.1 top
  refine Screen.visibleTop_iff.2 ⟨Screen.setEntry_stack_self _ _ _, unmasked, fun k lower open' => ?_⟩
  rw [Screen.setEntry_stack_ne x _ (ne_of_gt lower)]
  exact least k lower open'

section
variable {s z : State} {i : Screen16} {m : BitVec 8} (alike : State.Alike i s z) (plain : s.isMonitor i = false)
  (link : z.link i = s.link i) (unsent : z.sent = [])
include alike plain link unsent

/-- The panel that step 3 leaves, sent nothing yet, is refreshed. -/
theorem State.setLevelMask_refreshed {p : Panel} (judged : z.maskJudged i m = p.put p.screen.settleVisible)
    (silent : p.message = none) (face : (s.screen i).sameFace p.screen) {x : Screen}
    (top : p.screen.visibleTop = x.visibleTop) (record : p.screen.onScreen = x.onScreen) :
    s.refreshed (z.setLevelMask i m) i x := by
  have here : z.isMonitor i = false := (State.isMonitor_alike alike i).trans plain
  have put : State.Alike i s (z.maskSet i m) :=
    alike.trans (State.setScreen_plain_alike (s := z) (i := i) rfl)
  rw [State.setLevelMask_plain here, judged]
  exact State.ended_refreshed put plain (b := z.maskSet i m) link unsent (p := p.put p.screen.settleVisible) silent face
    ((Screen.settleVisible_visibleTop _).trans top) record

/-- An entry that step 3 has granted silently at the visible top stays so on a link that is not READY, and else the one
SHOW is its own. -/
theorem State.setLevelMask_grants {p : Panel} (judged : z.maskJudged i m = p.put p.screen.settleVisible)
    (silent : p.message = none) (face : (s.screen i).sameFace p.screen) {l : Level} {e : Entry}
    (top : p.screen.visibleTop = some (l, e)) :
    ((s.link i).state ≠ .ready → s.linkStands (z.setLevelMask i m) i ∧
      ((z.setLevelMask i m).screen i).stack[l] = some e) ∧
    ((s.link i).state = .ready → p.screen.onScreen ≠ .unknown → p.screen.onScreen ≠ .entry l e.serial →
      ∃ d n, s.showSent (z.setLevelMask i m) i l (e.onAir d n) ∧
        s.sentAndCopied (z.setLevelMask i m) i (s.showOf i l (e.onAir d n))) := by
  have here : z.isMonitor i = false := (State.isMonitor_alike alike i).trans plain
  have put : State.Alike i s (z.maskSet i m) :=
    alike.trans (State.setScreen_plain_alike (s := z) (i := i) rfl)
  have settled : (p.put p.screen.settleVisible).screen.visibleTop = some (l, e) :=
    (Screen.settleVisible_visibleTop _).trans top
  rw [State.setLevelMask_plain here, judged]
  refine ⟨fun dark => ?_, fun ready known differs => ?_⟩
  · obtain ⟨stands, stack⟩ := State.ended_stands (b := z.maskSet i m) link unsent
      (p := p.put p.screen.settleVisible) silent (.inl dark)
    refine ⟨stands, ?_⟩
    rw [stack]
    exact (Screen.visibleTop_some settled).1
  · exact State.ended_shows put plain (b := z.maskSet i m) link unsent (p := p.put p.screen.settleVisible) silent face
      ready known settled differs

variable (screen : z.screen i = s.screen i) (serial : z.arb.entrySerial = s.arb.entrySerial)
include screen serial

/-- The screen whose mask is replaced is settled and refreshed (R115, R126). -/
theorem State.setLevelMask_maskSettled (clock : (z.setLevelMask i m).clock = z.clock) :
    s.maskSettled (z.setLevelMask i m) i := by
  have here : z.isMonitor i = false := (State.isMonitor_alike alike i).trans plain
  have masked : ((z.maskSet i m).panel i).screen = ({ s.screen i with mask := m &&& 0xFE#8 } : Screen).hideMasked := by
    rw [← screen]
    exact State.maskSet_screen
  have face : (s.screen i).sameFace ((z.maskSet i m).panel i).screen := by
    rw [masked]
    exact ⟨rfl, rfl, rfl, rfl, rfl⟩
  have top : ((z.maskSet i m).panel i).screen.visibleTop =
      ({ s.screen i with mask := m &&& 0xFE#8 } : Screen).visibleTop := by
    rw [masked, Screen.hideMasked_visibleTop]
  have record : ((z.maskSet i m).panel i).screen.onScreen = (s.screen i).onScreen := by rw [masked]; rfl
  unfold State.maskSettled
  rw [State.setLevelMask_mask, clock]
  refine ⟨State.setLevelMask_settles here, fun blank ends => ?_⟩
  refine ⟨fun quiet => ?_, fun p r y pending level released endless unmasked others entry hidden => ?_⟩
  · rw [← screen] at quiet blank ends
    exact State.setLevelMask_refreshed alike plain link unsent (p := (z.maskSet i m).panel i)
      (State.maskJudged_quiet ends blank quiet) rfl face top record
  · have shown : ((z.maskSet i m).panel i).screen.stack[p] = some y := by
      rw [masked, Screen.hideMasked_stack unmasked]
      exact entry
    rw [← screen] at pending others unmasked blank ends
    have judged := State.maskJudged_only (m := m) ends blank pending level released endless unmasked others
    by_cases kind : r.kind = .blank
    · rw [if_pos kind, Panel.judgeBlank_hidden shown hidden] at judged
      have empty : ((((z.maskSet i m).panel i).screen.setPending p none).setEntry p none).stack[p] = none :=
        Screen.setEntry_stack_self _ _ _
      refine ⟨?_, fun _ => ⟨State.setLevelMask_empty here judged empty, ?_⟩, fun other => absurd kind other⟩
      · rw [State.setLevelMask_pendingAt here judged]
        exact Screen.setPending_pending_self _ _ _
      · refine State.setLevelMask_refreshed alike plain link unsent judged rfl face ?_ record
        refine Screen.visibleTop_unmasked (congrArg Screen.mask masked).symm.symm fun k open' => ?_
        by_cases same : k = p
        · subst same
          exact empty.trans (Screen.setEntry_stack_self _ _ _).symm
        · rw [Screen.setEntry_stack_ne _ _ (Ne.symm same)]
          refine (Screen.setEntry_stack_ne _ _ (Ne.symm same)).trans ?_
          show ((z.maskSet i m).panel i).screen.stack[k] = _
          rw [masked]
          exact Screen.hideMasked_stack open'
    · rw [if_neg kind] at judged
      have open' : ((z.maskSet i m).panel i).screen.masked p = false := by
        rw [masked, ← screen]
        exact unmasked
      rw [Panel.judgeShow_hidden shown hidden open'] at judged
      refine ⟨?_, fun blank => absurd blank kind, fun _ here' => ?_⟩
      · rw [State.setLevelMask_pendingAt here judged]
        exact Screen.setPending_pending_self _ _ _
      · have granted : (((z.maskSet i m).panel i).insertSilently p r).screen.visibleTop =
            some (p, r.toEntry s.arb.entrySerial) := by
          rw [← serial]
          exact Screen.visibleTop_replaced
            (x := ((z.maskSet i m).panel i).screen.setPending p none) (top.trans here')
        obtain ⟨stands, shows⟩ := State.setLevelMask_grants alike plain link unsent judged rfl face granted
        refine ⟨fun dark => ?_, fun ready known differs => ?_⟩
        · obtain ⟨silent, stays⟩ := stands dark
          exact ⟨silent, _, stays, Request.toEntry_carries r s.arb.entrySerial 0 0, rfl⟩
        · rw [← record] at known differs
          obtain ⟨d, n, sent, copied⟩ := shows ready known differs
          exact ⟨_, sent, Request.toEntry_carries r _ d n, copied⟩

end

theorem State.setLevelMask_onlyScreens (s : State) (i : Screen16) (m : BitVec 8) : s.onlyScreens (s.setLevelMask i m) :=
  (Screens.only s).setLevelMask i m s s.onlyScreens_refl

theorem State.setLevelMask_smi (s : State) (i : Screen16) (m : BitVec 8) : (s.setLevelMask i m).smi = s.smi := by
  by_cases plain : s.isMonitor i = false
  · rw [State.setLevelMask_plain plain, State.realized_frame]
    rfl
  · rw [State.setLevelMask_monitor (by simpa using plain)]
    rfl

/-- Level 0 of no mask is set, and every other bit is the parameter's. -/
theorem Screen.masked_set (x : Screen) (w : Nat) (l : Level) (mask : x.mask = levelMask w &&& 0xFE#8) :
    x.masked l = (decide (l ≠ 0) && (BitVec.ofNat 8 w).getLsbD l.val) := by
  unfold Screen.masked levelMask at *
  rw [mask, BitVec.getLsbD_and]
  have bit : (0xFE#8).getLsbD l.val = decide (l ≠ 0) := by revert l; decide
  rw [bit, Bool.and_comm]

/-- What the end of SET MASK says of a screen is read off the screens, the links, the frames and the clock. -/
theorem State.maskSettled_view {s u v : State} {i : Screen16} (arb : u.arb = v.arb) (links : u.links = v.links)
    (sent : u.sent = v.sent) (clock : u.clock = v.clock) (h : s.maskSettled v i) : s.maskSettled u i := by
  cases u
  cases v
  cases arb
  cases links
  cases sent
  cases clock
  exact h

/-- Settles O27: the mask set, the screen settled and refreshed. -/
theorem setMaskCarriedOut : Obligations.SetMaskCarriedOut := by
  intro t s slot words i taken loaded named
  have only := State.setLevelMask_onlyScreens ((s.begin t).taking slot 9 words) i (levelMask (word words 1))
  have smi := State.setLevelMask_smi ((s.begin t).taking slot 9 words) i (levelMask (word words 1))
  have alike := State.taking_alike s t slot 9 words i
  have reads : (readScreen (word words 0)).map (fun i => (i, levelMask (word words 1))) =
      some (i, levelMask (word words 1)) := by rw [named, readScreen_eq]; rfl
  have allowed := allowedIn_unlessLoading (kind := 9) (by decide) (by decide) loaded
  have busy (f : InFlight) (h : s.smi.port.inFlight = some f) : (((s.begin t).taking slot 9 words).setLevelMask i
      (levelMask (word words 1))).smi.port.inFlight = some f := by
    rw [smi]
    exact h
  obtain ⟨handed, finished, sameShow, ctl, arb, links, sent⟩ := State.screenDirective t taken allowed
    (read := fun ws _ => (readScreen (word ws 0)).map fun i => (i, levelMask (word ws 1)))
    (fun p s => (s.setLevelMask p.1 p.2).completeOk) reads rfl only busy
  obtain ⟨clock, -⟩ := State.screenDirective_rest t taken allowed
    (read := fun ws _ => (readScreen (word ws 0)).map fun i => (i, levelMask (word ws 1)))
    (fun p s => (s.setLevelMask p.1 p.2).completeOk) reads rfl only busy
  have still : (((s.begin t).taking slot 9 words).setLevelMask i (levelMask (word words 1))).clock = max s.clock t := only.2.2.1
  refine ⟨_, rfl, handed, finished, sameShow, ctl, ?_⟩
  generalize ((s.begin t).takeDirective 9 (fun ws _ => (readScreen (word ws 0)).map fun i => (i, levelMask (word ws 1)))
    (fun p s => (s.setLevelMask p.1 p.2).completeOk)) = u at *
  have screen (j : Screen16) : u.screen j = (((s.begin t).taking slot 9 words).setLevelMask i
      (levelMask (word words 1))).screen j := by
    unfold State.screen
    rw [arb]
  have link (j : Screen16) : u.link j = (((s.begin t).taking slot 9 words).setLevelMask i
      (levelMask (word words 1))).link j := by
    unfold State.link
    rw [links]
  refine ⟨fun l => ?_, fun plain => ?_, fun j apart copy => ?_, fun j apart => ?_⟩
  · rw [screen]
    exact Screen.masked_set _ _ l State.setLevelMask_mask
  · refine State.maskSettled_view arb links sent (clock.trans still.symm) ?_
    exact State.setLevelMask_maskSettled alike plain rfl rfl rfl rfl still
  · rw [screen, link]
    exact State.setLevelMask_others _ i _ j apart copy
  · rw [screen]
    exact State.setLevelMask_mask_ne apart

end Sys2Proof.Machine
end

section
/-! What an evaluation makes of the requests and entries of a level, and the cues that STOP and LOCATE take off the screens
(R119, R131). -/

namespace Sys2Proof.Machine

/-! ### Requests and entries through an evaluation -/

/-- A property of the stack and the requests of a screen that an evaluation keeps: a request may go, be marked as deferred or
become the entry of its level, and an entry may go or be seen otherwise. -/
structure Screen.Tamed (Q : Screen → Prop) : Prop where
  congr : ∀ {x y : Screen}, y.stack = x.stack → y.pendingAt = x.pendingAt → Q x → Q y
  unasked : ∀ (x : Screen) (l : Level), Q x → Q (x.setPending l none)
  deferred : ∀ (x : Screen) (l : Level) (r : Request), x.pendingAt[l] = some r → Q x →
    Q (x.setPending l (some { r with deferred := true }))
  removed : ∀ (x : Screen) (l : Level), Q x → Q (x.setEntry l none)
  renewed : ∀ (x : Screen) (l : Level) (e y : Entry), x.stack[l] = some e → y.isNotice = e.isNotice → Q x →
    Q (x.setEntry l (some y))
  granted : ∀ (x : Screen) (l : Level) (r : Request) (y : Entry), x.pendingAt[l] = some r →
    y.isNotice = (r.kind == .notice) → Q x → Q ((x.setPending l none).setEntry l (some y))

namespace Screen.Tamed

variable {Q : Screen → Prop} (k : Screen.Tamed Q) {s : State} {i : Screen16}
include k

theorem endNotices (now : Time) (ready : Bool) {x : Screen} (h : Q x) : Q (x.endNotices now ready) := by
  refine foldl_keeps (P := Q) (fun x l hx => ?_) allLevels x h
  unfold Screen.endNoticeAt
  extract_lets y
  have hy : Q y := by
    unfold y
    split
    · exact k.unasked _ _ hx
    · exact hx
  split
  · exact k.removed _ _ hy
  · exact hy

theorem carryOutBlank (ready : Bool) {x : Screen} (h : Q x) : Q (x.carryOutBlank ready) := by
  unfold Screen.carryOutBlank
  split
  · extract_lets y
    have hy : Q y := by
      refine k.congr ?_ ?_ h
      · rfl
      · rfl
    split
    · split
      · exact hy
      · exact k.removed _ _ hy
    · exact hy
  · exact h

theorem refreshed {o : TransOverride} {p : Panel} (h : Q p.screen) : Q (p.refreshed s i o).screen := by
  unfold Panel.refreshed
  split
  · split
    · next l e top =>
      split
      · exact h
      · refine k.congr ?_ ?_ (k.renewed _ l e (e.onAir (p.dwellOf s i l e e.override) s.clock)
          (Screen.visibleTop_some top).1 rfl h)
        · rw [Panel.shown_screen]
          rfl
        · rw [Panel.shown_screen]
          rfl
    · split
      · exact h
      · refine k.congr ?_ ?_ h
        · rw [Panel.cleared_screen]
        · rw [Panel.cleared_screen]
  · exact h

section
variable {l : Level} {r : Request} {p : Panel} (pending : p.screen.pendingAt[l] = some r) (h : Q p.screen)
include pending h

theorem grantShow : Q (p.grantShow s i l r).screen := by
  unfold Panel.grantShow
  refine k.congr ?_ ?_ (k.granted _ l r ((r.toEntry p.serial).onAir (Panel.dwellOf s i l (r.toEntry p.serial) r.override
    { p with screen := Panel.granted s l r p.screen, serial := p.serial + 1 }) s.clock) pending rfl h)
  · rw [Panel.shown_screen, Panel.granted_eq]
    rfl
  · rw [Panel.shown_screen, Panel.granted_eq]
    rfl

theorem insertSilently : Q (p.insertSilently l r).screen := k.granted _ l r _ pending rfl h

theorem defer : Q (p.defer s i l r).screen := by
  unfold Panel.defer
  split
  · refine k.congr ?_ ?_ (k.deferred _ l r pending h)
    · rfl
    · rfl
  · exact h

theorem judgeShow : Q (p.judgeShow s i l r).screen := by
  unfold Panel.judgeShow
  split
  · split
    · exact k.grantShow pending h
    · exact h
  · next m e top =>
    split
    · split
      · refine k.grantShow (p := p.bury m e) pending ?_
        refine k.congr ?_ ?_ (k.renewed _ m e { e with visibleSince := none } (Screen.visibleTop_some top).1 rfl h)
        · rfl
        · rfl
      · exact h
    · split
      · exact k.insertSilently pending h
      · split
        · exact k.insertSilently pending h
        · split
          · split
            · exact k.grantShow pending h
            · exact h
          · exact k.defer pending h

theorem judgeBlank : Q (p.judgeBlank s i l r).screen := by
  have removed : Q ((p.screen.setPending l none).setEntry l none) := k.removed _ _ (k.unasked _ _ h)
  unfold Panel.judgeBlank
  split
  · exact k.unasked _ _ h
  · split
    · split
      · split
        · exact k.refreshed removed
        · exact h
      · exact k.defer pending h
    · exact removed

end

theorem judge {l : Level} {p : Panel} (h : Q p.screen) : Q (p.judge s i l).screen := by
  unfold Panel.judge
  split
  · exact h
  · next r pending =>
    split
    · split
      · exact k.judgeBlank pending h
      · exact k.judgeShow pending h
      · exact k.judgeShow pending h
    · exact h

theorem evaluated {p : Panel} (h : Q p.screen) : Q (p.evaluated s i).screen := by
  have opened : Q (p.opened s i).screen := by
    rw [Panel.opened_screen]
    exact k.carryOutBlank _ (k.endNotices _ _ h)
  have judged : Q (p.judged s i).screen := by
    unfold Panel.judged
    generalize p.opened s i = q at opened
    exact foldl_keeps (P := fun p : Panel => Q p.screen) (fun _ _ hp => k.judge hp) allLevels _ opened
  unfold Panel.evaluated
  generalize p.judged s i = q at judged
  refine k.congr ?_ ?_ (k.refreshed (i := i) (s := s) (o := .default) judged)
  · rfl
  · rfl

/-- Screen `i`, evaluated, has what it had. -/
theorem evaluate (h : Q (s.screen i)) : Q ((s.evaluate i).screen i) := by
  by_cases plain : s.isMonitor i = false
  · rw [State.evaluate_eq plain, State.realized_screen plain]
    exact k.evaluated h
  · rw [State.evaluate_monitor (by simpa using plain)]
    exact h

end Screen.Tamed

/-- No TITLE or BLANK request is pending at levels 2..7. -/
def Screen.NoCueRequest (x : Screen) : Prop :=
  ∀ (l : Level) (r : Request), 2 ≤ l.val → x.pendingAt[l] = some r → r.kind = .notice

/-- No cue is left at levels 2..7: neither a request nor a TITLE entry. -/
def Screen.NoCue (x : Screen) : Prop :=
  x.NoCueRequest ∧ ∀ (l : Level) (e : Entry), 2 ≤ l.val → x.stack[l] = some e → e.isNotice = true

theorem Screen.NoCueRequest.setPending {x : Screen} {l : Level} {r : Option Request} (h : x.NoCueRequest)
    (asks : ∀ q, 2 ≤ l.val → r = some q → q.kind = .notice) : (x.setPending l r).NoCueRequest := by
  intro k q low there
  by_cases same : l = k
  · subst same
    rw [Screen.setPending_pending_self] at there
    exact asks q low there
  · rw [Screen.setPending_pending_ne _ _ same] at there
    exact h k q low there

theorem Screen.noCueRequest_tamed : Screen.Tamed Screen.NoCueRequest where
  congr _ pending h := by
    intro l r low there
    rw [pending] at there
    exact h l r low there
  unasked _ _ h := h.setPending nofun
  deferred _ l r pending h := h.setPending fun q low same => by
    cases same
    exact h l r low pending
  removed _ _ h := h
  renewed _ _ _ _ _ _ h := h
  granted _ _ _ _ _ _ h := Screen.NoCueRequest.setPending h nofun

/-- An entry put at a level of a screen without cues. -/
theorem Screen.NoCue.setEntry {x : Screen} {l : Level} {e : Option Entry} (h : x.NoCue)
    (notice : ∀ y, 2 ≤ l.val → e = some y → y.isNotice = true) : (x.setEntry l e).NoCue := by
  refine ⟨h.1, fun k y low there => ?_⟩
  by_cases same : l = k
  · subst same
    rw [Screen.setEntry_stack_self] at there
    exact notice y low there
  · rw [Screen.setEntry_stack_ne _ _ same] at there
    exact h.2 k y low there

theorem Screen.noCue_tamed : Screen.Tamed Screen.NoCue where
  congr stack pending h := by
    refine ⟨Screen.noCueRequest_tamed.congr stack pending h.1, fun l e low there => ?_⟩
    rw [stack] at there
    exact h.2 l e low there
  unasked x l h := ⟨Screen.noCueRequest_tamed.unasked x l h.1, h.2⟩
  deferred x l r pending h := ⟨Screen.noCueRequest_tamed.deferred x l r pending h.1, h.2⟩
  removed _ _ h := h.setEntry nofun
  renewed _ l e y there same h := h.setEntry fun z low eq => by
    cases eq
    rw [same]
    exact h.2 l e low there
  granted x l r y pending same h :=
    Screen.NoCue.setEntry (x := x.setPending l none) ⟨Screen.noCueRequest_tamed.unasked x l h.1, h.2⟩ fun z low eq => by
      cases eq
      rw [same, h.1 l r low pending]
      rfl

/-! ### The cues dropped (R131) -/

/-- The cue request of one level discarded. -/
def Screen.unaskedAt (x : Screen) (l : Level) : Screen := if (x.cueRequest l).isSome then x.setPending l none else x

/-- The cues of one level dropped. -/
def Screen.dropCue (x : Screen) (l : Level) : Screen :=
  let x := x.unaskedAt l
  if 2 ≤ l.val && (x.stack[l].any fun e => !e.isNotice) then x.setEntry l none else x

/-- A request of a level once its cues are dropped. -/
def Request.kept (l : Level) (r : Option Request) : Option Request :=
  if 2 ≤ l.val then r.filter fun q => q.kind == .notice else r

/-- An entry of a level once its cues are dropped. -/
def Entry.kept (l : Level) (e : Option Entry) : Option Entry := if 2 ≤ l.val then e.filter (·.isNotice) else e

theorem Request.kept_kept (l : Level) (r : Option Request) : Request.kept l (Request.kept l r) = Request.kept l r := by
  unfold Request.kept
  split <;> cases r <;> simp

theorem Entry.kept_kept (l : Level) (e : Option Entry) : Entry.kept l (Entry.kept l e) = Entry.kept l e := by
  unfold Entry.kept
  split <;> cases e <;> simp

theorem Screen.unaskedAt_frame (x : Screen) (l : Level) :
    x.unaskedAt l = { x with pendingAt := (x.unaskedAt l).pendingAt } := by
  unfold Screen.unaskedAt
  split <;> rfl

theorem Screen.unaskedAt_self (x : Screen) (l : Level) : (x.unaskedAt l).pendingAt[l] = Request.kept l x.pendingAt[l] := by
  unfold Screen.unaskedAt Screen.cueRequest Request.kept
  by_cases low : 2 ≤ l.val
  · rw [if_pos low, if_pos low]
    cases there : x.pendingAt[l] with
    | none => simpa using there
    | some r =>
      by_cases notice : r.kind = .notice
      · simpa [notice, Option.filter_some] using there
      · simp [notice, Screen.setPending, Option.filter_some]
  · rw [if_neg low, if_neg low]
    simp

theorem Screen.unaskedAt_ne (x : Screen) {k l : Level} (apart : k ≠ l) :
    (x.unaskedAt k).pendingAt[l] = x.pendingAt[l] := by
  unfold Screen.unaskedAt
  split
  · exact Screen.setPending_pending_ne _ _ apart
  · rfl

theorem Screen.dropCue_frame (x : Screen) (l : Level) :
    x.dropCue l = { x with stack := (x.dropCue l).stack, pendingAt := (x.dropCue l).pendingAt } := by
  unfold Screen.dropCue
  dsimp only
  rw [Screen.unaskedAt_frame x l]
  split <;> rfl

/-- One level is looked at. -/
theorem Screen.dropCue_self (x : Screen) (l : Level) :
    (x.dropCue l).pendingAt[l] = Request.kept l x.pendingAt[l] ∧ (x.dropCue l).stack[l] = Entry.kept l x.stack[l] := by
  have request := Screen.unaskedAt_self x l
  have stack : (x.unaskedAt l).stack = x.stack := by rw [Screen.unaskedAt_frame]
  unfold Screen.dropCue
  dsimp only
  generalize x.unaskedAt l = y at *
  refine ⟨?_, ?_⟩
  · rw [← request]
    split <;> rfl
  · rw [← stack]
    unfold Entry.kept
    by_cases low : 2 ≤ l.val
    · rw [if_pos low]
      cases there : y.stack[l] with
      | none => simpa [low] using there
      | some e =>
        cases notice : e.isNotice with
        | true => simpa [low, notice, Option.filter_some] using there
        | false => simp [low, notice, Screen.setEntry, Option.filter_some]
    · rw [if_neg low]
      simp [low]

/-- The other levels stand. -/
theorem Screen.dropCue_ne (x : Screen) {k l : Level} (apart : k ≠ l) :
    (x.dropCue k).pendingAt[l] = x.pendingAt[l] ∧ (x.dropCue k).stack[l] = x.stack[l] := by
  have request := Screen.unaskedAt_ne x apart
  have stack : (x.unaskedAt k).stack = x.stack := by rw [Screen.unaskedAt_frame]
  unfold Screen.dropCue
  dsimp only
  generalize x.unaskedAt k = y at *
  rw [← request, ← stack]
  split
  · exact ⟨rfl, Screen.setEntry_stack_ne _ _ apart⟩
  · exact ⟨rfl, rfl⟩

/-- The cues dropped at some levels. -/
theorem Screen.dropEach (l : Level) : ∀ (ks : List Level) (x : Screen),
    (ks.foldl Screen.dropCue x).pendingAt[l] = (if l ∈ ks then Request.kept l x.pendingAt[l] else x.pendingAt[l]) ∧
      (ks.foldl Screen.dropCue x).stack[l] = (if l ∈ ks then Entry.kept l x.stack[l] else x.stack[l])
  | [], x => ⟨rfl, rfl⟩
  | k :: ks, x => by
    obtain ⟨request, entry⟩ := Screen.dropEach l ks (x.dropCue k)
    rw [List.foldl_cons, request, entry]
    by_cases same : l = k
    · subst same
      obtain ⟨request', entry'⟩ := Screen.dropCue_self x l
      rw [request', entry', Request.kept_kept, Entry.kept_kept]
      simp
    · obtain ⟨request', entry'⟩ := Screen.dropCue_ne x (Ne.symm same)
      rw [request', entry']
      simp [same]

theorem Screen.dropCues_level (x : Screen) (l : Level) :
    x.dropCues.pendingAt[l] = Request.kept l x.pendingAt[l] ∧ x.dropCues.stack[l] = Entry.kept l x.stack[l] := by
  have each := Screen.dropEach l allLevels x
  rw [if_pos (mem_allLevels l), if_pos (mem_allLevels l)] at each
  exact each

theorem Screen.dropCues_frame (x : Screen) :
    x.dropCues = { x with stack := x.dropCues.stack, pendingAt := x.dropCues.pendingAt } := by
  have each : ∀ (ks : List Level) (y : Screen), y = { x with stack := y.stack, pendingAt := y.pendingAt } →
      ks.foldl Screen.dropCue y = { x with
        stack := (ks.foldl Screen.dropCue y).stack, pendingAt := (ks.foldl Screen.dropCue y).pendingAt } := by
    intro ks
    induction ks with
    | nil => exact fun y h => h
    | cons k ks ih =>
      intro y h
      refine ih (y.dropCue k) ?_
      rw [Screen.dropCue_frame y k, h]
  exact each allLevels x rfl

theorem Screen.dropCues_noCue (x : Screen) : x.dropCues.NoCue := by
  refine ⟨fun l r low there => ?_, fun l e low there => ?_⟩
  · rw [(Screen.dropCues_level x l).1] at there
    unfold Request.kept at there
    rw [if_pos low] at there
    simpa using (Option.filter_eq_some_iff.1 there).2
  · rw [(Screen.dropCues_level x l).2] at there
    unfold Entry.kept at there
    rw [if_pos low] at there
    exact (Option.filter_eq_some_iff.1 there).2

/-- The cues of one screen dropped, and the screen evaluated. -/
def State.dropAt (s : State) (i : Screen16) : State := (s.setScreen i (s.screen i).dropCues).evaluate i

theorem State.dropScreenCues_eq (s : State) : s.dropScreenCues = allScreens.foldl State.dropAt s := rfl

section
variable (s : State) (i : Screen16)

theorem State.dropAt_mirror : (s.dropAt i).arb.mirror = s.arb.mirror := State.evaluate_mirror _ _

theorem State.dropAt_clock : (s.dropAt i).clock = s.clock := by
  by_cases plain : s.isMonitor i = false
  · unfold State.dropAt
    rw [State.evaluate_eq (s := s.setScreen i (s.screen i).dropCues) plain, State.realized_clock]
    rfl
  · unfold State.dropAt
    rw [State.evaluate_monitor (s := s.setScreen i (s.screen i).dropCues) (Bool.not_eq_false _ ▸ plain)]
    rfl

/-- What a screen without cues is, it stays. -/
theorem State.dropAt_noCue : ((s.dropAt i).screen i).NoCue := by
  refine Screen.noCue_tamed.evaluate ?_
  rw [State.setScreen_screen_self]
  exact Screen.dropCues_noCue _

end

variable {s : State} {i : Screen16}

/-- The levels and the flag of the other screens stand. -/
theorem State.dropAt_other {j : Screen16} (apart : j ≠ i) : ((s.dropAt i).screen j).stack = (s.screen j).stack ∧
    ((s.dropAt i).screen j).pendingAt = (s.screen j).pendingAt ∧
    ((s.dropAt i).screen j).blankPending = (s.screen j).blankPending := by
  have put : (s.setScreen i (s.screen i).dropCues).screen j = s.screen j := State.setScreen_screen_ne _ _ (Ne.symm apart)
  rcases State.evaluate_elsewhere (s := s.setScreen i (s.screen i).dropCues) apart with stands | ⟨m, sent⟩
  · unfold State.dropAt
    rw [stands, put]
    exact ⟨rfl, rfl, rfl⟩
  · unfold State.dropAt
    rw [sent, Screen.sentMessage_frame, put]
    exact ⟨rfl, rfl, rfl⟩

/-- A notice that has not ended stays at its level of the screen (R131). -/
theorem State.dropAt_notice {l : Level} {e : Entry} (entry : (s.screen i).stack[l] = some e) (notice : e.isNotice = true)
    (ahead : ∀ T, e.endTime = some T → s.clock < T) (blank : (s.screen i).blankPending = false)
    (idle : (s.screen i).pendingAt[l] = none) : ((s.dropAt i).screen i).contentAt l = some e.content := by
  have here : (s.setScreen i (s.screen i).dropCues).screen i = (s.screen i).dropCues := State.setScreen_screen_self _ _ _
  obtain ⟨request, stays⟩ := Screen.dropCues_level (s.screen i) l
  have stays' : (s.screen i).dropCues.stack[l] = some e := by
    rw [stays, entry]
    unfold Entry.kept
    simp [notice]
  have idle' : (s.screen i).dropCues.pendingAt[l] = none := by
    rw [request, idle]
    unfold Request.kept
    simp
  have blank' : (s.screen i).dropCues.blankPending = false := by
    rw [Screen.dropCues_frame]
    exact blank
  unfold State.dropAt
  by_cases plain : s.isMonitor i = false
  · rw [State.evaluate_eq (s := s.setScreen i (s.screen i).dropCues) plain, State.realized_screen
      (s := s.setScreen i (s.screen i).dropCues) plain]
    refine Panel.evaluated_contentAt (e := e) ?_ ahead ?_ (.inl ?_)
    · exact (congrArg (fun x : Screen => x.stack[l]) here).trans stays'
    · exact (congrArg (fun x : Screen => x.pendingAt[l]) here).trans idle'
    · exact (congrArg Screen.blankPending here).trans blank'
  · rw [State.evaluate_monitor (s := s.setScreen i (s.screen i).dropCues) (Bool.not_eq_false _ ▸ plain), here]
    unfold Screen.contentAt
    rw [stays']
    rfl

theorem State.dropAt_uncounted {z : State} (i j : Screen16)
    (h : (z.screen j).selectors = (s.screen j).selectors ∧ (s.screen j).counted (z.screen j) .skipped 0) :
    ((z.dropAt i).screen j).selectors = (s.screen j).selectors ∧
      (s.screen j).counted ((z.dropAt i).screen j) .skipped 0 := by
  unfold State.dropAt
  refine State.evaluate_keeps (Screen.kept_uncounted (s.screen j) (.inl rfl)) i ?_
  by_cases same : i = j
  · subst same
    obtain ⟨_, _, frame⟩ : ∃ st pe, (z.screen i).dropCues = { z.screen i with stack := st, pendingAt := pe } :=
      ⟨_, _, Screen.dropCues_frame _⟩
    rw [State.setScreen_screen_self, frame]
    exact h
  · rw [State.setScreen_screen_ne _ _ same]
    exact h

/-- The cues are taken off every screen, no SKIPPED is counted, and the notices stay (R131). -/
theorem State.dropScreenCues_dropped (s : State) : s.cuesDropped s.dropScreenCues s.clock := by
  have walk (i : Screen16) : ∃ y : State, y.clock = s.clock ∧
      ((y.screen i).stack, (y.screen i).pendingAt, (y.screen i).blankPending) =
        ((s.screen i).stack, (s.screen i).pendingAt, (s.screen i).blankPending) ∧
      ((s.dropScreenCues.screen i).stack, (s.dropScreenCues.screen i).pendingAt,
          (s.dropScreenCues.screen i).blankPending) =
        (((y.dropAt i).screen i).stack, ((y.dropAt i).screen i).pendingAt, ((y.dropAt i).screen i).blankPending) :=
    foldl_once (f := State.dropAt) (i := i) (P := fun y : State => y.clock = s.clock)
      (fun y : State => ((y.screen i).stack, (y.screen i).pendingAt, (y.screen i).blankPending))
      (fun y j h => (State.dropAt_clock y j).trans h)
      (fun y j _ apart => by
        obtain ⟨stack, pending, blank⟩ := State.dropAt_other (s := y) (Ne.symm apart)
        rw [stack, pending, blank]) s rfl
  have clean (i : Screen16) : (s.dropScreenCues.screen i).NoCue := by
    obtain ⟨y, -, -, last⟩ := walk i
    obtain ⟨stack, rest⟩ := Prod.mk.inj last
    exact Screen.noCue_tamed.congr stack (Prod.mk.inj rest).1 (State.dropAt_noCue y i)
  refine ⟨fun i => (clean i).1, fun i => (clean i).2, fun i => ?_, fun i l e entry notice ahead blank idle => ?_⟩
  · rw [State.dropScreenCues_eq]
    exact (foldl_keeps (P := fun y : State => (y.screen i).selectors = (s.screen i).selectors ∧
      (s.screen i).counted (y.screen i) .skipped 0) (fun _ j h => State.dropAt_uncounted j i h) allScreens s ⟨rfl, Screen.counted_refl _ rfl⟩).2
  · obtain ⟨y, clock, first, last⟩ := walk i
    obtain ⟨stack, rest⟩ := Prod.mk.inj first
    obtain ⟨pending, flag⟩ := Prod.mk.inj rest
    have stays : ((y.dropAt i).screen i).contentAt l = some e.content := by
      refine State.dropAt_notice (by rw [stack]; exact entry) notice (by rw [clock]; exact ahead) ?_ ?_
      · exact flag.trans blank
      · rw [pending]
        exact idle
    rw [← Screen.contentAt_congr (Prod.mk.inj last).1 l] at stays
    obtain ⟨x, there, serial, -⟩ := Screen.contentAt_some stays
    exact ⟨x, there, serial⟩

end Sys2Proof.Machine
end

section
/-! The directives STOP and LOCATE (R170, R174). -/

namespace Sys2Proof.Machine

/-! ### What both begin with -/

/-- An owed GO is withdrawn: the walker loses it, and the desk and the journal tell (R60). -/
theorem State.withdrawGo_frame (s : State) : s.withdrawGo = { s with
      wlk := { s.wlk with owedGo := none }, desk := s.withdrawGo.desk, smi := s.withdrawGo.smi } ∧
    s.smi.sameScan s.withdrawGo.smi := by
  unfold State.withdrawGo
  cases owed : s.wlk.owedGo with
  | none =>
    have same : ({ s.wlk with owedGo := none } : Walker) = s.wlk := by rw [← owed]
    dsimp only
    rw [same]
    exact ⟨rfl, Interface.sameScan_refl _⟩
  | some g =>
    have bus := State.journalAt_onlyBus s.clock (.deskIgnored (lineCode .go) IgnoreReason.withdrawn.code s.ctl.engine.code
      s.wlk.inForce.code s.trk.beat) (s.setWalker { s.wlk with owedGo := none }).onlyBus_refl
    refine ⟨?_, State.journal_sameScan _ _⟩
    unfold State.ignoreDesk State.countIgnored State.journal State.setLine
    dsimp only
    rw [show (s.setWalker { s.wlk with owedGo := none }).clock = s.clock from rfl,
      show (s.setWalker { s.wlk with owedGo := none }).ctl = s.ctl from rfl,
      show (s.setWalker { s.wlk with owedGo := none }).wlk.inForce = s.wlk.inForce from rfl,
      show (s.setWalker { s.wlk with owedGo := none }).trk = s.trk from rfl]
    generalize (s.setWalker { s.wlk with owedGo := none }).journalAt _ _ = u at *
    rw [bus]
    rfl

theorem State.withdrawGo_busy {s : State} (h : s.smi.port.inFlight.isSome = true) :
    s.withdrawGo.smi.port.inFlight.isSome = true := by
  unfold State.withdrawGo
  split
  · exact h
  · exact Walks.busy.journal _ (s.setWalker { s.wlk with owedGo := none }) h

/-- The tracker suspended while no cue is armed (R50). -/
theorem State.suspendTracker_frame (c : TrackCause) {s : State} (empty : s.sch.armed = []) :
    s.suspendTracker c = { s with
      trk := s.trk.suspended, sch := { s.sch with view := (s.suspendTracker c).sch.view }
      smi := (s.suspendTracker c).smi } ∧ s.smi.sameScan (s.suspendTracker c).smi := by
  have changed := State.trackerChanged_frame s.trk.state c (s.setTracker s.trk.suspended)
  rw [show (s.setTracker s.trk.suspended).trackerChanged s.trk.state c = s.suspendTracker c from rfl] at changed
  refine ⟨?_, changed.2⟩
  rcases changed.1 with stands | moved
  · rw [stands]
    rfl
  · have gated : s.sch.armed.map gatePosition = s.sch.armed := by rw [empty]; rfl
    rw [moved]
    dsimp only [State.setTracker]
    rw [gated]

/-- What the cues dropped say of the screens is read off the screens. -/
theorem State.cuesDropped_view {s z u v : State} {now : Time} (first : z.arb.screens = s.arb.screens)
    (last : u.arb.screens = v.arb.screens) (h : z.cuesDropped v now) : s.cuesDropped u now := by
  unfold State.cuesDropped State.noCueRequests State.screen at *
  rw [first] at h
  rw [last]
  exact h

theorem State.dropScreenCues_smi (s : State) : s.dropScreenCues.smi = s.smi := by
  have step (y : State) (j : Screen16) (h : y.smi = s.smi) : (y.dropAt j).smi = s.smi := (State.evaluate_smi _ j).trans h
  rw [State.dropScreenCues_eq]
  exact foldl_keeps (P := fun y : State => y.smi = s.smi) step allScreens s rfl

/-! ### STOP -/

/-- STOP up to the screens (R174). -/
def State.stopBegun (s : State) : State :=
  let s := s.emptyArmed.withdrawGo
  ((s.setWalker { s.wlk with history := [], calledOffers := 0 }).discardRead).suspendTracker .directive

theorem State.stopBegun_frame (s : State) : s.stopBegun = { s with
      trk := s.trk.suspended, wlk := { s.wlk with owedGo := none, history := [], calledOffers := 0 }
      sch := { s.sch with armed := [], fireRecord := none, view := s.stopBegun.sch.view }
      desk := s.stopBegun.desk, du := s.stopBegun.du, smi := s.stopBegun.smi } ∧
    s.smi.sameScan s.stopBegun.smi := by
  obtain ⟨emptied, scan⟩ := State.emptyArmed_frame s
  obtain ⟨withdrawn, scan'⟩ := State.withdrawGo_frame s.emptyArmed
  have empty : s.emptyArmed.withdrawGo.sch.armed = [] := by rw [withdrawn, emptied]
  obtain ⟨suspended, scan''⟩ := State.suspendTracker_frame .directive
    (s := (s.emptyArmed.withdrawGo.setWalker
      { s.emptyArmed.withdrawGo.wlk with history := [], calledOffers := 0 }).discardRead) empty
  unfold State.stopBegun
  dsimp only
  generalize s.emptyArmed.withdrawGo = w at *
  refine ⟨?_, Interface.sameScan_trans (Interface.sameScan_trans scan scan') (Interface.sameScan_trans ?_ scan'')⟩
  · rw [suspended]
    dsimp only [State.discardRead, State.setPort, State.setWalker]
    rw [withdrawn, emptied]
  · exact ⟨rfl, rfl, rfl, rfl, rfl, rfl, rfl, rfl, rfl, rfl⟩

theorem State.stopBegun_busy {s : State} {f : InFlight} (h : s.smi.port.inFlight = some f) :
    s.stopBegun.smi.port.inFlight.isSome = true := by
  refine Walks.busy.suspendTracker _ _ (Walks.busy.discardRead _ ?_)
  exact State.withdrawGo_busy (Option.isSome_iff_exists.2 ⟨f, State.emptyArmed_busy h⟩)

/-- A held PAUSE ends with ABANDONED (R174). -/
def State.pauseAbandoned (s : State) : State :=
  match s.ctl.heldPause with
  | some p => { s with ctl := { s.ctl with heldPause := none } }.handBack p .abandoned []
  | none => s

/-- The outcomes that STOP hands back before its own. -/
def abandonedOf (held : Option Slot) : List OutcomeRecord :=
  match held with
  | some p => [{ slot := p, code := .abandoned, results := [], writing := true }]
  | none => []

theorem State.pauseAbandoned_frame (s : State) : s.pauseAbandoned = { s with
      ctl := { s.ctl with heldPause := none }, smi := s.pauseAbandoned.smi } ∧
    s.pauseAbandoned.smi.outcomes = s.smi.outcomes ++ abandonedOf s.ctl.heldPause ∧
    s.pauseAbandoned.smi.rotation = s.smi.rotation := by
  unfold State.pauseAbandoned abandonedOf
  cases held : s.ctl.heldPause with
  | none =>
    have same : ({ s.ctl with heldPause := none } : Control) = s.ctl := by rw [← held]
    dsimp only
    rw [same]
    exact ⟨rfl, (List.append_nil _).symm, rfl⟩
  | some p => exact ⟨rfl, rfl, rfl⟩

theorem State.pauseAbandoned_busy {s : State} {f : InFlight} (h : s.smi.port.inFlight = some f) :
    s.pauseAbandoned.smi.port.inFlight = some f := by
  unfold State.pauseAbandoned
  split
  · exact (Ends.inFlight f).handBack _ _ _ _ h
  · exact h

theorem State.stopShow_eq (s : State) : s.stopShow =
    (s.stopBegun.dropScreenCues.pauseAbandoned.changeEngine .ended .stop s.progressSlot 0 0).completeOk := by
  unfold State.stopShow State.stopBegun State.pauseAbandoned
  rfl

/-- Settles O23: the show is taken down, the cues are taken off the screens, and a held PAUSE ends before the STOP. -/
theorem stopCarriedOut : Obligations.StopCarriedOut := by
  intro t s slot words taken engine
  have allowed : allowedIn 5 s.ctl.engine = true := by
    rcases engine with e | e | e | e <;> rw [e] <;> rfl
  obtain ⟨f, busy⟩ := State.taken_busy taken
  have checked : ((s.begin t).taking slot 5 words).checked 5 noParameters (fun _ => State.stopShow) words =
      ((s.begin t).taking slot 5 words).stopShow := State.checked_act _ allowed rfl
  rw [State.stopShow_eq] at checked
  obtain ⟨begun, scan⟩ := State.stopBegun_frame ((s.begin t).taking slot 5 words)
  have loaded := State.stopBegun_busy (s := (s.begin t).taking slot 5 words) busy
  have slot' : ((s.begin t).taking slot 5 words).progressSlot = some slot := rfl
  rw [slot'] at checked
  generalize ((s.begin t).taking slot 5 words).stopBegun = b at *
  obtain ⟨⟨trk, wlk, sch, du, desk⟩, ctl, clock, -, -⟩ := (Screens.only b).dropScreenCues b b.onlyScreens_refl
  have smi := State.dropScreenCues_smi b
  have dropped := State.dropScreenCues_dropped b
  generalize b.dropScreenCues = d at *
  obtain ⟨f', busy'⟩ := Option.isSome_iff_exists.1 loaded
  rw [← smi] at busy'
  obtain ⟨ended, outcomes, rotation⟩ := State.pauseAbandoned_frame d
  have busy'' := State.pauseAbandoned_busy busy'
  generalize d.pauseAbandoned = p at *
  have inFlight := Walks.busy.changeEngine .ended .stop (some slot) 0 0 p (Option.isSome_iff_exists.2 ⟨f', busy''⟩)
  obtain ⟨-, -, -, outcomes', -, -, -, rotation', -⟩ := State.changeEngine_sameScan .ended .stop (some slot) 0 0 p
  have changed := State.changeEngine_frame .ended .stop (some slot) 0 0 p
  generalize p.changeEngine .ended .stop (some slot) 0 0 = v at *
  obtain ⟨g, inFlight⟩ := Option.isSome_iff_exists.1 inFlight
  have progress : v.ctl.progress = some ⟨slot, 5, words, .none⟩ := by
    rw [changed, ended]
    show d.ctl.progress = _
    rw [ctl, begun]
    rfl
  obtain ⟨⟨added, -⟩, whole, -, -, -, rotation'', -⟩ := State.takeDirective_completed t taken checked progress inFlight
  refine ⟨(s.begin t).takeDirective 5 noParameters fun _ => State.stopShow, rfl, ?_⟩
  generalize ((s.begin t).takeDirective 5 noParameters fun _ => State.stopShow) = u at *
  have outs : u.smi.outcomes = s.smi.outcomes ++ abandonedOf s.ctl.heldPause ++
      [{ slot := slot, code := .ok, results := [], writing := true }] := by
    have held : d.ctl.heldPause = s.ctl.heldPause := by rw [ctl, begun]; rfl
    rw [added, outcomes', outcomes, held, smi, scan.2.2.2.1]
    rfl
  have stands : u.smi.rotation = slot := by
    rw [rotation'', rotation', rotation, smi, scan.2.2.2.2.2.2.2.1]
    rfl
  have control : u.ctl = { s.ctl with engine := .ended, heldPause := none, progress := none } := by
    rw [whole, changed, ended, ctl, begun]
    rfl
  have screens : u.arb.screens = d.arb.screens := by rw [whole, changed, ended]
  have trk' : u.trk = s.trk.suspended := by
    rw [whole, changed, ended]
    show d.trk = _
    rw [trk, begun]
    rfl
  have sch' : u.sch.armed = [] ∧ u.sch.fireRecord = none := by
    rw [whole, changed, ended]
    show d.sch.armed = [] ∧ d.sch.fireRecord = none
    rw [sch, begun]
    exact ⟨rfl, rfl⟩
  have wlk' : u.wlk = { s.wlk with owedGo := none, history := [], calledOffers := 0 } := by
    rw [whole, changed, ended]
    show d.wlk = _
    rw [wlk, begun]
    rfl
  refine ⟨⟨by rw [control], stands⟩, by rw [control], by rw [control], outs, sch'.1, sch'.2, by rw [wlk'], by rw [wlk'],
    by rw [wlk'], by rw [wlk'], by rw [trk']; rfl, by rw [trk']; rfl, by rw [trk']; rfl, by rw [trk']; rfl, ?_⟩
  have clock' : b.clock = max s.clock t := by rw [begun]; rfl
  rw [clock'] at dropped
  exact State.cuesDropped_view (z := b) (by rw [begun]; rfl) screens dropped

/-! ### LOCATE -/

section
variable {x : Section} {n k : Nat} {w : Walker} {r : Tracker}

/-- The bar that the show is placed at (R71). -/
theorem Walker.placed_position (called : x.mode = .called → n = 1) :
    (w.placed k n x).position = some { sec := k, pass := 1, bar := n, beat := 1 } := by
  unfold Walker.placed
  cases mode : x.mode with
  | beat => rfl
  | called => rw [called mode]

theorem Walker.placed_beat (mode : x.mode = .beat) :
    (w.placed k n x).origin = -(beatsIn ((w.barsOf x).take (n - 1)) : Int) := by
  unfold Walker.placed
  rw [mode]

theorem Walker.placed_called (mode : x.mode = .called) :
    (w.placed k n x).origin = 0 ∧ (w.placed k n x).fireCursor = some x.firstCue := by
  unfold Walker.placed
  rw [mode]
  exact ⟨rfl, rfl⟩

theorem Tracker.placed_beat (mode : x.mode = .beat) : (r.placed w x n).state = .locking := by
  unfold Tracker.placed
  rw [mode]

theorem Tracker.placed_period (mode : x.mode = .beat) : (r.placed w x n).period = w.tempoAt x n := by
  unfold Tracker.placed
  rw [mode]

theorem Tracker.placed_called (mode : x.mode = .called) : (r.placed w x n).state = .suspended := by
  unfold Tracker.placed
  rw [mode]

end

/-- LOCATE up to the screens (R170). -/
def State.located (k n : Nat) (x : Section) (s : State) : State := s.emptyArmed.withdrawGo.placed k n x .locate

theorem State.located_frame (k n : Nat) (x : Section) (s : State) : s.located k n x = { s with
      wlk := s.wlk.placed k n x, trk := s.trk.placed s.wlk x n
      sch := { s.sch with armed := [], fireRecord := none, view := (s.located k n x).sch.view }
      desk := (s.located k n x).desk, du := (s.located k n x).du, smi := (s.located k n x).smi } ∧
    s.smi.sameScan (s.located k n x).smi := by
  obtain ⟨emptied, scan⟩ := State.emptyArmed_frame s
  obtain ⟨withdrawn, scan'⟩ := State.withdrawGo_frame s.emptyArmed
  have empty : s.emptyArmed.withdrawGo.sch.armed = [] := by rw [withdrawn, emptied]
  obtain ⟨placed, scan''⟩ := State.placed_frame k n x .locate (s := s.emptyArmed.withdrawGo) empty
  unfold State.located
  generalize s.emptyArmed.withdrawGo = w at *
  refine ⟨?_, Interface.sameScan_trans (Interface.sameScan_trans scan scan') scan''⟩
  rw [placed, withdrawn, emptied]
  rfl

theorem State.located_busy {s : State} {f : InFlight} (k n : Nat) (x : Section) (h : s.smi.port.inFlight = some f) :
    (s.located k n x).smi.port.inFlight.isSome = true :=
  State.placed_busy k n x .locate (State.withdrawGo_busy (Option.isSome_iff_exists.2 ⟨f, State.emptyArmed_busy h⟩))

theorem State.locateShow_eq (k n : Nat) (x : Section) (s : State) :
    s.locateShow (k, n, x) = (s.located k n x).dropScreenCues.reviewOffers.completeOk := by
  unfold State.locateShow State.located State.placed
  rfl

/-- LOCATE's parameters as they are read (R167). -/
theorem readLocate_eq {words : List Nat} {s : State} {x : Section} {n : Nat} (sec : s.wlk.sec (word words 0) = some x)
    (order : word words 0 ∈ s.wlk.order.getD [])
    (beat : x.mode = .beat → n = word words 1 ∧ 1 ≤ n ∧ n ≤ x.barCount) (called : x.mode = .called → n = 1) :
    readLocate words s = some (word words 0, n, x) := by
  unfold readLocate
  rw [sec]
  dsimp only
  rw [if_pos order]
  cases mode : x.mode with
  | beat =>
    obtain ⟨rfl, low, high⟩ := beat mode
    exact if_pos ⟨low, high⟩
  | called =>
    obtain rfl := called mode
    rfl

/-- Settles O24: the show is placed at the bar, and the cues are taken off the screens. -/
theorem locateCarriedOut : Obligations.LocateCarriedOut := by
  intro t s slot words x n taken engine sec order beat called
  have allowed : allowedIn 6 s.ctl.engine = true := by
    rcases engine with e | e <;> rw [e] <;> rfl
  obtain ⟨f, busy⟩ := State.taken_busy taken
  have checked : ((s.begin t).taking slot 6 words).checked 6 readLocate State.locateShow words =
      ((s.begin t).taking slot 6 words).locateShow (word words 0, n, x) :=
    State.checked_act _ allowed (readLocate_eq (s := (s.begin t).taking slot 6 words) sec order beat called)
  rw [State.locateShow_eq] at checked
  obtain ⟨begun, scan⟩ := State.located_frame (word words 0) n x ((s.begin t).taking slot 6 words)
  have loaded := State.located_busy (s := (s.begin t).taking slot 6 words) (word words 0) n x busy
  generalize ((s.begin t).taking slot 6 words).located (word words 0) n x = b at *
  obtain ⟨⟨trk, wlk, sch, du, desk⟩, ctl, clock, -, scan'⟩ := (Screens.only b).dropScreenCues b b.onlyScreens_refl
  have dropped := State.dropScreenCues_dropped b
  have smi := State.dropScreenCues_smi b
  generalize b.dropScreenCues = d at *
  obtain ⟨frame, walk, scan'', -⟩ := State.reviewOffers_only d
  obtain ⟨g, inFlight⟩ := Option.isSome_iff_exists.1 loaded
  rw [← smi] at inFlight
  have progress : d.reviewOffers.ctl.progress = some ⟨slot, 6, words, .none⟩ := by
    rw [frame]
    show d.ctl.progress = _
    rw [ctl, begun]
    rfl
  obtain ⟨handed, finished, whole, -, -⟩ := State.takeDirective_ended t taken checked progress rfl
    (by rw [(Offers.inFlight g).reviewOffers d inFlight]; rfl)
    (Interface.sameScan_trans scan (Interface.sameScan_trans scan' scan''))
  have cursor : 0 < x.cueCount → d.reviewOffers.wlk.cursor =
      some { sec := word words 0, pass := 1, origin := some d.wlk.origin, cue := x.firstCue } := fun cues => by
    refine State.reviewOffers_cursor (x := x) ?_ ?_ (Nat.lt_add_of_pos_right cues)
    · rw [wlk, begun]
      rfl
    · rw [wlk, begun]
      exact sec
  refine ⟨(s.begin t).takeDirective 6 readLocate State.locateShow, rfl, handed, finished, ?_⟩
  generalize d.reviewOffers = r at *
  generalize (s.begin t).takeDirective 6 readLocate State.locateShow = u at *
  have control : u.ctl.engine = s.ctl.engine := by
    rw [whole, frame]
    show d.ctl.engine = _
    rw [ctl, begun]
    rfl
  have screens : u.arb.screens = d.arb.screens := by rw [whole, frame]
  have trk' : u.trk = s.trk.placed s.wlk x n := by
    rw [whole, frame]
    show d.trk = _
    rw [trk, begun]
    rfl
  have sch' : u.sch.armed = [] ∧ u.sch.fireRecord = none := by
    rw [whole, frame]
    show d.sch.armed = [] ∧ d.sch.fireRecord = none
    rw [sch, begun]
    exact ⟨rfl, rfl⟩
  have clock' : b.clock = max s.clock t := by rw [begun]; rfl
  have first : b.arb.screens = s.arb.screens := by rw [begun]; rfl
  rw [clock'] at dropped
  have cuesDropped := State.cuesDropped_view first screens dropped
  have wlk' : d.wlk = s.wlk.placed (word words 0) n x := by
    rw [wlk, begun]
    rfl
  have walker : u.wlk = r.wlk := by rw [whole]
  rw [wlk'] at walk cursor
  refine ⟨control, sch'.1, sch'.2, ?_⟩
  rw [walker, trk', walk]
  refine ⟨rfl, rfl, rfl, rfl, rfl, rfl, ?_, cursor, rfl, rfl, rfl, rfl, fun mode => ?_, fun mode => ?_, cuesDropped⟩
  · exact Walker.placed_position (k := word words 0) (w := s.wlk) called
  · exact ⟨Tracker.placed_beat mode, Tracker.placed_period mode, Walker.placed_beat (k := word words 0) (w := s.wlk) mode⟩
  · exact ⟨Tracker.placed_called mode, Walker.placed_called (k := word words 0) (w := s.wlk) mode⟩

end Sys2Proof.Machine
end

section
/-! The directive PAUSE: the cue requests discarded on every screen, and the quiet test (R131, R171, R172). -/

namespace Sys2Proof.Machine

/-- A walk over the screens, seen by a relation that the steps at the other screens keep. -/
theorem foldl_split {σ : Type} {f : σ → Screen16 → σ} {i : Screen16} (R : σ → σ → Prop) (refl : ∀ z, R z z)
    (trans : ∀ {x y z}, R x y → R y z → R x z) (others : ∀ z j, j ≠ i → R z (f z j)) (z : σ) :
    ∃ y, R z y ∧ R (f y i) (allScreens.foldl f z) := by
  obtain ⟨before, after, walk⟩ := List.append_of_mem (mem_allScreens i)
  have nodup : (before ++ i :: after).Nodup := by rw [← walk]; decide
  obtain ⟨-, tail, apart⟩ := List.nodup_append.1 nodup
  have each : ∀ (l : List Screen16) (z : σ), i ∉ l → R z (l.foldl f z) := by
    intro l
    induction l with
    | nil => exact fun z _ => refl z
    | cons j l ih =>
      intro z new
      exact trans (others z j fun e => new (by rw [e]; exact List.mem_cons_self))
        (ih (f z j) fun h => new (List.mem_cons_of_mem j h))
  refine ⟨before.foldl f z, each before z fun h => apart i h i List.mem_cons_self rfl, ?_⟩
  rw [walk, List.foldl_append, List.foldl_cons]
  exact each after _ (List.nodup_cons.1 tail).1

/-! ### One screen -/

/-- A TITLE request is pending at a level 2..7. -/
def Screen.titleAt (x : Screen) (l : Level) : Bool := decide (2 ≤ l.val) && x.pendingAt[l].any fun r => r.kind == .title

theorem Screen.pendingTitles_eq (x : Screen) : x.pendingTitles = allLevels.filter x.titleAt := rfl

/-- PAUSE at one level of a screen (R131). -/
def Screen.pausedAt (x : Screen) (l : Level) : Screen :=
  if x.titleAt l then (x.unaskedAt l).count .skipped else x.unaskedAt l

/-- PAUSE at every level of a screen. -/
def Screen.paused (x : Screen) : Screen := allLevels.foldl Screen.pausedAt x

section
variable (x : Screen)

theorem Screen.pausedAt_frame (l : Level) :
    x.pausedAt l = { x with pendingAt := (x.unaskedAt l).pendingAt, counters := (x.pausedAt l).counters } := by
  unfold Screen.pausedAt Screen.count
  split
  · dsimp only
    rw [Screen.unaskedAt_frame]
  · rw [Screen.unaskedAt_frame]

theorem Screen.pausedAt_counted (l : Level) : x.counted (x.pausedAt l) .skipped (if x.titleAt l then 1 else 0) := by
  have same : x.counted (x.unaskedAt l) .skipped 0 := Screen.counted_refl _ (by rw [Screen.unaskedAt_frame])
  unfold Screen.pausedAt
  split
  · have := Screen.counted_trans (by rw [Screen.unaskedAt_frame]) same (Screen.counted_count_self .skipped (x.unaskedAt l))
    rwa [Nat.zero_add] at this
  · exact same

theorem Screen.titleAt_congr {y : Screen} {l : Level} (pending : y.pendingAt[l] = x.pendingAt[l]) :
    y.titleAt l = x.titleAt l := by
  unfold Screen.titleAt
  rw [pending]

theorem Screen.pausedAt_ne {k l : Level} (apart : k ≠ l) : (x.pausedAt k).pendingAt[l] = x.pendingAt[l] := by
  rw [Screen.pausedAt_frame]
  exact Screen.unaskedAt_ne x apart

theorem Screen.pausedAt_self (l : Level) : (x.pausedAt l).pendingAt[l] = Request.kept l x.pendingAt[l] := by
  rw [Screen.pausedAt_frame]
  exact Screen.unaskedAt_self x l

end

/-- Some levels paused: the fields that stand, the requests left, and the TITLEs counted. -/
theorem Screen.pausedEach : ∀ (ks : List Level) (x : Screen), ks.Nodup →
    (∃ pending counters, ks.foldl Screen.pausedAt x = { x with pendingAt := pending, counters := counters }) ∧
    (∀ l, (ks.foldl Screen.pausedAt x).pendingAt[l] = if l ∈ ks then Request.kept l x.pendingAt[l] else x.pendingAt[l]) ∧
    x.counted (ks.foldl Screen.pausedAt x) .skipped (ks.filter x.titleAt).length
  | [], x, _ => ⟨⟨_, _, rfl⟩, fun _ => rfl, Screen.counted_refl _ rfl⟩
  | k :: ks, x, nodup => by
    obtain ⟨new, rest⟩ := List.nodup_cons.1 nodup
    obtain ⟨⟨pending, counters, frame⟩, requests, counted⟩ := Screen.pausedEach ks (x.pausedAt k) rest
    rw [List.foldl_cons]
    refine ⟨⟨pending, counters, ?_⟩, fun l => ?_, ?_⟩
    · rw [frame, Screen.pausedAt_frame]
    · rw [requests]
      by_cases same : k = l
      · subst same
        rw [if_neg new, if_pos List.mem_cons_self, Screen.pausedAt_self]
      · rw [Screen.pausedAt_ne x same]
        simp [Ne.symm same]
    · have later : ks.filter (x.pausedAt k).titleAt = ks.filter x.titleAt := by
        refine List.filter_congr fun l mem => ?_
        exact Screen.titleAt_congr x (Screen.pausedAt_ne x fun e => new (by rw [e]; exact mem))
      have whole := Screen.counted_trans (by rw [Screen.pausedAt_frame]) (Screen.pausedAt_counted x k) counted
      rw [later] at whole
      rw [List.filter_cons]
      split
      · next title =>
        rw [if_pos title, Nat.add_comm] at whole
        exact whole
      · next title =>
        rw [if_neg title, Nat.zero_add] at whole
        exact whole

theorem Screen.paused_frame (x : Screen) :
    ∃ pending counters, x.paused = { x with pendingAt := pending, counters := counters } :=
  (Screen.pausedEach allLevels x (by decide)).1

theorem Screen.paused_level (x : Screen) (l : Level) : x.paused.pendingAt[l] = Request.kept l x.pendingAt[l] := by
  have := (Screen.pausedEach allLevels x (by decide)).2.1 l
  rwa [if_pos (mem_allLevels l)] at this

theorem Screen.paused_counted (x : Screen) : x.counted x.paused .skipped x.pendingTitles.length :=
  (Screen.pausedEach allLevels x (by decide)).2.2

theorem Screen.paused_noCueRequest (x : Screen) : x.paused.NoCueRequest := by
  intro l r low there
  rw [Screen.paused_level] at there
  unfold Request.kept at there
  rw [if_pos low] at there
  simpa using (Option.filter_eq_some_iff.1 there).2

/-! ### The state -/

theorem Screen.titleAt_eq (x : Screen) (l : Level) : x.titleAt l = (x.cueRequest l).any fun r => r.kind == .title := by
  unfold Screen.titleAt Screen.cueRequest
  by_cases low : 2 ≤ l.val
  · rw [if_pos low]
    cases there : x.pendingAt[l] with
    | none => simp
    | some r => cases kind : r.kind <;> simp [low, kind, Option.filter_some]
  · rw [if_neg low]
    simp [low]

section
variable (i : Screen16) (s : State) (l : Level)

theorem State.setScreen_own : s.setScreen i (s.screen i) = s := by
  unfold State.setScreen State.screen
  rw [Fin.getElem_fin, Vector.set_getElem_self]

/-- PAUSE at one level: the screen changes, and a TITLE is journalled. -/
theorem State.pauseLevel_titled {r : Request} (pending : (s.screen i).cueRequest l = some r) (title : r.kind = .title) :
    State.pauseLevel i s l =
      (s.setScreen i ((s.screen i).pausedAt l)).journal (.titleSkipped i l .title 2 r.ident.number 0) := by
  have titled : (s.screen i).titleAt l = true := by
    rw [Screen.titleAt_eq, pending]
    simp [title]
  have unasked : (s.screen i).unaskedAt l = (s.screen i).setPending l none := by
    unfold Screen.unaskedAt
    rw [pending]
    rfl
  unfold State.pauseLevel Screen.pausedAt
  rw [titled, pending, unasked]
  dsimp only
  rw [if_pos title, if_pos rfl]
  unfold State.countOn
  rw [State.setScreen_screen_self, State.setScreen_setScreen]

theorem State.pauseLevel_untitled (untitled : (s.screen i).titleAt l = false) :
    State.pauseLevel i s l = s.setScreen i ((s.screen i).pausedAt l) := by
  unfold State.pauseLevel Screen.pausedAt Screen.unaskedAt
  rw [untitled]
  rw [Screen.titleAt_eq] at untitled
  cases pending : (s.screen i).cueRequest l with
  | none => exact (State.setScreen_own i s).symm
  | some r =>
    rw [pending] at untitled
    have other : r.kind ≠ .title := by simpa using untitled
    dsimp only
    rw [if_neg other]
    rfl

theorem State.pauseLevel_frame : State.pauseLevel i s l =
    { s.setScreen i ((s.screen i).pausedAt l) with smi := (State.pauseLevel i s l).smi } := by
  cases titled : (s.screen i).titleAt l with
  | false => rw [State.pauseLevel_untitled i s l titled]
  | true =>
    have asks := titled
    rw [Screen.titleAt_eq] at asks
    obtain ⟨r, pending, title⟩ := (Option.any_eq_true _ _).1 asks
    rw [State.pauseLevel_titled i s l pending (by simpa using title)]
    exact State.journalAt_onlyBus _ _ (s.setScreen i ((s.screen i).pausedAt l)).onlyBus_refl

end

/-- Some levels of a screen paused. -/
theorem State.pauseLevels_frame (i : Screen16) : ∀ (ks : List Level) (s : State), ks.foldl (State.pauseLevel i) s =
    { s.setScreen i (ks.foldl Screen.pausedAt (s.screen i)) with smi := (ks.foldl (State.pauseLevel i) s).smi }
  | [], s => (State.setScreen_own i s).symm
  | k :: ks, s => by
    have step := State.pauseLevel_frame i s k
    have screen : (State.pauseLevel i s k).screen i = (s.screen i).pausedAt k := by
      rw [step]
      exact State.setScreen_screen_self _ _ _
    have rest := State.pauseLevels_frame i ks (State.pauseLevel i s k)
    rw [screen] at rest
    rw [List.foldl_cons, List.foldl_cons]
    generalize ks.foldl (State.pauseLevel i) (State.pauseLevel i s k) = u at *
    generalize State.pauseLevel i s k = v at *
    rw [rest, step]
    unfold State.setScreen
    dsimp only
    rw [Vector.set_set]

/-- PAUSE on one screen. -/
def State.pauseAt (s : State) (i : Screen16) : State := (allLevels.foldl (State.pauseLevel i) s).evaluate i

theorem State.pauseScreens_eq (s : State) : s.pauseScreens = allScreens.foldl State.pauseAt s := by
  unfold State.pauseScreens
  exact congrArg (fun f => allScreens.foldl f s) (funext fun _ => funext fun _ => rfl)

/-- A screen whose levels and requests stand, and that counts no SKIPPED. -/
structure Screen.Passed (x y : Screen) : Prop where
  stack : y.stack = x.stack
  pending : y.pendingAt = x.pendingAt
  blank : y.blankPending = x.blankPending
  selectors : y.selectors = x.selectors
  uncounted : x.counted y .skipped 0

theorem Screen.Passed.refl (x : Screen) : x.Passed x := ⟨rfl, rfl, rfl, rfl, Screen.counted_refl _ rfl⟩

theorem Screen.Passed.trans {x y z : Screen} (h : x.Passed y) (g : y.Passed z) : x.Passed z :=
  ⟨g.stack.trans h.stack, g.pending.trans h.pending, g.blank.trans h.blank, g.selectors.trans h.selectors,
    Screen.counted_trans (m := 0) h.selectors h.uncounted g.uncounted⟩

/-- A message sent passes a screen. -/
theorem Screen.sentMessage_passed (x : Screen) (m : Message) : x.Passed (x.sentMessage m) := by
  have frame := Screen.sentMessage_frame x m
  have uncounted := Screen.sentMessage_uncounted (x := x) (m := m) (ev := .skipped) (by decide)
  generalize x.sentMessage m = y at *
  rw [frame] at uncounted ⊢
  exact ⟨rfl, rfl, rfl, rfl, uncounted⟩

section
variable {s : State} {i : Screen16}

theorem State.pauseLevels_screen : (allLevels.foldl (State.pauseLevel i) s).screen i = (s.screen i).paused := by
  have frame := State.pauseLevels_frame i allLevels s
  unfold Screen.paused
  generalize allLevels.foldl (State.pauseLevel i) s = u at *
  generalize allLevels.foldl Screen.pausedAt (s.screen i) = x at *
  rw [frame]
  exact State.setScreen_screen_self s i x

theorem State.pauseAt_clock : (s.pauseAt i).clock = s.clock := by
  have frame := State.pauseLevels_frame i allLevels s
  unfold State.pauseAt
  generalize allLevels.foldl (State.pauseLevel i) s = u at *
  have clock : u.clock = s.clock := by rw [frame]; rfl
  by_cases plain : u.isMonitor i = false
  · rw [State.evaluate_eq plain, State.realized_clock, clock]
  · rw [State.evaluate_monitor (Bool.not_eq_false _ ▸ plain), clock]

/-- The other screens are passed. -/
theorem State.pauseAt_passed {j : Screen16} (apart : j ≠ i) : (s.screen j).Passed ((s.pauseAt i).screen j) := by
  have frame := State.pauseLevels_frame i allLevels s
  unfold State.pauseAt
  generalize allLevels.foldl (State.pauseLevel i) s = u at *
  have put : u.screen j = s.screen j := by
    rw [frame]
    exact State.setScreen_screen_ne _ _ (Ne.symm apart)
  rcases State.evaluate_elsewhere (s := u) apart with stands | ⟨m, sent⟩
  · rw [stands, put]
    exact Screen.Passed.refl _
  · rw [sent, put]
    exact Screen.sentMessage_passed _ _

/-- The screen paused asks for no cue. -/
theorem State.pauseAt_noCueRequest : ((s.pauseAt i).screen i).NoCueRequest := by
  refine Screen.noCueRequest_tamed.evaluate ?_
  rw [State.pauseLevels_screen]
  exact Screen.paused_noCueRequest _

/-- The TITLEs discarded are counted (R131, R136). -/
theorem State.pauseAt_counted : ((s.pauseAt i).screen i).selectors = (s.screen i).selectors ∧
    (s.screen i).counted ((s.pauseAt i).screen i) .skipped (s.screen i).pendingTitles.length := by
  have screen := State.pauseLevels_screen (s := s) (i := i)
  have counted := Screen.paused_counted (s.screen i)
  have kept := State.evaluate_keeps (Screen.kept_uncounted (s.screen i).paused (.inl rfl)) i
    (s := allLevels.foldl (State.pauseLevel i) s) (j := i) (by rw [screen]; exact ⟨rfl, Screen.counted_refl _ rfl⟩)
  obtain ⟨pending, counters, frame⟩ := Screen.paused_frame (s.screen i)
  exact ⟨kept.1.trans (by rw [frame]), Screen.counted_trans (n := 0) (by rw [frame]) counted kept.2⟩

/-- An entry without an end stays where only cue requests were pending (R131). -/
theorem State.pauseAt_stays {l : Level} {e : Entry} (low : 2 ≤ l.val) (entry : (s.screen i).stack[l] = some e)
    (endless : e.endTime = none) (blank : (s.screen i).blankPending = false)
    (cues : ∀ r, (s.screen i).pendingAt[l] = some r → r.kind ≠ .notice) :
    ((s.pauseAt i).screen i).contentAt l = some e.content := by
  have screen := State.pauseLevels_screen (s := s) (i := i)
  have idle : (s.screen i).paused.pendingAt[l] = none := by
    rw [Screen.paused_level]
    unfold Request.kept
    rw [if_pos low, Option.filter_eq_none_iff]
    intro r there
    simpa using cues r there
  obtain ⟨pending, counters, frame⟩ := Screen.paused_frame (s.screen i)
  have entry' : (s.screen i).paused.stack[l] = some e := by rw [frame]; exact entry
  have blank' : (s.screen i).paused.blankPending = false := by rw [frame]; exact blank
  unfold State.pauseAt
  generalize allLevels.foldl (State.pauseLevel i) s = u at *
  rw [← screen] at idle entry' blank'
  by_cases plain : u.isMonitor i = false
  · rw [State.evaluate_eq plain, State.realized_screen plain]
    exact Panel.evaluated_contentAt (p := u.panel i) entry' (fun T ends => absurd (endless.symm.trans ends) nofun) idle
      (.inl blank')
  · rw [State.evaluate_monitor (Bool.not_eq_false _ ▸ plain)]
    unfold Screen.contentAt
    rw [entry']
    rfl

end

/-! ### The record of a TITLE discarded -/

/-- No TITLE request is pending at levels 2..7. -/
def Screen.NoTitle (x : Screen) : Prop := ∀ l, x.titleAt l = false

theorem Screen.noTitle_iff {x : Screen} : x.NoTitle ↔ x.pendingTitles = [] := by
  rw [Screen.pendingTitles_eq, List.filter_eq_nil_iff]
  exact ⟨fun h l _ => by simp [h l], fun h l => by simpa using h l (mem_allLevels l)⟩

theorem Screen.titleAt_false {x : Screen} {l : Level} :
    x.titleAt l = false ↔ ∀ r, 2 ≤ l.val → x.pendingAt[l] = some r → r.kind ≠ .title := by
  unfold Screen.titleAt
  cases there : x.pendingAt[l] with
  | none => simp
  | some r => simp

theorem Screen.NoTitle.setPending {x : Screen} {l : Level} {r : Option Request} (h : x.NoTitle)
    (asks : ∀ q, 2 ≤ l.val → r = some q → q.kind ≠ .title) : (x.setPending l r).NoTitle := by
  intro k
  rw [Screen.titleAt_false]
  intro q low there
  by_cases same : l = k
  · subst same
    rw [Screen.setPending_pending_self] at there
    exact asks q low there
  · rw [Screen.setPending_pending_ne _ _ same] at there
    exact Screen.titleAt_false.1 (h k) q low there

theorem Screen.noTitle_tamed : Screen.Tamed Screen.NoTitle where
  congr _ pending h := fun l => by
    rw [← h l]
    exact Screen.titleAt_congr _ (by rw [pending])
  unasked _ _ h := h.setPending nofun
  deferred _ l r pending h := h.setPending fun q low same => by
    cases same
    exact Screen.titleAt_false.1 (h l) r low pending
  removed _ _ h := h
  renewed _ _ _ _ _ _ h := h
  granted _ _ _ _ _ _ h := Screen.NoTitle.setPending h nofun

/-- PAUSE leaves no TITLE. -/
theorem Screen.NoCueRequest.noTitle {x : Screen} (h : x.NoCueRequest) : x.NoTitle := by
  intro l
  rw [Screen.titleAt_false]
  intro r low there title
  have notice := h l r low there
  rw [title] at notice
  cases notice

/-- Without a TITLE to discard nothing is journalled. -/
theorem State.pauseLevels_silent (i : Screen16) : ∀ (ks : List Level) (s : State), ks.Nodup →
    (∀ k ∈ ks, (s.screen i).titleAt k = false) → (ks.foldl (State.pauseLevel i) s).smi = s.smi
  | [], _, _, _ => rfl
  | k :: ks, s, nodup, untitled => by
    obtain ⟨new, rest⟩ := List.nodup_cons.1 nodup
    have step := State.pauseLevel_untitled i s k (untitled k List.mem_cons_self)
    have screen : (State.pauseLevel i s k).screen i = (s.screen i).pausedAt k := by
      rw [step]
      exact State.setScreen_screen_self _ _ _
    rw [List.foldl_cons, State.pauseLevels_silent i ks (State.pauseLevel i s k) rest, step]
    · rfl
    · intro l mem
      rw [screen, ← untitled l (List.mem_cons_of_mem k mem)]
      exact Screen.titleAt_congr _ (Screen.pausedAt_ne _ fun e => new (by rw [e]; exact mem))

/-- The only TITLE pending on a screen is journalled as it is discarded, with room in the queue (R131). -/
theorem State.pauseLevels_record {i : Screen16} {s : State} {l : Level} {r : Request}
    (pending : (s.screen i).pendingAt[l] = some r) (only : (s.screen i).pendingTitles = [l])
    (room : s.smi.journalQueue.length < 16) :
    (⟨s.smi.journalCount, s.clock, .titleSkipped i l .title 2 r.ident.number 0⟩ : JournalRecord) ∈
      (allLevels.foldl (State.pauseLevel i) s).smi.journalQueue := by
  have titles : ∀ k, (s.screen i).titleAt k = true ↔ k = l := fun k => by
    have mem : k ∈ (s.screen i).pendingTitles ↔ k = l := by rw [only, List.mem_singleton]
    rw [← mem, Screen.pendingTitles_eq, List.mem_filter]
    exact (and_iff_right (mem_allLevels k)).symm
  obtain ⟨before, after, walk⟩ := List.append_of_mem (mem_allLevels l)
  have nodup : (before ++ l :: after).Nodup := by rw [← walk]; decide
  obtain ⟨first, -, apart⟩ := List.nodup_append.1 nodup
  have new : l ∉ before := fun h => apart l h l List.mem_cons_self rfl
  have silent := State.pauseLevels_silent i before s first fun k mem => by
    rw [← Bool.not_eq_true, titles]
    exact fun e => new (by rw [← e]; exact mem)
  have frame := State.pauseLevels_frame i before s
  obtain ⟨-, requests, -⟩ := Screen.pausedEach before (s.screen i) first
  rw [walk, List.foldl_append, List.foldl_cons]
  generalize before.foldl (State.pauseLevel i) s = v at *
  generalize before.foldl Screen.pausedAt (s.screen i) = x at *
  have screen : v.screen i = x := by
    rw [frame]
    exact State.setScreen_screen_self s i x
  have here : (v.screen i).pendingAt[l] = some r := by rw [screen, requests, if_neg new, pending]
  have titled : (v.screen i).titleAt l = true := by
    rw [Screen.titleAt_congr (s.screen i) (here.trans pending.symm), titles]
  obtain ⟨low, kind⟩ := by simpa [Screen.titleAt, here] using titled
  have asks : (v.screen i).cueRequest l = some r := by
    unfold Screen.cueRequest
    rw [if_pos low, here]
    simp [Option.filter_some, kind]
  have record : (⟨s.smi.journalCount, s.clock, .titleSkipped i l .title 2 r.ident.number 0⟩ : JournalRecord) ∈
      (State.pauseLevel i v l).smi.journalQueue := by
    have clock : v.clock = s.clock := by rw [frame]; rfl
    rw [State.pauseLevel_titled i v l asks kind, ← silent, ← clock]
    exact State.journal_mem (s := v.setScreen i ((v.screen i).pausedAt l)) _ (by
      show v.smi.journalQueue.length < 16
      rw [silent]
      exact room)
  exact foldl_keeps (fun u k h => (Show.journaled _).pauseLevel i u k h) after _ record

/-- What PAUSE at the other screens leaves of screen `i`, the clock and the journal. -/
structure State.PausedElsewhere (i : Screen16) (s u : State) : Prop where
  clock : u.clock = s.clock
  passed : (s.screen i).Passed (u.screen i)
  records : ∀ r ∈ s.smi.journalQueue, r ∈ u.smi.journalQueue
  silent : (∀ j, j ≠ i → (s.screen j).NoTitle) → u.smi = s.smi ∧ ∀ j, j ≠ i → (u.screen j).NoTitle

theorem State.PausedElsewhere.refl (i : Screen16) (s : State) : State.PausedElsewhere i s s :=
  ⟨rfl, Screen.Passed.refl _, fun _ h => h, fun h => ⟨rfl, h⟩⟩

theorem State.PausedElsewhere.trans {i : Screen16} {s u v : State} (h : State.PausedElsewhere i s u)
    (g : State.PausedElsewhere i u v) : State.PausedElsewhere i s v where
  clock := g.clock.trans h.clock
  passed := h.passed.trans g.passed
  records r mem := g.records r (h.records r mem)
  silent none := by
    obtain ⟨smi, still⟩ := h.silent none
    obtain ⟨smi', still'⟩ := g.silent still
    exact ⟨smi'.trans smi, still'⟩

theorem State.pauseAt_records (s : State) (j : Screen16) (r : JournalRecord) (h : r ∈ s.smi.journalQueue) :
    r ∈ (s.pauseAt j).smi.journalQueue := by
  unfold State.pauseAt
  rw [State.evaluate_smi]
  exact foldl_keeps (fun u k h => (Show.journaled r).pauseLevel j u k h) allLevels s h

theorem State.pauseAt_elsewhere {i j : Screen16} (apart : j ≠ i) (s : State) : State.PausedElsewhere i s (s.pauseAt j) where
  clock := State.pauseAt_clock
  passed := State.pauseAt_passed (Ne.symm apart)
  records := State.pauseAt_records s j
  silent none := by
    refine ⟨?_, fun k other => ?_⟩
    · unfold State.pauseAt
      rw [State.evaluate_smi]
      exact State.pauseLevels_silent j allLevels s (by decide) fun k _ => none j apart k
    · by_cases same : k = j
      · subst same
        exact State.pauseAt_noCueRequest.noTitle
      · exact Screen.noTitle_tamed.congr (State.pauseAt_passed same).stack (State.pauseAt_passed same).pending (none k other)

/-- PAUSE comes to screen `i` and leaves it. -/
theorem State.pauseScreens_around (s : State) (i : Screen16) : ∃ y, State.PausedElsewhere i s y ∧
    State.PausedElsewhere i (y.pauseAt i) s.pauseScreens := by
  rw [State.pauseScreens_eq]
  exact foldl_split (State.PausedElsewhere i) (State.PausedElsewhere.refl i) State.PausedElsewhere.trans
    (fun z j apart => State.pauseAt_elsewhere apart z) s

section
variable (s : State)

theorem State.pauseScreens_noCueRequests : s.pauseScreens.noCueRequests := by
  intro i
  obtain ⟨y, -, last⟩ := State.pauseScreens_around s i
  exact Screen.noCueRequest_tamed.congr last.passed.stack last.passed.pending State.pauseAt_noCueRequest

theorem State.pauseScreens_counted (i : Screen16) :
    (s.screen i).counted (s.pauseScreens.screen i) .skipped (s.screen i).pendingTitles.length := by
  obtain ⟨y, first, last⟩ := State.pauseScreens_around s i
  have titles : (y.screen i).pendingTitles = (s.screen i).pendingTitles := by
    unfold Screen.pendingTitles
    rw [first.passed.pending]
  obtain ⟨selectors, counted⟩ := State.pauseAt_counted (s := y) (i := i)
  rw [titles] at counted
  have whole := Screen.counted_trans first.passed.selectors first.passed.uncounted counted
  rw [Nat.zero_add] at whole
  exact Screen.counted_trans (n := 0) (selectors.trans first.passed.selectors) whole last.passed.uncounted

theorem State.pauseScreens_stays {i : Screen16} {l : Level} {e : Entry} (low : 2 ≤ l.val)
    (entry : (s.screen i).stack[l] = some e) (endless : e.endTime = none) (blank : (s.screen i).blankPending = false)
    (cues : ∀ r, (s.screen i).pendingAt[l] = some r → r.kind ≠ .notice) :
    ∃ x, (s.pauseScreens.screen i).stack[l] = some x ∧ x.serial = e.serial ∧ x.ident = e.ident ∧ x.tuples = e.tuples := by
  obtain ⟨y, first, last⟩ := State.pauseScreens_around s i
  refine Screen.contentAt_some ?_
  rw [Screen.contentAt_congr last.passed.stack]
  refine State.pauseAt_stays low (by rw [first.passed.stack]; exact entry) endless (first.passed.blank.trans blank) ?_
  rw [first.passed.pending]
  exact cues

theorem State.pauseScreens_record {i : Screen16} {l : Level} {r : Request}
    (pending : (s.screen i).pendingAt[l] = some r) (only : (s.screen i).pendingTitles = [l])
    (none : ∀ j, j ≠ i → (s.screen j).pendingTitles = []) (room : s.smi.journalQueue.length < 16) :
    (⟨s.smi.journalCount, s.clock, .titleSkipped i l .title 2 r.ident.number 0⟩ : JournalRecord) ∈
      s.pauseScreens.smi.journalQueue := by
  obtain ⟨y, first, last⟩ := State.pauseScreens_around s i
  obtain ⟨smi, -⟩ := first.silent fun j apart => Screen.noTitle_iff.2 (none j apart)
  refine last.records _ ?_
  unfold State.pauseAt
  rw [State.evaluate_smi, ← smi, ← first.clock]
  refine State.pauseLevels_record ?_ ?_ (by rw [smi]; exact room)
  · rw [first.passed.pending]
    exact pending
  · unfold Screen.pendingTitles at *
    rw [first.passed.pending]
    exact only

end

/-! ### The directive -/

/-- No armed entry is TIMED, and as many are armed. -/
def Scheduler.Untimed (n : Nat) (c : Scheduler) : Prop := c.armed.length = n ∧ ∀ e ∈ c.armed, e.timing ≠ .timed

theorem State.pauseTimers_untimed (s : State) : s.pauseTimers.sch.Untimed s.sch.armed.length := by
  refine ⟨List.length_map _, fun e mem => ?_⟩
  obtain ⟨a, -, rfl⟩ := List.mem_map.1 mem
  split
  · exact nofun
  · next h => exact h

theorem State.suspendTracker_untimed (c : TrackCause) {s : State} {n : Nat} (h : s.sch.Untimed n) :
    (s.suspendTracker c).sch.Untimed n ∧ s.suspendTracker c = { s with
      trk := s.trk.suspended, sch := (s.suspendTracker c).sch, smi := (s.suspendTracker c).smi } ∧
    s.smi.sameScan (s.suspendTracker c).smi := by
  have changed := State.trackerChanged_frame s.trk.state c (s.setTracker s.trk.suspended)
  rw [show (s.setTracker s.trk.suspended).trackerChanged s.trk.state c = s.suspendTracker c from rfl] at changed
  rcases changed.1 with stands | moved
  · refine ⟨?_, ?_, changed.2⟩
    · rw [stands]
      exact h
    · rw [stands]
      rfl
  · refine ⟨?_, ?_, changed.2⟩
    · rw [moved]
      refine ⟨(List.length_map _).trans h.1, fun e mem => ?_⟩
      obtain ⟨a, mem', rfl⟩ := List.mem_map.1 mem
      rw [gatePosition_untimed (h.2 a mem')]
      exact h.2 a mem'
    · rw [moved]
      rfl

/-- PAUSE up to the screens (R171). -/
def State.pauseBegun (s : State) : State :=
  (((s.changeEngine .pausing .pause s.progressSlot 0 0).pauseTimers).suspendTracker .directive).withdrawGo

theorem State.pauseBegun_frame (s : State) : s.pauseBegun = { s with
      trk := s.trk.suspended, wlk := { s.wlk with owedGo := none }, ctl := { s.ctl with engine := .pausing }
      sch := s.pauseBegun.sch, desk := s.pauseBegun.desk, smi := s.pauseBegun.smi } ∧
    s.pauseBegun.sch.Untimed s.sch.armed.length ∧ s.smi.sameScan s.pauseBegun.smi := by
  have changed := State.changeEngine_frame .pausing .pause s.progressSlot 0 0 s
  have scan := State.changeEngine_sameScan .pausing .pause s.progressSlot 0 0 s
  have untimed := State.pauseTimers_untimed (s.changeEngine .pausing .pause s.progressSlot 0 0)
  unfold State.pauseBegun
  generalize s.changeEngine .pausing .pause s.progressSlot 0 0 = a at *
  obtain ⟨untimed, suspended, scan'⟩ := State.suspendTracker_untimed .directive untimed
  generalize a.pauseTimers.suspendTracker .directive = b at *
  obtain ⟨withdrawn, scan''⟩ := State.withdrawGo_frame b
  generalize b.withdrawGo = c at *
  have length : a.sch.armed.length = s.sch.armed.length := by rw [changed]
  refine ⟨?_, ?_, Interface.sameScan_trans scan (Interface.sameScan_trans scan' scan'')⟩
  · rw [withdrawn, suspended]
    dsimp only [State.pauseTimers, State.setArmed]
    rw [changed]
  · rw [← length, withdrawn]
    exact untimed

theorem State.pauseBegun_busy {s : State} (h : s.smi.port.inFlight.isSome = true) :
    s.pauseBegun.smi.port.inFlight.isSome = true := by
  refine State.withdrawGo_busy (Walks.busy.suspendTracker _ _ ?_)
  exact Walks.busy.changeEngine _ _ _ _ _ _ h

/-- A record makes the queue longer by one at most. -/
theorem State.journal_length (s : State) (b : Journal) :
    (s.journal b).smi.journalQueue.length ≤ s.smi.journalQueue.length + 1 := by
  unfold State.journal
  rw [(State.journalAt_journal s.clock b s).2]
  split
  · exact le_of_eq List.length_append
  · exact Nat.le_succ _

theorem State.requestRefresh_queue (s : State) : s.requestRefresh.smi.journalQueue = s.smi.journalQueue := by
  unfold State.requestRefresh
  split
  · rw [State.startRefresh_eq]
    rfl
  · rfl

theorem State.changeEngine_length (e : EngineState) (c : EngineCause) (sl : Option Slot) (l o : Nat) (s : State) :
    (s.changeEngine e c sl l o).smi.journalQueue.length ≤ s.smi.journalQueue.length + 1 := by
  unfold State.changeEngine
  rw [State.requestRefresh_queue]
  exact State.journal_length { s with ctl := { s.ctl with engine := e } } _

theorem State.suspendTracker_length (c : TrackCause) (s : State) :
    (s.suspendTracker c).smi.journalQueue.length ≤ s.smi.journalQueue.length + 1 := by
  unfold State.suspendTracker State.trackerChanged
  split
  · exact Nat.le_succ _
  · exact State.journal_length (s.setTracker s.trk.suspended) _

theorem State.withdrawGo_length (s : State) : s.withdrawGo.smi.journalQueue.length ≤ s.smi.journalQueue.length + 1 := by
  unfold State.withdrawGo
  split
  · exact Nat.le_succ _
  · exact State.journal_length (s.setWalker { s.wlk with owedGo := none }) _

theorem State.pauseBegun_length (s : State) : s.pauseBegun.smi.journalQueue.length ≤ s.smi.journalQueue.length + 3 := by
  have first := State.changeEngine_length .pausing .pause s.progressSlot 0 0 s
  have second := State.suspendTracker_length .directive (s.changeEngine .pausing .pause s.progressSlot 0 0).pauseTimers
  have third := State.withdrawGo_length
    ((s.changeEngine .pausing .pause s.progressSlot 0 0).pauseTimers.suspendTracker .directive)
  have timers : (s.changeEngine .pausing .pause s.progressSlot 0 0).pauseTimers.smi =
      (s.changeEngine .pausing .pause s.progressSlot 0 0).smi := rfl
  rw [timers] at second
  unfold State.pauseBegun
  omega

/-- The PAUSE is held (R171). -/
def State.pauseHeld (s : State) (slot : Option Slot) : State :=
  { s with ctl := { s.ctl with progress := none, heldPause := slot } }

theorem State.pauseShow_eq (s : State) :
    s.pauseShow = (s.pauseBegun.pauseScreens.pauseHeld s.progressSlot).testQuiet := by
  unfold State.pauseShow State.pauseBegun State.pauseHeld
  rfl

/-- The result words of a PAUSE found quiet wait behind the access in flight (R172, R188). -/
theorem State.testQuiet_waits {v : State} {p : Slot} {f : InFlight} (held : v.ctl.heldPause = some p)
    (quiet : v.isQuiet = true) (busy : v.smi.port.inFlight = some f) :
    v.testQuiet.waitsBehind (.writing (.resultWords p) (v.resultAddress p) (resultBytes []) .urgent) f := by
  have inFlight := (Ends.inFlight f).changeEngine .paused .quiet (some p) 0 0 (s := v) busy
  have address : (v.changeEngine .paused .quiet (some p) 0 0).resultAddress p = v.resultAddress p := by
    unfold State.resultAddress State.slotAddress
    rw [(State.changeEngine_sameScan .paused .quiet (some p) 0 0 v).1]
  unfold State.testQuiet
  rw [held]
  dsimp only
  rw [if_pos quiet]
  generalize v.changeEngine .paused .quiet (some p) 0 0 = w at *
  rw [← address]
  exact State.enqueue_waitsBehind (s := w.setOutcomes (w.smi.outcomes ++
    [{ slot := p, code := .ok, results := [], writing := true }])) _ inFlight

/-- A scan leaves outcomes whose writes are all in flight as they are (R187). -/
theorem State.scanOutcomes_outcomes {s : State} (writing : ∀ o ∈ s.smi.outcomes, o.writing = true) :
    s.scanOutcomes.smi.outcomes = s.smi.outcomes := by
  unfold State.scanOutcomes
  split
  · unfold State.afterOutcomes
    split
    · rfl
    · rfl
  · next o os outcomes =>
    have any : (o :: os).any (·.writing) = true :=
      List.any_eq_true.2 ⟨o, List.mem_cons_self, writing o (by rw [outcomes]; exact List.mem_cons_self)⟩
    rw [if_pos any]
    rfl

theorem State.startOwedScan_outcomes {s : State} (writing : ∀ o ∈ s.smi.outcomes, o.writing = true) :
    s.startOwedScan.smi.outcomes = s.smi.outcomes := by
  unfold State.startOwedScan
  split
  · exact State.scanOutcomes_outcomes (s := { s with smi := { s.smi with scanRequest := false } }) writing
  · rfl

/-- The end of a directive, once a held PAUSE has been tested: the interface alone changes, and what waits still waits. -/
theorem State.startOwedScan_freePort (s : State) (writing : ∀ o ∈ s.smi.outcomes, o.writing = true) :
    s.startOwedScan.freePort = { s with smi := s.startOwedScan.freePort.smi } ∧
    s.startOwedScan.freePort.smi.outcomes = s.smi.outcomes ∧
    s.startOwedScan.freePort.smi.rotation = s.smi.rotation ∧
    (∀ r ∈ s.smi.journalQueue, r ∈ s.startOwedScan.freePort.smi.journalQueue) ∧
    ∀ a f, s.waitsBehind a f → s.startOwedScan.freePort.smi.port.holds a := by
  refine ⟨?_, State.startOwedScan_outcomes writing, (State.startOwedScan_kept s).2.1, fun r mem => ?_, fun a f waits => ?_⟩
  · have bus : s.onlyBus s.startOwedScan := (Bus.only s).startOwedScan s s.onlyBus_refl
    unfold State.onlyBus at bus
    generalize s.startOwedScan = w at *
    rw [bus]
    rfl
  · exact (Bus.journaled r).startOwedScan s mem
  · exact ((Bus.waitsBehind a f).startOwedScan s waits).freePort

theorem State.testQuiet_rotation (s : State) : s.testQuiet.smi.rotation = s.smi.rotation := by
  unfold State.testQuiet
  split
  · rfl
  · split
    · exact (State.changeEngine_sameScan _ _ _ _ _ s).2.2.2.2.2.2.2.1
    · rfl

/-- The state after a step in which a PAUSE has been held and tested: it is completed with no link BUSY, and else stands. -/
structure State.PauseTested (v u : State) (slot : Slot) : Prop where
  frame : u = { v with ctl := u.ctl, smi := u.smi }
  rotation : u.smi.rotation = v.smi.rotation
  records : ∀ r ∈ v.smi.journalQueue, r ∈ u.smi.journalQueue
  ended : (u.ctl = { v.ctl with engine := .paused, heldPause := none } ∧ (∀ i, (u.link i).state ≠ .busy) ∧
      v.handedBack u slot .ok []) ∨
    (u.ctl = v.ctl ∧ (∃ i, (u.link i).state = .busy) ∧ u.smi.outcomes = v.smi.outcomes)

theorem State.pauseHeld_tested {v : State} {slot : Slot} {f : InFlight} (held : v.ctl.heldPause = some slot)
    (empty : v.smi.outcomes = []) (busy : v.smi.port.inFlight = some f) :
    v.PauseTested (v.testQuiet.startOwedScan.freePort) slot := by
  have frame := State.testQuiet_frame v
  have rotation := State.testQuiet_rotation v
  have records := fun r => (Ends.journaled r).testQuiet v
  have links (j : Screen16) : v.testQuiet.link j = v.link j := by
    rw [frame]
    rfl
  obtain ⟨-, tested⟩ := State.testQuiet_tested (s := v) (v := v) rfl rfl rfl
  obtain ⟨quieted, waited⟩ := tested slot held
  simp only [links] at quieted waited
  have waits := State.testQuiet_waits (v := v) (f := f) held
  generalize v.testQuiet = w at *
  have ended (writing : ∀ o ∈ w.smi.outcomes, o.writing = true) := State.startOwedScan_freePort w writing
  by_cases quiet : ∀ j, (v.link j).state ≠ .busy
  · obtain ⟨ctl, outcomes, -⟩ := quieted quiet
    rw [empty, List.nil_append] at outcomes
    obtain ⟨frame', outcomes', rotation', records', holds⟩ := ended fun o mem => by
      rw [outcomes, List.mem_singleton] at mem
      rw [mem]
    have port := holds _ _ (waits (State.isQuiet_iff.2 quiet) busy)
    generalize w.startOwedScan.freePort = u at *
    refine ⟨by rw [frame', frame], rotation'.trans rotation, fun r mem => records' r (records r mem), .inl ⟨?_, ?_, ?_, port⟩⟩
    · rw [frame']
      exact ctl
    · intro i
      have link : u.link i = v.link i := by rw [frame', frame]; rfl
      rw [link]
      exact quiet i
    · rw [outcomes', outcomes, empty]
      rfl
  · rw [not_forall] at quiet
    obtain ⟨i, noisy⟩ := quiet
    have noisy : (v.link i).state = .busy := not_not.1 noisy
    obtain ⟨ctl, outcomes⟩ := waited ⟨i, noisy⟩
    obtain ⟨frame', outcomes', rotation', records', -⟩ := ended fun o mem => by
      rw [outcomes, empty] at mem
      cases mem
    generalize w.startOwedScan.freePort = u at *
    refine ⟨by rw [frame', frame], rotation'.trans rotation, fun r mem => records' r (records r mem), .inr ⟨?_, ⟨i, ?_⟩, ?_⟩⟩
    · rw [frame']
      exact ctl
    · have link : u.link i = v.link i := by rw [frame', frame]; rfl
      rw [link]
      exact noisy
    · rw [outcomes', outcomes]

/-- Settles O21: the show is paused, the cue requests are discarded, and the PAUSE is tested for quiet. -/
theorem pauseCarriedOut : Obligations.PauseCarriedOut := by
  intro t s slot words taken engine
  obtain ⟨f, busy⟩ := State.taken_busy taken
  have allowed : allowedIn 3 s.ctl.engine = true := by rw [engine]; rfl
  have checked : ((s.begin t).taking slot 3 words).checked 3 noParameters (fun _ => State.pauseShow) words =
      ((s.begin t).taking slot 3 words).pauseShow := State.checked_act _ allowed rfl
  have step := State.takeDirective_eq t noParameters (fun _ => State.pauseShow) taken
  rw [checked, State.pauseShow_eq] at step
  obtain ⟨begun, untimed, scan⟩ := State.pauseBegun_frame ((s.begin t).taking slot 3 words)
  have length := State.pauseBegun_length ((s.begin t).taking slot 3 words)
  have loaded := State.pauseBegun_busy (s := (s.begin t).taking slot 3 words) (Option.isSome_iff_exists.2 ⟨f, busy⟩)
  have own : ((s.begin t).taking slot 3 words).progressSlot = some slot := rfl
  rw [own] at step
  generalize ((s.begin t).taking slot 3 words).pauseBegun = b at *
  obtain ⟨⟨trk, wlk, sch, du, desk⟩, ctl, clock, -, scan'⟩ := (Screens.only b).pauseScreens b b.onlyScreens_refl
  have quiet := State.pauseScreens_noCueRequests b
  have counted := State.pauseScreens_counted b
  have stays := fun i l e => State.pauseScreens_stays b (i := i) (l := l) (e := e)
  have record := fun i l r => State.pauseScreens_record b (i := i) (l := l) (r := r)
  have screens (i : Screen16) : b.screen i = s.screen i := by rw [begun]; rfl
  obtain ⟨g, loaded⟩ := Option.isSome_iff_exists.1 loaded
  have busy' := (Screens.inFlight g).pauseScreens b loaded
  generalize b.pauseScreens = d at *
  obtain ⟨base, -, -, outcomes, -, -, -, rotation, -⟩ := Interface.sameScan_trans scan scan'
  have empty : (d.pauseHeld (some slot)).smi.outcomes = [] := outcomes.trans taken.2.2
  have control : (d.pauseHeld (some slot)).ctl =
      { s.ctl with engine := .pausing, progress := none, heldPause := some slot } := by
    show { d.ctl with progress := none, heldPause := some slot } = _
    rw [ctl, begun]
    rfl
  have tested := State.pauseHeld_tested (v := d.pauseHeld (some slot)) (slot := slot) (f := g) rfl empty busy'
  refine ⟨_, congrArg Host.Outcome.next step, ?_⟩
  generalize (d.pauseHeld (some slot)).testQuiet.startOwedScan.freePort = u at *
  obtain ⟨frame, rotation', records, ended⟩ := tested
  have shown (i : Screen16) : u.screen i = d.screen i := by rw [frame]; rfl
  have trk' : u.trk = s.trk.suspended := by
    rw [frame]
    show d.trk = _
    rw [trk, begun]
    rfl
  have wlk' : u.wlk = { s.wlk with owedGo := none } := by
    rw [frame]
    show d.wlk = _
    rw [wlk, begun]
    rfl
  have sch' : u.sch = b.sch := by
    rw [frame]
    exact sch
  have du' : u.du = s.du := by
    rw [frame]
    show d.du = _
    rw [du, begun]
    rfl
  have now : b.clock = max s.clock t := by rw [begun]; rfl
  have ctl' : u.ctl.progress = none := by
    rcases ended with ⟨ctl', -⟩ | ⟨ctl', -⟩ <;> rw [ctl', control]
  refine ⟨⟨ctl', rotation'.trans rotation⟩, by rw [trk']; rfl, by rw [trk']; rfl, by rw [trk']; rfl, by rw [trk']; rfl,
    by rw [trk']; rfl, by rw [sch']; exact untimed.1, by rw [sch']; exact untimed.2, by rw [wlk'], by rw [wlk'],
    by rw [wlk'], du', ?_, ?_, ?_, ?_, ?_⟩
  · rcases ended with ⟨ctl', still, handed⟩ | ⟨ctl', noisy, outs⟩
    · exact .inl ⟨by rw [ctl'], by rw [ctl'], still, State.handedBack_of (v := d.pauseHeld (some slot)) outcomes base handed⟩
    · exact .inr ⟨by rw [ctl', control], by rw [ctl', control], noisy, outs.trans outcomes⟩
  · intro i l q low there
    rw [shown] at there
    exact quiet i l q low there
  · intro i l e low entry endless blank cues
    rw [shown]
    exact stays i l e low (by rw [screens]; exact entry) endless (by rw [screens]; exact blank) (by rw [screens]; exact cues)
  · intro i
    rw [shown, ← screens]
    exact counted i
  · intro i l q pending only none room
    have there := record i l q ?_ ?_ (fun j apart => ?_) ?_
    · rw [now] at there
      exact ⟨_, records _ there⟩
    · rw [screens]
      exact pending
    · rw [screens]
      exact only
    · rw [screens]
      exact none j apart
    · exact Nat.lt_of_le_of_lt length (by
        show s.smi.journalQueue.length + 3 < 16
        omega)

end Sys2Proof.Machine
end

section
/-! A request placed at a screen, seen from the state before the step (R116): when it waits, and when it is shown or granted at
once (R117, R120, R121). -/

namespace Sys2Proof.Machine

/-! ### The screen asked -/

/-- Screen `i` of `s` has been given the request `r` in `b`, is evaluated then, and is left in `u` as that has left it. -/
structure State.Asked (s b u : State) (i : Screen16) (r : Request) : Prop where
  plain : s.isMonitor i = false
  alike : State.Alike i s b
  screen : b.screen i = { (s.screen i).setPending r.level (some r) with counters := (b.screen i).counters }
  link : b.link i = s.link i
  rest : State.Untouched i (b.evaluate i) u

/-- The request that `r` overwrites is counted and journalled (R116). -/
def State.displace (i : Screen16) (r : Request) (s : State) : State :=
  match (s.screen i).pendingAt[r.level] with
  | none => s
  | some old => s.overwrite i old r

theorem State.displace_free {s : State} {i : Screen16} {r : Request} (free : (s.screen i).pendingAt[r.level] = none) :
    s.displace i r = s := by
  unfold State.displace
  rw [free]

/-- The screen `i` given the request `r`. -/
def State.asking (i : Screen16) (r : Request) (s : State) : State :=
  (s.displace i r).setScreen i (((s.displace i r).screen i).setPending r.level (some r))

theorem State.placeRequest_plain {s : State} {i : Screen16} (r : Request) (plain : s.isMonitor i = false) :
    s.placeRequest i r = (s.asking i r).evaluate i := by
  unfold State.placeRequest
  rw [plain]
  rfl

theorem State.placeRequest_monitor {s : State} {i : Screen16} (r : Request) (monitor : s.isMonitor i = true) :
    s.placeRequest i r = s := by
  unfold State.placeRequest
  rw [monitor]
  rfl

section
variable (s : State) (i : Screen16) (r : Request)

/-- A request overwritten changes counters of its screen and the journal. -/
theorem State.displace_eq : s.displace i r = s ∨ ∃ c, s.displace i r = (s.countOn i .skipped).journal c := by
  unfold State.displace State.overwrite
  split
  · exact .inl rfl
  · split
    · exact .inl rfl
    · exact .inr ⟨_, rfl⟩
    · exact .inr ⟨_, rfl⟩

theorem State.countOn_untouched {j : Screen16} (apart : i ≠ j) (ev : CountEvent) :
    State.Untouched j s (s.countOn i ev) :=
  State.setScreen_untouched_plain apart fun _ => ⟨rfl, rfl⟩

theorem State.displace_untouched {j : Screen16} (apart : i ≠ j) : State.Untouched j s (s.displace i r) := by
  rcases s.displace_eq i r with same | ⟨c, counted⟩
  · rw [same]
    exact State.Untouched.refl j s
  · rw [counted]
    exact (s.countOn_untouched i apart .skipped).trans (State.journalAt_untouched j _ c _)

/-- What the overwriting leaves of the screen and its link. -/
theorem State.displace_own : State.Alike i s (s.displace i r) ∧ (s.displace i r).clock = s.clock ∧
    (s.displace i r).link i = s.link i ∧
    (s.displace i r).screen i = { s.screen i with counters := ((s.displace i r).screen i).counters } := by
  rcases s.displace_eq i r with same | ⟨c, counted⟩
  · rw [same]
    exact ⟨State.Alike.refl i s, rfl, rfl, rfl⟩
  · have journalled := State.journalAt_untouched i (s.countOn i .skipped).clock c (s.countOn i .skipped)
    have screen : (s.displace i r).screen i = (s.screen i).count .skipped := by
      rw [counted]
      exact journalled.screen.trans (State.setScreen_screen_self _ _ _)
    refine ⟨?_, ?_, ?_, ?_⟩
    · rw [counted]
      exact (State.setScreen_plain_alike (x := (s.screen i).count .skipped) rfl).trans journalled.alike
    · rw [counted]
      exact journalled.clock
    · rw [counted]
      exact journalled.link
    · rw [screen]
      rfl

/-- A request placed elsewhere leaves the screen alone, unless it is the copy's. -/
theorem State.placeRequest_untouched {j : Screen16} (apart : i ≠ j) (notCopy : s.arb.mirror ≠ some (i, j)) :
    State.Untouched j s (s.placeRequest i r) := by
  cases plain : s.isMonitor i with
  | true =>
    rw [State.placeRequest_monitor r plain]
    exact State.Untouched.refl j s
  | false =>
    rw [State.placeRequest_plain r plain]
    have counted := s.displace_untouched i r apart
    have put : State.Untouched j (s.displace i r) (s.asking i r) :=
      State.setScreen_untouched_plain apart fun _ => ⟨rfl, rfl⟩
    have asked := counted.trans put
    exact asked.trans (State.evaluate_untouched apart (by rw [asked.mirror]; exact notCopy))

theorem State.placeRequest_mirror : (s.placeRequest i r).arb.mirror = s.arb.mirror := by
  cases plain : s.isMonitor i with
  | true => rw [State.placeRequest_monitor r plain]
  | false =>
    rw [State.placeRequest_plain r plain, State.evaluate_mirror]
    exact (s.displace_own i r).1.mirror

end

/-- A request placed at a screen by a walk that begins in `v` and touches the screen in no other step. -/
theorem State.asked_of {s v w u : State} {i : Screen16} {r : Request} (plain : s.isMonitor i = false)
    (alike : State.Alike i s v) (screen : v.screen i = s.screen i) (link : v.link i = s.link i)
    (first : State.Untouched i v w) (last : State.Untouched i (w.placeRequest i r) u) : s.Asked (w.asking i r) u i r := by
  have before := alike.trans first.alike
  have here : w.isMonitor i = false := (State.isMonitor_alike before i).trans plain
  obtain ⟨own, -, sameLink, counted⟩ := w.displace_own i r
  have self : (w.asking i r).screen i = ((w.displace i r).screen i).setPending r.level (some r) :=
    State.setScreen_screen_self _ _ _
  rw [State.placeRequest_plain r here] at last
  refine ⟨plain, (before.trans own).trans (State.setScreen_plain_alike rfl), ?_,
    sameLink.trans (first.link.trans link), last⟩
  rw [self]
  show ((w.displace i r).screen i).setPending r.level (some r) = { (s.screen i).setPending r.level (some r) with
    counters := ((w.displace i r).screen i).counters }
  rw [counted, first.screen, screen]
  rfl

/-! ### What a panel keeps of a request that is not judged -/

/-- What taking off an ended request, or any entry, keeps is kept by step 1. -/
theorem Screen.endNotices_of {P : Screen → Prop} {now : Time} (ready : Bool)
    (request : ∀ y k, P y → (Screen.pendingAt y)[k].any (fun r => r.endTime.any fun t => decide (t ≤ now)) = true →
      P (y.setPending k none)) (entry : ∀ y k, P y → P (Screen.setEntry y k none)) {x : Screen} (h : P x) :
    P (x.endNotices now ready) := by
  refine foldl_keeps (P := P) (fun x k hx => ?_) allLevels x h
  unfold Screen.endNoticeAt
  extract_lets y
  have hy : P y := by
    unfold y
    split
    · next ended => exact request x k hx ended
    · exact hx
  split
  · exact entry y k hy
  · exact hy

theorem Screen.endNotices_pending {x : Screen} {l : Level} {r : Request} {now : Time} (ready : Bool)
    (pending : x.pendingAt[l] = some r) (ahead : ∀ T, r.endTime = some T → now < T) :
    (x.endNotices now ready).pendingAt[l] = some r := by
  refine Screen.endNotices_of (P := fun y : Screen => y.pendingAt[l] = some r) ready (fun y k hy ended => ?_)
    (fun y k hy => hy) pending
  have apart : k ≠ l := by
    rintro rfl
    rw [hy] at ended
    obtain ⟨T, ends, past⟩ := Option.any_eq_true _ _ |>.1 (show r.endTime.any _ = true from ended)
    exact absurd (of_decide_eq_true past) (Nat.not_le_of_lt (ahead T ends))
  exact (Screen.setPending_pending_ne y none apart).trans hy

theorem Screen.carryOutBlank_pendingAt (x : Screen) (ready : Bool) : (x.carryOutBlank ready).pendingAt = x.pendingAt := by
  unfold Screen.carryOutBlank
  split
  · dsimp only
    split
    · split <;> rfl
    · rfl
  · rfl

/-- A walk over the levels that leaves the requests of the others alone. -/
theorem Panel.judgeEach_pending {s : State} {i : Screen16} {l : Level} {r : Request} (ks : List Level) {p : Panel}
    (late : s.clock < r.release) (pending : p.screen.pendingAt[l] = some r) :
    (ks.foldl (Panel.judge s i) p).screen.pendingAt[l] = some r := by
  refine foldl_keeps (P := fun q : Panel => q.screen.pendingAt[l] = some r) (fun q k hq => ?_) ks p pending
  by_cases same : k = l
  · subst same
    rw [Panel.judge_idle fun r' pending' => ?_]
    · exact hq
    · rw [hq] at pending'
      cases pending'
      rw [← Bool.not_eq_true, Screen.eligible_iff]
      exact fun eligible => absurd eligible.1 (Nat.not_le_of_lt late)
  · exact (Panel.judge_pending_ne (Ne.symm same)).trans hq

/-- Nothing is visible after an entry has been taken off. -/
theorem Screen.visibleTop_none_setEntry {x : Screen} (k : Level) (bare : x.visibleTop = none) :
    (x.setEntry k none).visibleTop = none := by
  rw [Screen.visibleTop_none] at bare ⊢
  intro m unmasked
  by_cases same : k = m
  · subst same
    exact Screen.setEntry_stack_self _ _ _
  · exact (Screen.setEntry_stack_ne x none same).trans (bare m unmasked)

theorem Screen.endNotices_bare {x : Screen} (now : Time) (ready : Bool) (bare : x.visibleTop = none) :
    (x.endNotices now ready).visibleTop = none :=
  Screen.endNotices_of (P := fun y : Screen => y.visibleTop = none) ready
    (fun _ _ hy _ => (Screen.visibleTop_congr rfl rfl).trans hy) (fun _ k hy => Screen.visibleTop_none_setEntry k hy) bare

/-- Steps 1 and 2 on a screen with no notice ended and nothing for a desk BLANK to take down. -/
theorem Panel.opened_bare {s : State} {i : Screen16} {p : Panel} (ends : p.screen.noneEnded s.clock)
    (bare : p.screen.blankPending = false ∨ p.screen.visibleTop = none) :
    ∃ flag, p.opened s i = p.put { p.screen with blankPending := flag } := by
  unfold Panel.opened
  rw [Screen.endNotices_stands (p.ready s i) ends]
  rcases bare with clear | bare
  · exact ⟨p.screen.blankPending, congrArg p.put (Screen.carryOutBlank_stands (.inl clear))⟩
  · have bare : ({ p.screen with blankPending := false } : Screen).visibleTop = none := bare
    unfold Screen.carryOutBlank
    split
    · dsimp only
      rw [bare]
      exact ⟨false, rfl⟩
    · exact ⟨p.screen.blankPending, rfl⟩

/-- Step 4 shows the visible top alone: an entry at another level stands as it is. -/
theorem Panel.refreshed_stack_ne {s : State} {i : Screen16} {o : TransOverride} {p : Panel} {m l : Level} {y : Entry}
    (top : p.screen.visibleTop = some (m, y)) (apart : m ≠ l) :
    (p.refreshed s i o).screen.stack[l] = p.screen.stack[l] := by
  unfold Panel.refreshed
  split
  · rw [top]
    dsimp only
    split
    · rfl
    · have stack : (p.shown s i m y y.override).screen.stack =
          p.screen.stack.set m (some (y.onAir (p.dwellOf s i m y y.override) s.clock)) := by rw [Panel.shown_screen]
      refine (congrArg (fun v : Vector (Option Entry) 8 => v[l]) stack).trans ?_
      exact Vector.getElem_set_ne _ _ fun e => apart (Fin.ext e)
  · rfl

/-- A panel on a dark link with nothing visible, at which a TITLE or NOTICE waits. -/
structure Panel.DarkWait (p : Panel) (l : Level) (r : Request) : Prop where
  unsent : p.message = none
  bare : p.screen.visibleTop = none
  pending : p.screen.pendingAt[l] = some r

section
variable {s : State} {i : Screen16} {l : Level} {r : Request} {p : Panel} (dark : s.linkReady i = false)
  (kind : r.kind ≠ .blank)

theorem Panel.DarkWait.discarded {k : Level} (h : p.DarkWait l r) (apart : k ≠ l) :
    (p.put (p.screen.setPending k none)).DarkWait l r :=
  ⟨h.unsent, (Screen.visibleTop_congr rfl rfl).trans h.bare, (Screen.setPending_pending_ne p.screen none apart).trans h.pending⟩

theorem Panel.DarkWait.unready (dark : s.linkReady i = false) (h : p.DarkWait l r) : p.ready s i = false :=
  (Panel.ready_of_unsent h.unsent).trans dark

include dark kind

theorem Panel.DarkWait.judge (h : p.DarkWait l r) (k : Level) : (p.judge s i k).DarkWait l r := by
  have show_ (q : Request) : p.judgeShow s i k q = p := by
    unfold Panel.judgeShow
    rw [h.bare, h.unready dark]
    rfl
  unfold Panel.judge
  split
  · exact h
  · next q pending =>
    split
    · split
      · next blank =>
        have apart : k ≠ l := by
          rintro rfl
          rw [h.pending] at pending
          cases pending
          exact kind blank
        have discarded := h.discarded apart
        unfold Panel.judgeBlank
        split
        · exact discarded
        · split
          · next shown =>
            obtain ⟨e, v, top, -⟩ := Screen.isShownTop_iff.1 shown
            rw [h.bare] at top
            cases top
          · exact ⟨discarded.unsent, Screen.visibleTop_none_setEntry k discarded.bare, discarded.pending⟩
      · rw [show_]
        exact h
      · rw [show_]
        exact h
    · exact h

theorem Panel.DarkWait.judgeEach (ks : List Level) (h : p.DarkWait l r) : (ks.foldl (Panel.judge s i) p).DarkWait l r :=
  foldl_keeps (P := fun q : Panel => q.DarkWait l r) (fun _ k hq => hq.judge dark kind k) ks p h

/-- The whole evaluation of such a panel leaves the request waiting, and sends nothing. -/
theorem Panel.DarkWait.evaluated (ahead : ∀ T, r.endTime = some T → s.clock < T) (h : p.DarkWait l r) :
    (p.evaluated s i).DarkWait l r := by
  have opened : (p.opened s i).DarkWait l r := by
    unfold Panel.opened
    rw [h.unready dark, Screen.carryOutBlank_stands (.inr rfl)]
    have bare := Screen.endNotices_bare s.clock false h.bare
    have pending := Screen.endNotices_pending false h.pending ahead
    generalize p.screen.endNotices s.clock false = x at *
    exact ⟨h.unsent, bare, pending⟩
  have judged : (p.judged s i).DarkWait l r := by
    unfold Panel.judged
    exact opened.judgeEach dark kind allLevels
  unfold Panel.evaluated Panel.ended
  rw [Panel.refreshed_of_unready _ (judged.unready dark)]
  generalize p.judged s i = q at *
  exact ⟨judged.unsent, (Screen.visibleTop_congr rfl rfl).trans judged.bare, judged.pending⟩

end

/-- A request not yet released stands at its level through an evaluation (R117). -/
theorem Panel.evaluated_unreleased {s : State} {i : Screen16} {l : Level} {r : Request} {p : Panel}
    (late : s.clock < r.release) (ahead : ∀ T, r.endTime = some T → s.clock < T) (pending : p.screen.pendingAt[l] = some r) :
    (p.evaluated s i).screen.pendingAt[l] = some r := by
  have opened : (p.opened s i).screen.pendingAt[l] = some r := by
    rw [Panel.opened_screen, Screen.carryOutBlank_pendingAt]
    exact Screen.endNotices_pending _ pending ahead
  have judged : (p.judged s i).screen.pendingAt[l] = some r := by
    unfold Panel.judged
    exact Panel.judgeEach_pending allLevels late opened
  unfold Panel.evaluated Panel.ended
  generalize p.judged s i = q at *
  exact (congrArg (fun v : Vector (Option Request) 8 => v[l]) Panel.refreshed_pendingAt).trans judged

/-! ### What an asked screen is left with -/

namespace State.Asked

variable {s b u : State} {i : Screen16} {r : Request} (h : s.Asked b u i r)
include h

theorem here : b.isMonitor i = false := (State.isMonitor_alike h.alike i).trans h.plain

theorem mirror : (b.evaluate i).arb.mirror = s.arb.mirror := (State.evaluate_mirror i b).trans h.alike.mirror

theorem clocks : u.clock = b.clock := by
  rw [h.rest.clock, State.evaluate_eq h.here]
  exact State.realized_clock _

theorem pending : (b.screen i).pendingAt[r.level] = some r := by
  rw [h.screen]
  exact Screen.setPending_pending_self (s.screen i) r.level _

theorem stack : (b.screen i).stack = (s.screen i).stack := by
  rw [h.screen]
  rfl

theorem top : (b.screen i).visibleTop = (s.screen i).visibleTop :=
  Screen.visibleTop_congr (by rw [h.screen]; rfl) h.stack

theorem evaluated : u.screen i = ((b.panel i).evaluated b i).screen := by
  rw [h.rest.screen, State.evaluate_eq h.here, State.realized_screen h.here]

theorem silent (unsent : ((b.panel i).evaluated b i).message = none) : u.link i = s.link i := by
  rw [h.rest.link, State.evaluate_eq h.here, State.realized_link h.here, unsent]
  exact h.link

theorem waits_unreleased (late : u.clock < r.release) (ahead : ∀ T, r.endTime = some T → u.clock < T) : u.waitsAt i r := by
  rw [h.clocks] at late ahead
  unfold State.waitsAt
  rw [h.evaluated]
  exact Panel.evaluated_unreleased late ahead h.pending

theorem waits_dark (kind : r.kind ≠ .blank) (ahead : ∀ T, r.endTime = some T → u.clock < T)
    (dark : (s.link i).state ≠ .ready) (bare : (s.screen i).visibleTop = none) :
    u.waitsAt i r ∧ u.link i = s.link i := by
  rw [h.clocks] at ahead
  have unready : b.linkReady i = false := by
    unfold State.linkReady
    rw [h.link]
    simpa using dark
  have waits : ((b.panel i).evaluated b i).DarkWait r.level r :=
    Panel.DarkWait.evaluated unready kind ahead ⟨rfl, h.top.trans bare, h.pending⟩
  refine ⟨?_, h.silent waits.unsent⟩
  unfold State.waitsAt
  rw [h.evaluated]
  exact waits.pending

end State.Asked

/-- The request `r` finds nothing else to judge at screen `i` by time `now`: it is released and unmasked, no other request is
pending, no notice on the screen ends, and a desk BLANK has nothing to take down (R119). -/
structure Screen.Welcomes (x : Screen) (r : Request) (now : Time) : Prop where
  kind : r.kind ≠ .blank
  released : r.release ≤ now
  ahead : ∀ T, r.endTime = some T → now < T
  unmasked : x.masked r.level = false
  flag : x.blankPending = false ∨ x.visibleTop = none
  others : ∀ m : Level, m ≠ r.level → x.pendingAt[m] = none
  entries : ∀ (m : Level) (y : Entry), x.stack[m] = some y → y.endTime = none

/-- The request stands above all that is visible, or is the operator's for the level of the shown top (R120, R121). -/
def Screen.Yields (x : Screen) (r : Request) : Prop := ∀ m y, x.visibleTop = some (m, y) →
  r.level < m ∨ (m = r.level ∧ y.visibleSince ≠ none ∧ r.operator = true)

theorem Screen.yields_of_bare {x : Screen} {r : Request} (bare : x.visibleTop = none) : x.Yields r := by
  intro m y top
  rw [bare] at top
  cases top

namespace State.Asked

variable {s b u : State} {i : Screen16} {r : Request} (h : s.Asked b u i r) (welcome : (s.screen i).Welcomes r u.clock)
include h

/-- The panel that step 3 begins with: a desk BLANK with nothing to take down may have left its flag. -/
def opening (b : State) (i : Screen16) (flag : Bool) : Panel := (b.panel i).put { b.screen i with blankPending := flag }

omit h in
theorem opening_ready (b : State) (i : Screen16) (flag : Bool) : (opening b i flag).ready b i = b.linkReady i :=
  Panel.ready_of_unsent rfl

omit h in
theorem opening_top (b : State) (i : Screen16) (flag : Bool) :
    (opening b i flag).screen.visibleTop = (b.screen i).visibleTop := rfl

include welcome

theorem opened : ∃ flag, (b.panel i).opened b i = opening b i flag := by
  refine Panel.opened_bare ?_ ?_
  · rintro m T (entry | request)
    · obtain ⟨y, there, ends⟩ := Option.bind_eq_some_iff.1 entry
      have there : (b.screen i).stack[m] = some y := there
      rw [h.stack] at there
      rw [welcome.entries m y there] at ends
      cases ends
    · obtain ⟨q, there, ends⟩ := Option.bind_eq_some_iff.1 request
      have there : (b.screen i).pendingAt[m] = some q := there
      by_cases same : m = r.level
      · subst same
        rw [h.pending] at there
        cases there
        rw [← h.clocks]
        exact welcome.ahead T ends
      · rw [h.screen] at there
        have there := (Screen.setPending_pending_ne (s.screen i) (some r) (Ne.symm same)).symm.trans there
        rw [welcome.others m same] at there
        cases there
  · rcases welcome.flag with clear | bare
    · refine .inl ?_
      show (b.screen i).blankPending = false
      rw [h.screen]
      exact clear
    · exact .inr (h.top.trans bare)

/-- Step 3 judges the request alone. -/
theorem judged : ∃ flag, (b.panel i).judged b i = (opening b i flag).judgeShow b i r.level r := by
  obtain ⟨flag, opened⟩ := h.opened welcome
  refine ⟨flag, ?_⟩
  unfold Panel.judged
  rw [opened, Panel.judgeEach_only (l := r.level) fun m apart => ?_]
  · have pending : (opening b i flag).screen.pendingAt[r.level] = some r := h.pending
    have eligible : (opening b i flag).screen.eligible b.clock r = true := by
      rw [Screen.eligible_iff]
      refine ⟨by rw [← h.clocks]; exact welcome.released, ?_⟩
      refine (Screen.masked_congr (x := s.screen i) ?_ _).trans welcome.unmasked
      show (b.screen i).mask = _
      rw [h.screen]
      rfl
    unfold Panel.judge
    rw [pending]
    dsimp only
    rw [eligible]
    cases kind : r.kind with
    | blank => exact absurd kind welcome.kind
    | title => rfl
    | notice => rfl
  · show (b.screen i).pendingAt[m] = none
    rw [h.screen]
    exact (Screen.setPending_pending_ne (s.screen i) (some r) (Ne.symm apart)).trans (welcome.others m apart)

/-- Above all that is visible, on a READY link, it is shown (R120). -/
theorem shown (yields : (s.screen i).Yields r) (ready : (s.link i).state = .ready) :
    (u.screen i).pendingAt[r.level] = none ∧ ∃ x, s.showSent u i r.level x ∧ x.carries r := by
  obtain ⟨flag, judged⟩ := h.judged welcome
  have readied : (opening b i flag).ready b i = true := by
    rw [opening_ready]
    unfold State.linkReady
    rw [h.link]
    simpa using ready
  have granted : ∃ p : Panel, (b.panel i).judged b i = p.grantShow b i r.level r ∧ (b.screen i).sameFace p.screen := by
    rw [judged]
    unfold Panel.judgeShow
    rw [readied, opening_top, h.top]
    cases top : (s.screen i).visibleTop with
    | none => exact ⟨_, rfl, rfl, rfl, rfl, rfl, rfl⟩
    | some q =>
      obtain ⟨m, y⟩ := q
      dsimp only
      rcases yields m y top with above | ⟨rfl, shown, operator⟩
      · rw [if_pos above]
        exact ⟨_, rfl, rfl, rfl, rfl, rfl, rfl⟩
      · rw [if_neg (lt_irrefl _), if_neg (lt_irrefl _), if_neg (by simpa using shown), operator]
        exact ⟨_, rfl, rfl, rfl, rfl, rfl, rfl⟩
  obtain ⟨p, granted, face⟩ := granted
  have face' : (s.screen i).sameFace (b.screen i) := by
    rw [h.screen]
    exact ⟨rfl, rfl, rfl, rfl, rfl⟩
  obtain ⟨showed, -, d, kept⟩ := State.evaluate_grants h.alike h.plain granted (Screen.sameFace_trans face' face)
  obtain ⟨d', sent, -⟩ := State.Showed.showSent (e := r.toEntry p.serial) (showed.later h.rest h.mirror)
  refine ⟨?_, _, sent, Request.toEntry_carries r _ _ _⟩
  rw [h.rest.screen, kept.pending, Panel.granted_eq]
  exact Screen.setPending_pending_self _ _ _

omit welcome in
/-- Steps 3 and 4 leave the screen, its timers set again. -/
theorem settled {q : Panel} (judged : (b.panel i).judged b i = q) :
    u.screen i = (q.refreshed b i .default).screen.retime b.clock := by
  rw [h.evaluated]
  unfold Panel.evaluated
  rw [judged]
  rfl

/-- Above all that is visible, on another link, it waits (R120). -/
theorem waits (yields : (s.screen i).Yields r) (dark : (s.link i).state ≠ .ready) :
    u.waitsAt i r ∧ (u.screen i).stack = (s.screen i).stack ∧ u.link i = s.link i := by
  obtain ⟨flag, judged⟩ := h.judged welcome
  have unready : (opening b i flag).ready b i = false := by
    rw [opening_ready]
    unfold State.linkReady
    rw [h.link]
    simpa using dark
  have stays : (opening b i flag).judgeShow b i r.level r = opening b i flag := by
    unfold Panel.judgeShow
    rw [unready, opening_top, h.top]
    cases top : (s.screen i).visibleTop with
    | none => rfl
    | some q =>
      obtain ⟨m, y⟩ := q
      dsimp only
      rcases yields m y top with above | ⟨rfl, shown, operator⟩
      · rw [if_pos above]
        rfl
      · rw [if_neg (lt_irrefl _), if_neg (lt_irrefl _), if_neg (by simpa using shown), operator]
        rfl
  rw [stays] at judged
  have evaluated : (b.panel i).evaluated b i = (opening b i flag).put ((opening b i flag).screen.retime b.clock) := by
    unfold Panel.evaluated Panel.ended
    rw [judged, Panel.refreshed_of_unready _ unready]
  refine ⟨?_, ?_, h.silent (by rw [evaluated]; rfl)⟩
  · unfold State.waitsAt
    rw [h.evaluated, evaluated]
    exact h.pending
  · rw [h.evaluated, evaluated]
    exact h.stack

/-- Below the visible top it is granted silently (R120). -/
theorem granted_silently {m : Level} {y : Entry} (top : (s.screen i).visibleTop = some (m, y)) (under : m < r.level) :
    (u.screen i).pendingAt[r.level] = none ∧
      ∃ x, (u.screen i).stack[r.level] = some x ∧ x.carries r ∧ x.visibleSince = none := by
  obtain ⟨flag, judged⟩ := h.judged welcome
  have top' : (opening b i flag).screen.visibleTop = some (m, y) := h.top.trans top
  have inserted : (opening b i flag).judgeShow b i r.level r = (opening b i flag).insertSilently r.level r := by
    unfold Panel.judgeShow
    rw [top']
    dsimp only
    rw [if_neg (not_lt_of_gt under), if_pos under]
  rw [inserted] at judged
  have still : ((opening b i flag).insertSilently r.level r).screen.visibleTop = some (m, y) :=
    Screen.visibleTop_beneath top' under rfl fun k apart =>
      Screen.setEntry_stack_ne ((opening b i flag).screen.setPending r.level none) _ (Ne.symm apart)
  rw [h.settled judged]
  refine ⟨?_, r.toEntry b.arb.entrySerial, ?_, ⟨rfl, rfl, rfl, rfl, rfl, rfl, rfl, rfl⟩, rfl⟩
  · exact (congrArg (fun v : Vector (Option Request) 8 => v[r.level]) Panel.refreshed_pendingAt).trans
      (Screen.setPending_pending_self (opening b i flag).screen r.level none)
  · exact (Panel.refreshed_stack_ne still (ne_of_lt under)).trans
      (Screen.setEntry_stack_self ((opening b i flag).screen.setPending r.level none) r.level _)

end State.Asked

end Sys2Proof.Machine
end

section
/-! BACK (R70): the history, the cue before placed again at its screens, the cursors of a CALLED section, and a press that is
ignored. -/

namespace Sys2Proof.Machine

/-! ### The screens of the cue before -/

theorem Screen.backTuples_eq (x : Screen) (q : HistoryEntry) :
    x.backTuples q = q.tuples.filter fun p => (layoutLangs x.layout).contains p.lang := by
  unfold Screen.backTuples
  refine List.filter_congr fun p _ => ?_
  rw [Bool.eq_iff_iff, decide_eq_true_iff, List.contains_iff_mem, mem_layoutLangs]

/-- BACK passes by a screen that the cue does not name, that has none of its languages, or that is the monitor. -/
theorem State.backAt_passes {s : State} {i : Screen16} {q : HistoryEntry}
    (passes : q.screens.getLsbD i.val = false ∨ (s.screen i).backTuples q = []) : s.backAt q i = s := by
  unfold State.backAt
  split
  · next named =>
    rw [Bool.and_eq_true] at named
    rw [Screen.backTuples_eq] at passes
    rcases passes with unnamed | none
    · rw [unnamed] at named
      exact absurd named.1 Bool.false_ne_true
    · dsimp only
      rw [none]
      rfl
  · rfl

theorem State.backAt_places {s : State} {i : Screen16} {q : HistoryEntry} (plain : s.isMonitor i = false)
    (named : q.screens.getLsbD i.val = true) (some_ : (s.screen i).backTuples q ≠ []) :
    s.backAt q i = s.placeRequest i (s.backRequest q ((s.screen i).backTuples q)) := by
  rw [Screen.backTuples_eq] at *
  unfold State.backAt
  rw [named, plain, Bool.not_false, Bool.and_true, if_pos rfl]
  dsimp only
  rw [if_neg fun empty => some_ (List.isEmpty_iff.mp empty)]

theorem State.backAt_monitor {s : State} {i : Screen16} (q : HistoryEntry) (monitor : s.isMonitor i = true) :
    s.backAt q i = s := by
  unfold State.backAt
  rw [monitor, Bool.not_true, Bool.and_false]
  rfl

/-- At each screen BACK places a request or does nothing. -/
theorem State.backAt_eq (s : State) (q : HistoryEntry) (i : Screen16) :
    s.backAt q i = s ∨ ∃ r, s.backAt q i = s.placeRequest i r := by
  unfold State.backAt
  split
  · dsimp only
    split
    · exact .inl rfl
    · exact .inr ⟨_, rfl⟩
  · exact .inl rfl

/-- The cue before, placed at every screen. -/
def State.backEach (q : HistoryEntry) (s : State) : State := allScreens.foldl (State.backAt q) s

theorem State.backEach_onlyScreens (q : HistoryEntry) (s : State) : s.onlyScreens (s.backEach q) :=
  foldl_keeps (P := s.onlyScreens) (fun z i h => by
    rcases z.backAt_eq q i with same | ⟨r, placed⟩
    · rw [same]
      exact h
    · rw [placed]
      exact (Screens.only s).placeRequest i r z h) allScreens s s.onlyScreens_refl

/-- The walk comes to a screen with all of it as it was, and leaves it as its own step has left it. -/
theorem State.backEach_around (q : HistoryEntry) (s : State) {i : Screen16} (plain : s.isMonitor i = false) :
    ∃ w, State.Untouched i s w ∧ State.Untouched i (w.backAt q i) (s.backEach q) := by
  obtain ⟨before, -, -, first, last⟩ := foldl_around (σ := State) id (f := State.backAt q) (i := i) (pair := s.arb.mirror)
    (fun z j apart mirror => by
      rcases z.backAt_eq q j with same | ⟨r, placed⟩
      · simp only [same]
        exact State.Untouched.refl i _
      · simp only [placed]
        have notCopy : z.arb.mirror ≠ some (j, i) := by
          rw [show z.arb.mirror = s.arb.mirror from mirror]
          exact State.plain_mirror plain j
        exact State.placeRequest_untouched z j r apart notCopy)
    (fun z mirror => by
      rcases z.backAt_eq q i with same | ⟨r, placed⟩
      · simp only [same]
        exact mirror
      · simp only [placed]
        exact (z.placeRequest_mirror i r).trans mirror) s rfl
  exact ⟨_, first, last⟩

/-- An operator request that a screen has been asked for stands there as BACK leaves it (R120, R121). -/
theorem State.Asked.backPlaced {s b u : State} {i : Screen16} {r : Request} (h : s.Asked b u i r) (kind : r.kind ≠ .blank)
    (operator : r.operator = true) (endless : r.endTime = none) (released : r.release ≤ u.clock) :
    s.backPlaced u i r := by
  intro clear unmasked others entries
  have welcome : (s.screen i).Welcomes r u.clock :=
    ⟨kind, released, fun T ends => absurd (endless.symm.trans ends) nofun, unmasked, .inl clear, others, entries⟩
  refine ⟨fun above => ?_, fun m y top under => h.granted_silently welcome top under⟩
  have yields : (s.screen i).Yields r := fun m y top => (above m y top).imp_right fun ⟨same, shown⟩ =>
    ⟨same, shown, operator⟩
  exact ⟨h.shown welcome yields, h.waits welcome yields⟩

/-! ### The cursors -/

/-- The walker with both cursors on the cue that BACK has taken off (R70, step 3). -/
def Walker.backTo (p : HistoryEntry) (w : Walker) : Walker :=
  { w with
    cursor := some { sec := p.sec, pass := p.pass, origin := none, cue := p.cue }
    fireCursor := some p.cue, waiting := none, heldBack := false
    unhanded := w.unhanded.filter fun c => !(decide (p.cue ≤ c.1) && ((w.sec p.sec).any fun x => decide (c.1 < x.cueEnd))) }

theorem State.backCursors_moves {s : State} {p : HistoryEntry} (called : s.inCalledSection = true)
    (section_ : s.wlk.inForce = .sec p.sec) (pass : s.wlk.pass = p.pass) :
    s.backCursors p = (s.setWalker (s.wlk.backTo p)).discardRead := by
  unfold State.backCursors
  dsimp only
  rw [called, section_, pass]
  rw [if_pos (by rw [beq_self_eq_true, beq_self_eq_true]; rfl)]
  unfold Walker.backTo
  rw [section_, pass]

theorem State.backCursors_stays {s : State} {p : HistoryEntry}
    (other : s.inCalledSection = false ∨ s.wlk.inForce ≠ .sec p.sec ∨ s.wlk.pass ≠ p.pass) : s.backCursors p = s := by
  unfold State.backCursors
  refine if_neg ?_
  simp only [Bool.and_eq_true, beq_iff_eq, and_assoc]
  rintro ⟨called, section_, pass⟩
  rcases other with h | h | h
  · rw [h] at called
    cases called
  · exact h section_
  · exact h pass

/-- What the moved cursors leave of the state. -/
theorem State.backCursors_frame (p : HistoryEntry) (s : State) : ∃ (w : Walker) (q : Port), s.backCursors p = { s with
    wlk := { s.wlk with
      cursor := w.cursor, fireCursor := w.fireCursor, waiting := w.waiting, heldBack := w.heldBack, unhanded := w.unhanded }
    smi := { s.smi with port := q } } := by
  unfold State.backCursors
  dsimp only
  split
  · exact ⟨s.wlk.backTo p, _, rfl⟩
  · exact ⟨s.wlk, s.smi.port, rfl⟩

/-- A review reads the cue at the cursor when nothing holds it back (R64). -/
theorem State.reviewOffers_reads {s : State} {c : Cursor} {x : Section} {sc : Script} (engine : s.ctl.engine.offers = true)
    (cursor : s.wlk.cursor = some c) (script : s.wlk.script = some sc) (sec : s.wlk.sec c.sec = some x)
    (before : c.cue < x.cueEnd) (idle : s.wlk.reading = false) (room : s.sch.armed.length < 32)
    (may : s.mayRead c x = true) : s.reviewOffers = s.startOffer c sc := by
  have stays : State.advanceCursor 600 s = s := by
    unfold State.advanceCursor
    rw [cursor]
    dsimp only
    rw [sec]
    exact if_pos before
  unfold State.reviewOffers State.offerAtCursor
  rw [engine, if_pos rfl, stays, cursor, script]
  dsimp only
  rw [sec]
  dsimp only
  have room : s.sch.armed.length < Config.armedMax := room
  rw [idle, may, decide_eq_true before, decide_eq_true room]
  rfl

/-! ### The press -/

/-- The state in which BACK comes to the screens: the history and an owed GO are behind it. -/
def State.backBegun (t : Time) (history : List HistoryEntry) (s : State) : State :=
  (s.edgeTaken t .back).setWalker { s.wlk with history := history, owedGo := none }

/-- What BACK leaves of a state, the cue `p` taken off and the cue `q` before it placed. -/
def State.backDone (t : Time) (p q : HistoryEntry) (rest : List HistoryEntry) (s : State) : State :=
  (((s.backBegun t (q :: rest)).backEach q).backCursors p).reviewOffers

theorem execBack_taken {t : Time} {s : State} {p q : HistoryEntry} {rest : List HistoryEntry}
    (engine : s.ctl.engine = .running) (accepts : s.acceptsEdge t .back) (history : s.wlk.history = p :: q :: rest) :
    exec (.back t) s = .next (s.backDone t p q rest) := by
  refine congrArg Host.Outcome.next ((State.risingEdge_accepted _ accepts).trans ?_)
  have same : (s.edgeTaken t .back).ctl.engine = s.ctl.engine := rfl
  have walked : (s.edgeTaken t .back).wlk = s.wlk := rfl
  unfold State.routeBack
  rw [same, engine]
  dsimp only
  unfold State.takeBack
  rw [walked, history]
  rfl

theorem execBack_short {t : Time} {s : State} (engine : s.ctl.engine = .running) (accepts : s.acceptsEdge t .back)
    (short : s.wlk.history.length < 2) :
    exec (.back t) s = .next ((s.edgeTaken t .back).ignoreDesk .back .noHistory) := by
  refine congrArg Host.Outcome.next ((State.risingEdge_accepted _ accepts).trans ?_)
  have same : (s.edgeTaken t .back).ctl.engine = s.ctl.engine := rfl
  have walked : (s.edgeTaken t .back).wlk = s.wlk := rfl
  unfold State.routeBack
  rw [same, engine]
  dsimp only
  unfold State.takeBack
  rw [walked]
  split
  · next p q rest history =>
    rw [history] at short
    simp only [List.length_cons] at short
    omega
  · rfl

theorem execBack_refused {t : Time} {s : State} (engine : s.ctl.engine ≠ .running) (accepts : s.acceptsEdge t .back) :
    exec (.back t) s = .next ((s.edgeTaken t .back).ignoreDesk .back .engineState) := by
  refine congrArg Host.Outcome.next ((State.risingEdge_accepted _ accepts).trans ?_)
  unfold State.routeBack
  split
  · next running => exact absurd running engine
  · rfl

section
variable {t : Time} {s : State} {p q : HistoryEntry} {rest : List HistoryEntry}

theorem State.backBegun_alike (i : Screen16) (history : List HistoryEntry) : State.Alike i s (s.backBegun t history) :=
  ⟨rfl, rfl, rfl, rfl, s.sameLine_refl i, fun mon _ => ⟨s.sameLine_refl mon, rfl⟩⟩

/-- The screens placed: the blocks of the show are those with which they began. -/
theorem State.backEach_frame : ((s.backBegun t (q :: rest)).backEach q).trk = s.trk ∧
    ((s.backBegun t (q :: rest)).backEach q).wlk = { s.wlk with history := q :: rest, owedGo := none } ∧
    ((s.backBegun t (q :: rest)).backEach q).sch = s.sch ∧ ((s.backBegun t (q :: rest)).backEach q).du = s.du ∧
    ((s.backBegun t (q :: rest)).backEach q).ctl = s.ctl ∧
    ((s.backBegun t (q :: rest)).backEach q).clock = max s.clock t := by
  obtain ⟨⟨trk, wlk, sch, du, -⟩, ctl, clock, -, -⟩ := (s.backBegun t (q :: rest)).backEach_onlyScreens q
  exact ⟨trk, wlk, sch, du, ctl, clock⟩

/-- The blocks of the show as BACK leaves them. -/
theorem State.backDone_frame : (s.backDone t p q rest).trk = s.trk ∧ (s.backDone t p q rest).sch = s.sch ∧
    (s.backDone t p q rest).du = s.du ∧ (s.backDone t p q rest).ctl = s.ctl ∧
    (s.backDone t p q rest).clock = max s.clock t ∧ (s.backDone t p q rest).wlk.history = q :: rest ∧
    (s.backDone t p q rest).wlk.inForce = s.wlk.inForce ∧ (s.backDone t p q rest).wlk.owedGo = none := by
  obtain ⟨trk, wlk, sch, du, ctl, clock⟩ := State.backEach_frame (t := t) (s := s) (q := q) (rest := rest)
  unfold State.backDone
  generalize (s.backBegun t (q :: rest)).backEach q = z at *
  obtain ⟨w, o, moved⟩ := z.backCursors_frame p
  have reviewed := (z.backCursors p).reviewOffers_moved
  have frame := reviewed.frame
  have walk := reviewed.walk
  generalize (z.backCursors p).reviewOffers = u at *
  rw [moved] at frame walk
  rw [frame, walk]
  exact ⟨trk, sch, du, ctl, clock, by rw [wlk], by rw [wlk], by rw [wlk]⟩

/-- What follows the placing is nothing to the screens. -/
theorem State.backDone_untouched (i : Screen16) :
    State.Untouched i ((s.backBegun t (q :: rest)).backEach q) (s.backDone t p q rest) := by
  unfold State.backDone
  generalize (s.backBegun t (q :: rest)).backEach q = z at *
  obtain ⟨w, o, moved⟩ := z.backCursors_frame p
  have reviewed := (z.backCursors p).reviewOffers_moved
  have frame := reviewed.frame
  have walk := reviewed.walk
  generalize (z.backCursors p).reviewOffers = u at *
  rw [moved] at frame walk
  have script : u.wlk.script = z.wlk.script := by rw [walk]
  rw [frame]
  exact ⟨rfl, rfl, rfl, rfl, script, rfl, rfl, rfl, rfl, fun _ _ => ⟨rfl, rfl, rfl, rfl, rfl⟩⟩

/-- A screen with nothing of the cue before stands as it is (R70). -/
theorem State.backDone_passes {i : Screen16} (plain : s.isMonitor i = false)
    (passes : q.screens.getLsbD i.val = false ∨ (s.screen i).backTuples q = []) :
    (s.backDone t p q rest).screen i = s.screen i ∧ (s.backDone t p q rest).link i = s.link i := by
  obtain ⟨w, first, last⟩ := (s.backBegun t (q :: rest)).backEach_around q (i := i) plain
  have after := State.backDone_untouched (t := t) (s := s) (p := p) (q := q) (rest := rest) i
  have same : w.screen i = s.screen i := first.screen
  rw [State.backAt_passes (by rw [same]; exact passes)] at last
  exact ⟨after.screen.trans (last.screen.trans same), after.link.trans (last.link.trans first.link)⟩

/-- A screen of the cue before has its request (R70). -/
theorem State.backDone_places {i : Screen16} (plain : s.isMonitor i = false) (named : q.screens.getLsbD i.val = true)
    (some_ : (s.screen i).backTuples q ≠ []) :
    s.backPlaced (s.backDone t p q rest) i (s.backRequestOf (max s.clock t) i q) := by
  obtain ⟨w, first, last⟩ := (s.backBegun t (q :: rest)).backEach_around q (i := i) plain
  have after := State.backDone_untouched (t := t) (s := s) (p := p) (q := q) (rest := rest) i
  have same : w.screen i = s.screen i := first.screen
  have here : w.isMonitor i = false := (first.isMonitor i).trans plain
  have request : w.backRequest q ((s.screen i).backTuples q) = s.backRequestOf (max s.clock t) i q := by
    unfold State.backRequest
    rw [first.clock]
    rfl
  rw [State.backAt_places here named (by rw [same]; exact some_), same, request] at last
  have asked := State.asked_of plain (State.backBegun_alike i (q :: rest)) rfl rfl first (last.trans after)
  obtain ⟨-, -, -, -, clock, -⟩ := State.backDone_frame (t := t) (s := s) (p := p) (q := q) (rest := rest)
  exact asked.backPlaced nofun rfl rfl (le_of_eq clock.symm)

/-- In the CALLED section and pass of the cue taken off both cursors stand on it, and it is read again (R70). -/
theorem State.backDone_cursors {x : Section} (engine : s.ctl.engine = .running) (sec : s.wlk.sec p.sec = some x)
    (mode : x.mode = .called) (section_ : s.wlk.inForce = .sec p.sec) (pass : s.wlk.pass = p.pass) :
    (s.backDone t p q rest).wlk.fireCursor = some p.cue ∧
      (p.cue < x.firstCue + x.cueCount → (s.backDone t p q rest).wlk.waiting = none ∧
        (s.backDone t p q rest).wlk.cursor = some { sec := p.sec, pass := p.pass, origin := none, cue := p.cue } ∧
        ∀ sc, s.wlk.script = some sc → s.wlk.reading = false → s.sch.armed.length < 32 →
          (s.backDone t p q rest).wlk.reading = true ∧ (s.backDone t p q rest).smi.port.holds
            (.read (.offer false) (sc.cueTable + 32 * p.cue) 32 .urgent FaultDetail.none)) := by
  obtain ⟨-, wlk, sch, -, ctl, -⟩ := State.backEach_frame (t := t) (s := s) (q := q) (rest := rest)
  unfold State.backDone
  generalize (s.backBegun t (q :: rest)).backEach q = z at *
  have inForce : z.wlk.inForce = .sec p.sec := by rw [wlk]; exact section_
  have sec' : z.wlk.sec p.sec = some x := by rw [wlk]; exact sec
  have called : z.inCalledSection = true := by
    unfold State.inCalledSection
    rw [inForce]
    dsimp only
    rw [sec', Option.any_some, mode]
    rfl
  rw [State.backCursors_moves called inForce (by rw [wlk]; exact pass)]
  have there : ((z.setWalker (z.wlk.backTo p)).discardRead).wlk = z.wlk.backTo p := rfl
  have armed : ((z.setWalker (z.wlk.backTo p)).discardRead).sch = z.sch := rfl
  have running : ((z.setWalker (z.wlk.backTo p)).discardRead).ctl = z.ctl := rfl
  generalize (z.setWalker (z.wlk.backTo p)).discardRead = v at *
  have cursor : v.wlk.cursor = some { sec := p.sec, pass := p.pass, origin := none, cue := p.cue } := by rw [there]; rfl
  have fire : v.wlk.fireCursor = some p.cue := by rw [there]; rfl
  have sec'' : v.wlk.sec p.sec = some x := by rw [there]; exact sec'
  have walk := (State.reviewOffers_moved v).walk
  refine ⟨?_, fun before => ⟨State.reviewOffers_waiting (by rw [there]; rfl), State.reviewOffers_cursor cursor sec'' before,
    fun sc script idle room => ?_⟩⟩
  · rw [walk]
    exact fire
  · have may : v.mayRead { sec := p.sec, pass := p.pass, origin := none, cue := p.cue } x = true := by
      unfold State.mayRead Walker.calledWindow Walker.atFireCursor
      rw [mode, fire, there]
      show (decide _ || (z.wlk.inForce == .sec p.sec && _) || _) = true
      rw [inForce]
      simp
    rw [State.reviewOffers_reads (sc := sc) (by rw [running, ctl, engine]; rfl) cursor
      (by rw [there]; show z.wlk.script = _; rw [wlk]; exact script) sec'' before
      (by rw [there]; show z.wlk.reading = _; rw [wlk]; exact idle) (by rw [armed, sch]; exact room) may]
    exact ⟨rfl, State.enqueue_holds _ _⟩

/-- Elsewhere the cursors stay (R70). -/
theorem State.backDone_stays (other : s.inCalledSection = false ∨ s.wlk.inForce ≠ .sec p.sec ∨ s.wlk.pass ≠ p.pass) :
    (s.backDone t p q rest).wlk.fireCursor = s.wlk.fireCursor ∧
      ∀ c y, s.wlk.cursor = some c → s.wlk.sec c.sec = some y → c.cue < y.cueEnd →
        (s.backDone t p q rest).wlk.cursor = some c := by
  obtain ⟨-, wlk, -⟩ := State.backEach_frame (t := t) (s := s) (q := q) (rest := rest)
  unfold State.backDone
  generalize (s.backBegun t (q :: rest)).backEach q = z at *
  have section_ : z.inCalledSection = s.inCalledSection := by
    unfold State.inCalledSection Walker.sec
    rw [wlk]
  rw [State.backCursors_stays (by rw [section_, wlk]; exact other)]
  refine ⟨?_, fun c y cursor sec before => ?_⟩
  · rw [(State.reviewOffers_moved z).walk, wlk]
  · exact State.reviewOffers_cursor (x := y) (by rw [wlk]; exact cursor) (by rw [wlk]; exact sec) before

end

/-- Settles O48: a BACK with a cue before, one with none, and one that the engine state turns away. -/
theorem backPressed : Obligations.BackPressed := by
  refine ⟨fun t s engine accepts => ⟨fun p q rest history => ?_, fun short => ?_⟩, fun t s engine accepts => ?_⟩
  · obtain ⟨trk, sch, du, ctl, -, behind, inForce, owed⟩ :=
      State.backDone_frame (t := t) (s := s) (p := p) (q := q) (rest := rest)
    refine ⟨_, execBack_taken engine accepts history, behind, inForce, owed, trk, sch, du, ctl,
      fun i plain => ⟨State.backDone_passes plain, State.backDone_places plain⟩,
      fun x sec mode section_ pass => State.backDone_cursors engine sec mode section_ pass, State.backDone_stays⟩
  · exact ⟨_, execBack_short engine accepts short, s.edgeTaken_ignored t .back .noHistory⟩
  · exact ⟨_, execBack_refused engine accepts, s.edgeTaken_ignored t .back .engineState⟩

end Sys2Proof.Machine
end

section
/-! The requests of a fire, screen by screen (R90, R92): which screens receive one, what it is, and how it is placed. -/

namespace Sys2Proof.Machine

/-! ### One screen -/

theorem presentTuple_lang {keys : List (Key × KeyResult)} {g : Lang} {t : Tuple} (h : presentTuple keys g = some t) :
    t.lang = g := by
  unfold presentTuple at h
  obtain ⟨p, -, tuple⟩ := Option.bind_eq_some_iff.1 h
  split at tuple
  · cases tuple
    rfl
  · cases tuple

/-- The tuples that the model places at a screen are those that R90 names. -/
theorem screenTuples_eq (x : Screen) (e : Armed) : screenTuples x.layout e.copy.langs e.keys = x.titleTuples e := by
  have named (g : Lang) : (layoutLangs x.layout).contains g = x.layout.toList.contains (some g) := by
    have all : g ∈ allLangs := by
      unfold allLangs
      revert g
      decide
    unfold layoutLangs
    rw [Bool.eq_iff_iff, List.contains_iff_mem, List.mem_filter]
    exact and_iff_right all
  unfold screenTuples Screen.titleTuples presentTuples
  simp only [named]
  unfold layoutLangs
  rw [List.filter_filterMap, List.filterMap_filter]
  refine congrArg (fun f => List.filterMap f allLangs) (funext fun g => ?_)
  cases present : presentTuple e.keys g with
  | none => simp
  | some t =>
    rw [Option.filter_some, presentTuple_lang present]
    cases e.copy.langs.getLsbD g.val <;> cases x.layout.toList.contains (some g) <;> rfl

/-- The tuples of the request at a screen: none for a BLANK (R92). -/
def Screen.fireTuples (x : Screen) (e : Armed) : List Tuple :=
  match e.copy.action with
  | .blank => []
  | .title => x.titleTuples e

/-- A fire of `e` places a request at screen `i`. -/
def State.takesFire (e : Armed) (s : State) (i : Screen16) : Bool :=
  e.copy.scope.getLsbD i.val && !s.isMonitor i && (e.copy.action == .blank || !((s.screen i).titleTuples e).isEmpty)

theorem State.firedScreens_eq (s : State) (e : Armed) : s.firedScreens e = maskOf (allScreens.filter (s.takesFire e)) := rfl

theorem fireAt_eq (e : Armed) (p : State × BitVec 16) (i : Screen16) : fireAt e p i =
    if p.1.takesFire e i then
      (p.1.placeRequest i (p.1.cueRequest e i ((p.1.screen i).fireTuples e)), p.2 ||| BitVec.twoPow 16 i.val)
    else p := by
  unfold fireAt State.takesFire Screen.fireTuples
  rw [screenTuples_eq]
  cases (e.copy.scope.getLsbD i.val && !p.1.isMonitor i) with
  | false => rfl
  | true =>
    cases e.copy.action with
    | blank => rfl
    | title =>
      have title : (Action.title == Action.blank) = false := rfl
      rw [title]
      generalize (p.1.screen i).titleTuples e = ts
      cases ts <;> rfl

/-- The request is that of R90, seen from a state before the fire. -/
theorem State.cueRequest_eq {s w : State} {i : Screen16} {e e' : Armed} (line : w.screen i = s.screen i ∧ w.link i = s.link i)
    (same : e' = { e with timing := e'.timing }) (ts : List Tuple) : w.cueRequest e' i ts = s.firedRequest e i ts := by
  unfold State.cueRequest State.firedRequest State.leadOf
  rw [line.1, line.2, same]
  cases action : e.copy.action <;> simp [nonZero]

/-! ### The walk over the screens -/

section Walk

variable {e : Armed} {s : State}

/-- A walk that begins with the screens as `s` has them has come to the screens of a list, which no other step has touched. -/
def State.Reached (s v : State) (ls : List Screen16) : Prop :=
  v.arb.mirror = s.arb.mirror ∧ ∀ i ∈ ls, s.isMonitor i = false → State.Untouched i s v

theorem State.Reached.start (s : State) (ls : List Screen16) : s.Reached s ls :=
  ⟨rfl, fun i _ _ => State.Untouched.refl i s⟩

theorem State.Reached.isMonitor {v : State} {ls : List Screen16} (h : s.Reached v ls) (i : Screen16) :
    v.isMonitor i = s.isMonitor i := by
  unfold State.isMonitor
  rw [h.1]

theorem State.Reached.next {v u : State} {i : Screen16} {ls : List Screen16} (h : s.Reached v (i :: ls)) (new : i ∉ ls)
    (mirror : u.arb.mirror = v.arb.mirror)
    (others : ∀ j, i ≠ j → v.arb.mirror ≠ some (i, j) → State.Untouched j v u) : s.Reached u ls := by
  refine ⟨mirror.trans h.1, fun j there plain => ?_⟩
  have first := h.2 j (List.mem_cons_of_mem i there) plain
  refine first.trans (others j (fun same => new (by rw [same]; exact there)) ?_)
  rw [h.1]
  exact State.plain_mirror plain i

theorem fireAt_untouched {p : State × BitVec 16} {i j : Screen16} (apart : j ≠ i) (notCopy : p.1.arb.mirror ≠ some (j, i)) :
    State.Untouched i p.1 (fireAt e p j).1 := by
  rw [fireAt_eq]
  split
  · exact State.placeRequest_untouched _ _ _ apart notCopy
  · exact State.Untouched.refl i _

theorem fireAt_mirror (p : State × BitVec 16) (i : Screen16) : (fireAt e p i).1.arb.mirror = p.1.arb.mirror := by
  rw [fireAt_eq]
  split
  · exact State.placeRequest_mirror _ _ _
  · rfl

/-- A screen that is reached takes the fire as it would have at first. -/
theorem State.Reached.takesFire {v : State} {i : Screen16} {ls : List Screen16} (h : s.Reached v ls)
    (there : i ∈ ls) : v.takesFire e i = s.takesFire e i := by
  unfold State.takesFire
  rw [h.isMonitor]
  cases plain : s.isMonitor i with
  | true => simp
  | false => rw [(h.2 i there plain).screen]

theorem State.Reached.nextFire {p : State × BitVec 16} {i : Screen16} {ls : List Screen16} (h : s.Reached p.1 (i :: ls))
    (new : i ∉ ls) : s.Reached (fireAt e p i).1 ls :=
  h.next new (fireAt_mirror p i) fun _ apart notCopy => fireAt_untouched apart notCopy

/-- The mask of screens that have received a request. -/
theorem fireEach_mask : ∀ (ls : List Screen16) (p : State × BitVec 16), ls.Nodup → s.Reached p.1 ls →
    (ls.foldl (fireAt e) p).2 = (ls.filter (s.takesFire e)).foldl (fun m i => m ||| BitVec.twoPow 16 i.val) p.2
  | [], _, _, _ => rfl
  | i :: ls, p, nodup, reached => by
    obtain ⟨new, rest⟩ := List.nodup_cons.1 nodup
    have takes := reached.takesFire (e := e) List.mem_cons_self
    rw [List.foldl_cons, fireEach_mask ls _ rest (reached.nextFire new), fireAt_eq, takes, List.filter_cons]
    split
    · rfl
    · rfl

theorem State.fired_mask (e : Armed) (s : State) : (s.fired e).2 = s.firedScreens e :=
  fireEach_mask allScreens (s, 0) (by decide) (State.Reached.start s allScreens)

/-- With nothing to overwrite the requests of a fire journal nothing (R116). -/
theorem fireEach_smi (free : ∀ i, (s.screen i).pendingAt[e.copy.level] = none) :
    ∀ (ls : List Screen16) (p : State × BitVec 16), ls.Nodup → s.Reached p.1 ls →
      (ls.foldl (fireAt e) p).1.smi = p.1.smi
  | [], _, _, _ => rfl
  | i :: ls, p, nodup, reached => by
    obtain ⟨new, rest⟩ := List.nodup_cons.1 nodup
    rw [List.foldl_cons, fireEach_smi free ls _ rest (reached.nextFire new), fireAt_eq, reached.takesFire List.mem_cons_self]
    split
    · next takes =>
      have plain : s.isMonitor i = false := by
        unfold State.takesFire at takes
        simp only [Bool.and_eq_true, Bool.not_eq_true', and_assoc] at takes
        exact takes.2.1
      have here : p.1.isMonitor i = false := (reached.isMonitor i).trans plain
      have empty : (p.1.screen i).pendingAt[e.copy.level] = none := by
        rw [(reached.2 i List.mem_cons_self plain).screen]
        exact free i
      rw [State.placeRequest_plain _ here, State.evaluate_smi]
      unfold State.asking
      rw [State.displace_free (r := p.1.cueRequest e i ((p.1.screen i).fireTuples e)) empty]
      rfl
    · rfl

theorem State.fired_smi (e : Armed) {s : State} (free : ∀ i, (s.screen i).pendingAt[e.copy.level] = none) :
    (s.fired e).1.smi = s.smi :=
  fireEach_smi free allScreens (s, 0) (by decide) (State.Reached.start s allScreens)

/-- The walk comes to a screen with all of it as it was, and leaves it as its own step has left it. -/
theorem State.fired_around (e : Armed) (s : State) {i : Screen16} (plain : s.isMonitor i = false) :
    ∃ p : State × BitVec 16, State.Untouched i s p.1 ∧ State.Untouched i (fireAt e p i).1 (s.fired e).1 := by
  obtain ⟨before, -, -, first, last⟩ := foldl_around (Prod.fst : State × BitVec 16 → State) (f := fireAt e) (i := i)
    (pair := s.arb.mirror)
    (fun z j apart mirror => fireAt_untouched apart (by rw [mirror]; exact State.plain_mirror plain j))
    (fun z mirror => (fireAt_mirror z i).trans mirror) (s, 0) rfl
  exact ⟨_, first, last⟩

end Walk

/-! ### The leads after a fire -/

/-- The layouts and latencies that decide a lead (R78), with no layout staged. -/
def Screen.sameLead (x y : Screen) : Prop :=
  y.layout = x.layout ∧ y.staged = none ∧ y.preferred = x.preferred ∧ y.latency = x.latency

theorem Screen.kept_sameLead (x : Screen) : Screen.Kept x.sameLead where
  stack _ _ _ h := h
  pending _ _ _ h := h
  count _ _ _ _ _ h := h
  sent y m h := by
    obtain ⟨layout, staged, preferred, latency⟩ := h
    have applied : y.applyStaged = y := by
      unfold Screen.applyStaged
      rw [staged]
    unfold Screen.sentMessage
    rw [applied]
    dsimp only
    split <;> exact ⟨layout, staged, preferred, latency⟩
  staged y h := by
    have applied : y.applyStaged = y := by
      unfold Screen.applyStaged
      rw [h.2.1]
    rw [applied]
    exact h
  pressed _ h := h
  retimed _ _ h := h

/-- Every lead stands: the screens keep what decides it, and the links their capabilities. -/
structure State.SameLeads (s u : State) : Prop where
  mirror : u.arb.mirror = s.arb.mirror
  caps : ∀ i, (u.link i).caps = (s.link i).caps
  screens : ∀ i, (s.screen i).sameLead (u.screen i)

theorem State.SameLeads.cueLead {s u : State} (h : s.SameLeads u) (c : Cue) : u.cueLead c = s.cueLead c := by
  have lead : u.leadOf c = s.leadOf c := funext fun i => by
    obtain ⟨-, -, preferred, latency⟩ := h.screens i
    unfold State.leadOf
    rw [h.caps, preferred, latency]
  have addresses : u.addresses c = s.addresses c := funext fun i => by
    unfold State.addresses State.isMonitor
    rw [h.mirror, (h.screens i).1]
  unfold State.cueLead State.addressed
  rw [lead, addresses]

/-- Whatever is built from the updates of `Screens` keeps the capabilities of the links. -/
theorem Screens.caps (s : State) : Screens fun u => ∀ i, (u.link i).caps = (s.link i).caps where
  journalAt t b u h i := by
    rw [show (u.journalAt t b).link i = u.link i by
      unfold State.link
      rw [State.journalAt_onlyBus t b u.onlyBus_refl]]
    exact h i
  setScreen _ _ _ _ h := h
  send j m u _ h i := by
    by_cases same : j = i
    · subst same
      rw [State.linkSend_link_self]
      exact h j
    · exact (congrArg Link.caps (State.setLink_link_ne u _ same)).trans (h i)
  setArb _ _ _ h := h

theorem State.SameLeads.placeRequest {s u : State} (h : s.SameLeads u) (i : Screen16) (r : Request) :
    s.SameLeads (u.placeRequest i r) where
  mirror := (u.placeRequest_mirror i r).trans h.mirror
  caps := (Screens.caps s).placeRequest i r u h.caps
  screens j := by
    cases plain : u.isMonitor i with
    | true =>
      rw [State.placeRequest_monitor r plain]
      exact h.screens j
    | false =>
      rw [State.placeRequest_plain r plain]
      refine State.evaluate_keeps (Screen.kept_sameLead _) i ?_
      by_cases same : i = j
      · subst same
        obtain ⟨-, -, -, own⟩ := u.displace_own i r
        have self : (u.asking i r).screen i = ((u.displace i r).screen i).setPending r.level (some r) :=
          State.setScreen_screen_self _ _ _
        rw [self, own]
        exact h.screens i
      · have asked : (u.asking i r).screen j = u.screen j :=
          (State.setScreen_screen_ne _ _ same).trans (u.displace_untouched i r same).screen
        rw [asked]
        exact h.screens j

/-- Where no layout is staged a fire leaves every lead as it was. -/
theorem State.fired_sameLeads (e : Armed) {s : State} (unstaged : ∀ i, (s.screen i).staged = none) :
    s.SameLeads (s.fired e).1 :=
  foldl_keeps_fst (P := s.SameLeads) (fun p i h => by
    rw [fireAt_eq]
    split
    · exact h.placeRequest i _
    · exact h) allScreens (s, 0) ⟨rfl, fun _ => rfl, fun i => ⟨rfl, unstaged i, rfl, rfl⟩⟩

end Sys2Proof.Machine
end

section
/-! The fire timer (R83 to R94): the entry and those of its position made DUE, the fires that follow, and what each leaves. -/

namespace Sys2Proof.Machine

/-! ### Made DUE -/

/-- An entry made DUE. -/
def Armed.made (e : Armed) : Armed := { e with timing := .due }

/-- An entry of the list as the fire timer of `e` expires. -/
def Armed.dueWith (e : Armed) (now : Time) (x : Armed) : Armed :=
  if (x.isOf e.cue e.pass || e.sharesPosition x) && x.expires now then x.made else x

theorem Armed.expires_of {x : Armed} {now T : Time} (timed : x.timing = .timed) (fire : x.fire = some T) (come : T ≤ now) :
    x.expires now = true := by
  unfold Armed.expires
  rw [timed, fire]
  simpa using come

theorem Armed.isOf_self (e : Armed) : e.isOf e.cue e.pass = true := by simp [Armed.isOf]

theorem Armed.dueWith_self {e : Armed} {now : Time} (expires : e.expires now = true) : e.dueWith now e = e.made := by
  unfold Armed.dueWith
  rw [Armed.isOf_self, expires]
  rfl

theorem Armed.sharesPosition_of {e x : Armed} (target : e.target ≠ none) (sec : x.sec = e.sec) (pass : x.pass = e.pass)
    (same : x.target = e.target) : e.sharesPosition x = true := by
  unfold Armed.sharesPosition
  rw [sec, pass, same]
  cases h : e.target with
  | none => exact absurd h target
  | some p => simp

theorem Armed.dueWith_shares {e x : Armed} {now : Time} (shares : e.sharesPosition x = true)
    (expires : x.expires now = true) : e.dueWith now x = x.made := by
  unfold Armed.dueWith
  rw [shares, expires, Bool.or_true]
  rfl

/-- An entry with another cue and no target of its own is left. -/
theorem Armed.dueWith_apart {e x : Armed} {now : Time} (apart : x.cue ≠ e.cue) (untargeted : x.target = none) :
    e.dueWith now x = x := by
  have other : x.isOf e.cue e.pass = false := by simp [Armed.isOf, apart]
  have unshared : e.sharesPosition x = false := by
    unfold Armed.sharesPosition
    rw [untargeted]
    cases e.target <;> simp
  unfold Armed.dueWith
  rw [other, unshared]
  rfl

/-- The show as the fire timer of `e` expires, before anything fires. -/
def State.timerDue (t : Time) (e : Armed) (s : State) : State :=
  (s.begin t).setArmed (s.sch.armed.map (e.dueWith (max s.clock t)))

theorem execFireTimer_expires {t : Time} {s : State} {e : Armed} (armed : s.armedEntry e.cue e.pass = some e)
    (expires : e.expires (max s.clock t) = true) : exec (.fireTimer t e.cue e.pass) s = .next (s.timerDue t e).fireAll := by
  have there : (s.begin t).armedEntry e.cue e.pass = some e := armed
  show Host.Outcome.next ((s.begin t).expireFire e.cue e.pass) = _
  unfold State.expireFire
  rw [there]
  exact congrArg Host.Outcome.next (if_pos expires)

/-! ### Fires in turn -/

theorem State.fireLoop_fires {s : State} {e : Armed} (n : Nat) (may : s.mayFire = true)
    (first : s.firstFirable s.sch.armed = some e) : s.fireLoop (n + 1) = (s.fireEntry e).fireLoop n := by
  rw [State.fireLoop, if_pos may, first]

theorem State.firstFirable_head {s : State} {e : Armed} {es : List Armed} (due : e.timing = .due)
    (complete : e.isComplete = true) : s.firstFirable (e :: es) = some e := by
  unfold State.firstFirable
  rw [if_pos due, if_pos complete]

theorem State.firstFirable_single {s : State} {e : Armed} (waits : e.timing ≠ .due ∨ e.isComplete = false) :
    s.firstFirable [e] = none := by
  unfold State.firstFirable
  rcases waits with undue | pending
  · rw [if_neg undue]
    rfl
  · rw [if_neg (ne_true_of_eq_false pending)]
    split
    · split <;> rfl
    · rfl

theorem State.fireLoop_waits {s : State} (n : Nat) (none : s.firstFirable s.sch.armed = none) : s.fireLoop n = s := by
  cases n with
  | zero => rfl
  | succ n =>
    rw [State.fireLoop, none]
    split <;> rfl

/-- The entry behind the one that fires, timed from its appearance time when it follows it (R85, R77). -/
def Armed.behind (e : Armed) (y : State) (f : Armed) : Armed :=
  if f.isOf (e.cue + 1) e.pass then
    if f.copy.isFollow && f.timing != .due then y.timeFollow (e.appear.getD 0) f else f
  else f

theorem Armed.behind_follow {e f : Armed} {y : State} {delay : Nat} (next : f.cue = e.cue + 1) (pass : f.pass = e.pass)
    (follow : f.copy.anchor = .follow delay) (undue : f.timing ≠ .due) : Armed.behind e y f = { f with
      lead := some (y.cueLead f.copy), appear := some (e.appear.getD 0 + delay)
      fire := some (e.appear.getD 0 + delay - y.cueLead f.copy)
      timing := if e.appear.getD 0 + delay - y.cueLead f.copy ≤ y.clock then .due else .timed } := by
  have mine : f.isOf (e.cue + 1) e.pass = true := by
    rw [← next, ← pass]
    exact Armed.isOf_self f
  have follows : (f.copy.isFollow && f.timing != .due) = true := by
    unfold Cue.isFollow
    rw [follow]
    simpa using undue
  have delays : f.copy.delay = delay := by
    unfold Cue.delay
    rw [follow]
  unfold Armed.behind
  rw [mine, follows, if_pos rfl, if_pos rfl]
  unfold State.timeFollow
  dsimp only
  rw [delays]
  rfl

/-- The first of two entries fires: the other stays, timed when it follows it (R85, R90). -/
theorem State.fireEntry_first {s : State} {e f : Armed} (armed : s.sch.armed = [e, f]) (apart : f.isOf e.cue e.pass = false)
    (unowed : s.wlk.owedGo = none) : (s.fireEntry e).sch = { s.sch with
        fireRecord := some { cue := e.cue, pass := e.pass, appear := e.appear.getD 0 }
        armed := [Armed.behind e (s.fireSettled e) f] } ∧
      (s.fireEntry e).ctl = s.ctl ∧ s.FiredQuietly e (s.fireSettled e) := by
  have left : (s.sch.left e).armed = [f] := by
    unfold Scheduler.left
    dsimp only
    rw [armed, List.filter_cons, List.filter_cons, Armed.isOf_self, apart]
    rfl
  have quietly := State.fireSettled_quietly (e := e) (.inr (by rw [left]; exact List.cons_ne_nil _ _)) unowed
  obtain ⟨-, ctl, -, -, sch⟩ := quietly.show
  rw [State.fireEntry_settled]
  generalize s.fireSettled e = y at *
  refine ⟨?_, ctl, quietly⟩
  have timed : (y.timeFollower e.cue e.pass (e.appear.getD 0)).sch =
      { y.sch with armed := y.sch.armed.map (Armed.behind e y) } := rfl
  rw [timed, sch, left]
  rfl

/-! ### The clauses of one and two entries -/

/-- Under FREEZE the entry and those of its position are DUE, and nothing fires (R88). -/
theorem fireTimer_frozen (t : Time) (s : State) (e : Armed) (T : Time) (frozen : s.sch.freeze = true)
    (armed : s.armedEntry e.cue e.pass = some e) (timed : e.timing = .timed) (fire : e.fire = some T)
    (come : T ≤ max s.clock t) : exec (.fireTimer t e.cue e.pass) s = .next { s.begin t with sch := { s.sch with
      armed := s.sch.armed.map fun x =>
        if (x.isOf e.cue e.pass = true ∨ (e.target ≠ none ∧ x.sec = e.sec ∧ x.pass = e.pass ∧ x.target = e.target)) ∧
            x.timing = .timed ∧ x.fire.any (fun f => decide (f ≤ max s.clock t)) = true
        then { x with timing := .due } else x } } := by
  rw [execFireTimer_expires armed (Armed.expires_of timed fire come), State.fireAll_nothing (s := s.timerDue t e) (.inl frozen)]
  have each (x : Armed) : e.dueWith (max s.clock t) x =
      if (x.isOf e.cue e.pass = true ∨ (e.target ≠ none ∧ x.sec = e.sec ∧ x.pass = e.pass ∧ x.target = e.target)) ∧
          x.timing = .timed ∧ x.fire.any (fun f => decide (f ≤ max s.clock t)) = true
      then { x with timing := .due } else x := by
    unfold Armed.dueWith Armed.sharesPosition Armed.expires
    refine if_congr ?_ rfl rfl
    simp only [Bool.and_eq_true, Bool.or_eq_true, beq_iff_eq, Option.isSome_iff_ne_none, and_assoc]
  unfold State.timerDue
  rw [show e.dueWith (max s.clock t) = _ from funext each]
  rfl

/-- A pair that has been made DUE. -/
theorem State.timerDue_pair {t : Time} {s : State} {e f g : Armed} (list : s.sch.armed = [e, f])
    (first : g.dueWith (max s.clock t) e = e.made) (second : g.dueWith (max s.clock t) f = f.made) :
    (s.timerDue t g).sch.armed = [e.made, f.made] := by
  show s.sch.armed.map (g.dueWith (max s.clock t)) = _
  rw [list, List.map_cons, List.map_cons, first, second]
  rfl

theorem Armed.made_complete {e : Armed} (complete : ∀ p ∈ e.keys, p.2 ≠ .pending) : e.made.isComplete = true :=
  (Armed.isComplete_iff e.made).mpr complete

/-- Two complete entries that are DUE fire both, the first of the list first (R87). -/
theorem State.fireAll_pair {s : State} {e f : Armed} (may : s.mayFire = true) (armed : s.sch.armed = [e.made, f.made])
    (apart : f.isOf e.cue e.pass = false) (unowed : s.wlk.owedGo = none) (whole : e.made.isComplete = true)
    (whole' : f.made.isComplete = true) : s.fireAll.sch.armed = [] ∧
      s.fireAll.sch.fireRecord = some { cue := f.cue, pass := f.pass, appear := f.appear.getD 0 } := by
  obtain ⟨sch, ctl, -⟩ := State.fireEntry_first armed (show f.made.isOf e.made.cue e.made.pass = false from apart) unowed
  have behind : Armed.behind e.made (s.fireSettled e.made) f.made = f.made := by
    unfold Armed.behind
    have due : (f.made.timing != .due) = false := rfl
    rw [due, Bool.and_false]
    split <;> rfl
  rw [behind] at sch
  have first : s.fireAll = (s.fireEntry e.made).fireLoop 2 := by
    unfold State.fireAll
    rw [armed]
    exact State.fireLoop_fires 2 may (by rw [armed]; exact State.firstFirable_head rfl whole)
  have may' : (s.fireEntry e.made).mayFire = true := by
    rw [State.mayFire_iff] at may ⊢
    rw [ctl, sch]
    exact may
  generalize s.fireEntry e.made = y at *
  have alone : y.sch.armed = [f.made] := by rw [sch]
  have second : y.fireLoop 2 = (y.fireEntry f.made).fireLoop 1 :=
    State.fireLoop_fires 1 may' (by rw [alone]; exact State.firstFirable_head rfl whole')
  obtain ⟨empty, record, -⟩ := State.fireEntry_last (e := f.made) (s := y) (by
    intro x there
    rw [alone, List.mem_singleton] at there
    rw [there]
    exact Armed.isOf_self _)
  rw [first, second, State.fireLoop_empty 1 empty]
  exact ⟨empty, record⟩

theorem State.armedEntry_head {s : State} {e : Armed} {es : List Armed} (armed : s.sch.armed = e :: es) :
    s.armedEntry e.cue e.pass = some e := by
  unfold State.armedEntry
  rw [armed, List.find?_cons, Armed.isOf_self]

theorem State.armedEntry_second {s : State} {e f : Armed} (armed : s.sch.armed = [e, f]) (apart : e.cue ≠ f.cue) :
    s.armedEntry f.cue f.pass = some f := by
  have other : e.isOf f.cue f.pass = false := by simp [Armed.isOf, apart]
  unfold State.armedEntry
  rw [armed, List.find?_cons, other, List.find?_cons, Armed.isOf_self]

/-- Two entries of one position fire with either timer (R9, R87). -/
theorem fireTimer_pair (t : Time) (s : State) (e f : Armed) (T S : Time) (c : Nat) (running : s.ctl.engine = .running)
    (open_ : s.sch.freeze = false) (armed : s.sch.armed = [e, f]) (lower : e.cue < f.cue) (sec : f.sec = e.sec)
    (pass : f.pass = e.pass) (target : e.target ≠ none) (same : f.target = e.target) (timed : e.timing = .timed)
    (timed' : f.timing = .timed) (fire : e.fire = some T) (fire' : f.fire = some S) (come : T ≤ max s.clock t)
    (come' : S ≤ max s.clock t) (whole : ∀ p ∈ e.keys, p.2 ≠ .pending) (whole' : ∀ p ∈ f.keys, p.2 ≠ .pending)
    (unowed : s.wlk.owedGo = none) (either : c = e.cue ∨ c = f.cue) :
    ∃ u, exec (.fireTimer t c e.pass) s = .next u ∧ u.sch.armed = [] ∧
      u.sch.fireRecord = some { cue := f.cue, pass := f.pass, appear := f.appear.getD 0 } := by
  have expires := Armed.expires_of timed fire come
  have expires' := Armed.expires_of timed' fire' come'
  have apart : f.isOf e.cue e.pass = false := by simp [Armed.isOf, (Nat.ne_of_lt lower).symm]
  have may (g : Armed) : (s.timerDue t g).mayFire = true := (State.mayFire_iff _).mpr ⟨running, open_⟩
  have both (g : Armed) (first : g.dueWith (max s.clock t) e = e.made) (second : g.dueWith (max s.clock t) f = f.made) :=
    State.fireAll_pair (may g) (State.timerDue_pair armed first second) apart unowed (Armed.made_complete whole)
      (Armed.made_complete whole')
  rcases either with rfl | rfl
  · have here := State.armedEntry_head armed
    exact ⟨_, execFireTimer_expires here expires,
      both e (Armed.dueWith_self expires) (Armed.dueWith_shares (Armed.sharesPosition_of target sec pass same) expires')⟩
  · have here := State.armedEntry_second armed (Nat.ne_of_lt lower)
    rw [← pass]
    exact ⟨_, execFireTimer_expires here expires', both f
      (Armed.dueWith_shares (Armed.sharesPosition_of (by rw [same]; exact target) sec.symm pass.symm same.symm) expires)
      (Armed.dueWith_self expires')⟩

/-- A FOLLOW entry behind the one that fires (R85, R90). -/
theorem fireTimer_follow (t : Time) (s : State) (e f : Armed) (T delay S : Nat) (running : s.ctl.engine = .running)
    (open_ : s.sch.freeze = false) (armed : s.sch.armed = [e, f]) (next : f.cue = e.cue + 1) (pass : f.pass = e.pass)
    (follow : f.copy.anchor = .follow delay) (untargeted : f.target = none) (undue : f.timing ≠ .due)
    (timed : e.timing = .timed) (fire : e.fire = some T) (come : T ≤ max s.clock t)
    (whole : ∀ p ∈ e.keys, p.2 ≠ .pending) (unowed : s.wlk.owedGo = none) (unstaged : ∀ i, (s.screen i).staged = none)
    (hS : S = e.appear.getD 0 + delay - s.cueLead f.copy) :
    ∃ u, exec (.fireTimer t e.cue e.pass) s = .next u ∧
      (max s.clock t < S ∨ (∃ p ∈ f.keys, p.2 = .pending) → u.sch.armed = [{ f with
        lead := some (s.cueLead f.copy), appear := some (e.appear.getD 0 + delay), fire := some S
        timing := if S ≤ max s.clock t then .due else .timed }]) ∧
      (S ≤ max s.clock t → (∀ p ∈ f.keys, p.2 ≠ .pending) → u.sch.armed = [] ∧
        u.sch.fireRecord = some { cue := f.cue, pass := f.pass, appear := e.appear.getD 0 + delay }) := by
  have expires := Armed.expires_of timed fire come
  have apart : f.isOf e.cue e.pass = false := by simp [Armed.isOf, next]
  have list : (s.timerDue t e).sch.armed = [e.made, f] := by
    show s.sch.armed.map (e.dueWith (max s.clock t)) = _
    rw [armed, List.map_cons, List.map_cons, Armed.dueWith_self expires,
      Armed.dueWith_apart (by rw [next]; exact Nat.succ_ne_self _) untargeted]
    rfl
  have may : (s.timerDue t e).mayFire = true := (State.mayFire_iff _).mpr ⟨running, open_⟩
  obtain ⟨sch, ctl, quietly⟩ := State.fireEntry_first list (show f.isOf e.made.cue e.made.pass = false from apart) unowed
  have leads : (((s.timerDue t e).fireSettled e.made)).cueLead f.copy = s.cueLead f.copy := by
    have fired := State.fired_sameLeads e.made (s := s.timerDue t e) unstaged
    rw [quietly.frame]
    exact fired.cueLead f.copy
  have clock : ((s.timerDue t e).fireSettled e.made).clock = max s.clock t := quietly.show.2.2.2.1
  let f' : Armed := { f with
    lead := some (s.cueLead f.copy), appear := some (e.appear.getD 0 + delay), fire := some S
    timing := if S ≤ max s.clock t then .due else .timed }
  have behind : Armed.behind e.made ((s.timerDue t e).fireSettled e.made) f = f' := by
    rw [Armed.behind_follow (e := e.made) next pass follow undue, leads, clock,
      ← show S = e.made.appear.getD 0 + delay - s.cueLead f.copy from hS]
    rfl
  rw [behind] at sch
  refine ⟨_, execFireTimer_expires (State.armedEntry_head armed) expires, ?_⟩
  have first : (s.timerDue t e).fireAll = ((s.timerDue t e).fireEntry e.made).fireLoop 2 := by
    unfold State.fireAll
    rw [list]
    exact State.fireLoop_fires 2 may (by rw [list]; exact State.firstFirable_head rfl (Armed.made_complete whole))
  have may' : ((s.timerDue t e).fireEntry e.made).mayFire = true := by
    rw [State.mayFire_iff] at may ⊢
    rw [ctl, sch]
    exact may
  rw [first]
  generalize (s.timerDue t e).fireEntry e.made = y at *
  have alone : y.sch.armed = [f'] := by rw [sch]
  refine ⟨fun waits => ?_, fun due complete => ?_⟩
  · rw [State.fireLoop_waits 2 (by
      rw [alone]
      refine State.firstFirable_single (waits.imp (fun late => ?_) fun pending => ?_)
      · show (if S ≤ max s.clock t then Timing.due else .timed) ≠ .due
        rw [if_neg (Nat.not_le_of_lt late)]
        exact nofun
      · obtain ⟨p, there, pending⟩ := pending
        rw [← Bool.not_eq_true, Armed.isComplete_iff]
        exact fun complete => complete p there pending)]
    exact alone
  · have now : f'.timing = .due := if_pos due
    have second : y.fireLoop 2 = (y.fireEntry f').fireLoop 1 :=
      State.fireLoop_fires 1 may' (by
        rw [alone]
        exact State.firstFirable_head now ((Armed.isComplete_iff f').mpr complete))
    obtain ⟨empty, record, -⟩ := State.fireEntry_last (e := f') (s := y) (by
      intro x there
      rw [alone, List.mem_singleton] at there
      rw [there]
      exact Armed.isOf_self _)
    rw [second, State.fireLoop_empty 1 empty]
    exact ⟨empty, record⟩

end Sys2Proof.Machine
end

section
/-! One entry that fires alone with the fire timer (R83, R90 to R94): its requests, the history, the records. -/

namespace Sys2Proof.Machine

/-! ### What follows the placing of the requests -/

/-- The automatic end leaves the show beat, and no GO owed where none was (R175). -/
theorem State.testEnd_beat {s : State} (unowed : s.wlk.owedGo = none) :
    s.testEnd.trk.beat = s.trk.beat ∧ s.testEnd.wlk.owedGo = none := by
  by_cases ends : s.ctl.engine = .running ∧ s.wlk.inForce = .endOfShow ∧ s.sch.armed = []
  · obtain ⟨running, ended, empty⟩ := ends
    have done := State.testEnd_ends running ended empty
    refine ⟨?_, by rw [done.walker]⟩
    rw [done.frame]
    rfl
  · have stays : s.testEnd = s := if_neg ends
    rw [stays]
    exact ⟨rfl, unowed⟩

/-- A fire leaves the show beat (R90). -/
theorem State.fireEntry_beat {s : State} (e : Armed) (unowed : s.wlk.owedGo = none) :
    (s.fireEntry e).trk.beat = s.trk.beat := by
  obtain ⟨trk, sch, -, -, -, wlk⟩ := State.fireReported_show e s
  have unowed' : (s.fireReported e).wlk.owedGo = none := by
    rw [wlk, Walker.remembers_frame]
    exact unowed
  obtain ⟨beat, owed⟩ := State.testEnd_beat (s := { s.fireReported e with sch := (s.fireReported e).sch.left e }) unowed'
  obtain ⟨frame, -⟩ := State.cueFired_unowed (s := (s.fireReported e).leaveList e) e owed
  have settled : (s.fireSettled e).trk = ((s.fireReported e).leaveList e).trk := by
    unfold State.fireSettled
    rw [frame]
  rw [State.fireEntry_settled]
  show (s.fireSettled e).trk.beat = _
  rw [settled, State.leaveList_eq, beat]
  exact congrArg Tracker.beat trk

/-- The records of a fire stay in the journal queue. -/
theorem State.fireEntry_records {s : State} {e : Armed} (x : JournalRecord)
    (there : x ∈ ((s.fired e).1.journalFire e (s.fired e).2).smi.journalQueue) :
    x ∈ (s.fireEntry e).smi.journalQueue := by
  have show_ := Show.journaled x
  have missing : x ∈ (((s.fired e).1.journalFire e (s.fired e).2).journalMissing e (s.missing e)).smi.journalQueue :=
    foldl_keeps (P := fun y : State => x ∈ y.smi.journalQueue) (fun y _ h => show_.toWalks.journal _ y h) _ _ there
  have remembered : x ∈ ((((s.fired e).1.journalFire e (s.fired e).2).journalMissing e (s.missing e)).remember e
      (s.fired e).2).smi.journalQueue := by
    rw [State.remember_eq]
    exact missing
  have reported : x ∈ (s.fireReported e).smi.journalQueue :=
    (⟨fun _ _ h => (Bus.journaled x).enqueue _ _ h, fun _ _ _ h => h⟩ : Titles fun y : State => x ∈ y.smi.journalQueue).releaseKeys
      e.pinnedKeys _ remembered
  have walks := show_.toWalks
  rw [State.fireEntry_eq]
  exact walks.updateArmed _ _ _ _ (walks.cueFired _ _ (walks.testEnd _ reported))

/-- The records that a fire journals with room for two (R93, R94). -/
theorem State.journalFire_records {z : State} {e : Armed} (screens : BitVec 16) (room : z.smi.journalQueue.length < 15) :
    (⟨z.smi.journalCount, z.clock, .cueFired e.pass e.sec e.copy.action.code e.copy.anchor.code e.cue
      e.copy.number screens (e.appear.getD 0) (e.fire.getD 0)⟩ : JournalRecord) ∈ (z.journalFire e screens).smi.journalQueue ∧
    (e.fire.getD 0 + z.sch.lateTolerance < z.clock → (⟨(z.smi.journalCount + 1) % 4294967296, z.clock,
      .cueLate e.pass e.cue e.copy.number (z.clock - e.fire.getD 0)⟩ : JournalRecord) ∈
        (z.journalFire e screens).smi.journalQueue) := by
  unfold State.journalFire
  dsimp only
  have first := State.journal_mem (s := z) (.cueFired e.pass e.sec e.copy.action.code e.copy.anchor.code e.cue
    e.copy.number screens (e.appear.getD 0) (e.fire.getD 0)) (by omega)
  have length := State.journal_length z (.cueFired e.pass e.sec e.copy.action.code e.copy.anchor.code e.cue
    e.copy.number screens (e.appear.getD 0) (e.fire.getD 0))
  have count : (z.journal (.cueFired e.pass e.sec e.copy.action.code e.copy.anchor.code e.cue
    e.copy.number screens (e.appear.getD 0) (e.fire.getD 0))).smi.journalCount = (z.smi.journalCount + 1) % 4294967296 :=
    (State.journalAt_journal z.clock _ z).1
  have frame := State.journalAt_onlyBus z.clock (.cueFired e.pass e.sec e.copy.action.code e.copy.anchor.code e.cue
    e.copy.number screens (e.appear.getD 0) (e.fire.getD 0)) z.onlyBus_refl
  rw [show z.journalAt z.clock _ = z.journal (.cueFired e.pass e.sec e.copy.action.code e.copy.anchor.code e.cue
    e.copy.number screens (e.appear.getD 0) (e.fire.getD 0)) from rfl] at frame
  generalize z.journal _ = y at *
  have clock : y.clock = z.clock := by rw [frame]
  have tolerance : y.sch.lateTolerance = z.sch.lateTolerance := by rw [frame]
  rw [clock, tolerance]
  split
  · refine ⟨(Show.journaled _).toWalks.journal _ y first, fun _ => ?_⟩
    have second := State.journal_mem (s := y) (.cueLate e.pass e.cue e.copy.number (z.clock - e.fire.getD 0)) (by omega)
    rw [count, clock] at second
    exact second
  · next early => exact ⟨first, fun late => absurd late early⟩

/-! ### The requests placed -/

/-- Two states of which a placed request tells the same. -/
theorem State.firedPlaced_view {s z u : State} {i : Screen16} {r : Request} (arb : u.arb = z.arb) (links : u.links = z.links)
    (sent : u.sent = z.sent) (clock : u.clock = z.clock) (h : s.firedPlaced z i r) : s.firedPlaced u i r := by
  unfold State.firedPlaced State.waitsAt State.showSent State.messageSent State.screen State.link at *
  rw [arb, links, sent, clock]
  exact h

/-- A request that a screen has been asked for stands there as a fire leaves it (R117, R120). -/
theorem State.Asked.firedPlaced {s b u : State} {i : Screen16} {r : Request} (h : s.Asked b u i r) (kind : r.kind ≠ .blank)
    (endless : r.endTime = none) : s.firedPlaced u i r := by
  have ahead (T : Time) (ends : r.endTime = some T) : u.clock < T := absurd (endless.symm.trans ends) nofun
  refine ⟨fun waits => ?_, fun released ready unmasked empty => ?_⟩
  · rcases waits with late | ⟨dark, bare⟩
    · exact h.waits_unreleased late ahead
    · exact (h.waits_dark kind ahead dark bare).1
  · have bare : (s.screen i).visibleTop = none := Screen.visibleTop_none.2 fun m _ => (empty m).1
    have welcome : (s.screen i).Welcomes r u.clock :=
      ⟨kind, released, ahead, unmasked, .inr bare, fun m _ => (empty m).2, fun m y entry =>
        absurd ((empty m).1.symm.trans entry) nofun⟩
    exact h.shown welcome (Screen.yields_of_bare bare) ready

section
variable {t : Time} {s : State} {e : Armed}

theorem State.timerDue_alike (i : Screen16) : State.Alike i s (s.timerDue t e) :=
  ⟨rfl, rfl, rfl, rfl, s.sameLine_refl i, fun mon _ => ⟨s.sameLine_refl mon, rfl⟩⟩

/-- A screen that takes the fire of the timer has been asked for the request of R90. -/
theorem State.timerDue_asked {i : Screen16} (takes : s.takesFire e i = true) : ∃ b,
    s.Asked b ((s.timerDue t e).fired e.made).1 i (s.firedRequest e i ((s.screen i).fireTuples e)) := by
  have plain : s.isMonitor i = false := by
    unfold State.takesFire at takes
    simp only [Bool.and_eq_true, Bool.not_eq_true', and_assoc] at takes
    exact takes.2.1
  obtain ⟨p, first, last⟩ := (s.timerDue t e).fired_around e.made (i := i) plain
  have screen : p.1.screen i = s.screen i := first.screen
  have takes' : p.1.takesFire e.made i = true := by
    unfold State.takesFire at takes ⊢
    rw [first.isMonitor, screen]
    exact takes
  have request : p.1.cueRequest e.made i ((p.1.screen i).fireTuples e.made) =
      s.firedRequest e i ((s.screen i).fireTuples e) := by
    rw [screen]
    exact State.cueRequest_eq ⟨screen, first.link⟩ rfl _
  rw [fireAt_eq, if_pos takes', request] at last
  exact ⟨_, State.asked_of plain (State.timerDue_alike i) rfl rfl first last⟩

/-- The screens of a fire are left as its requests have left them. -/
theorem State.fireEntry_screens (e : Armed) (v : State) : (v.fireEntry e).arb = (v.fired e).1.arb ∧
    (v.fireEntry e).links = (v.fired e).1.links ∧ (v.fireEntry e).sent = (v.fired e).1.sent ∧
    (v.fireEntry e).clock = (v.fired e).1.clock := by
  obtain ⟨-, -, arb, links, clock, sent, -⟩ := State.fireEntry_onlyWalk e v
  have reported := State.fireReported_frame e v
  generalize v.fireReported e = y at *
  rw [arb, links, clock, sent, reported]
  exact ⟨rfl, rfl, rfl, rfl⟩

/-- The requests of the fire, where a TITLE has tuples and where a BLANK waits for its release time (R90, R92, R117). -/
theorem State.timerDue_placed {i : Screen16} (plain : s.isMonitor i = false) (scope : e.copy.scope.getLsbD i.val = true) :
    ((s.screen i).titleTuples e ≠ [] → e.copy.action = .title →
      s.firedPlaced ((s.timerDue t e).fireEntry e.made) i (s.firedRequest e i ((s.screen i).titleTuples e))) ∧
    (e.copy.action = .blank → max s.clock t < (s.firedRequest e i []).release →
      ((s.timerDue t e).fireEntry e.made).waitsAt i (s.firedRequest e i [])) := by
  obtain ⟨arb, links, sent, clock⟩ := State.fireEntry_screens e.made (s.timerDue t e)
  have now : ((s.timerDue t e).fired e.made).1.clock = max s.clock t := (State.fired_only e.made (s.timerDue t e)).2.2.1
  refine ⟨fun some_ title => ?_, fun blank late => ?_⟩
  · obtain ⟨b, asked⟩ := State.timerDue_asked (t := t) (s := s) (e := e) (i := i) (by
      unfold State.takesFire
      rw [scope, plain]
      simp [some_])
    have tuples : (s.screen i).fireTuples e = (s.screen i).titleTuples e := by
      unfold Screen.fireTuples
      rw [title]
    rw [tuples] at asked
    refine State.firedPlaced_view arb links sent clock (asked.firedPlaced ?_ rfl)
    unfold State.firedRequest
    rw [title]
    exact nofun
  · obtain ⟨b, asked⟩ := State.timerDue_asked (t := t) (s := s) (e := e) (i := i) (by
      unfold State.takesFire
      rw [scope, plain, blank]
      rfl)
    have tuples : (s.screen i).fireTuples e = [] := by
      unfold Screen.fireTuples
      rw [blank]
    rw [tuples] at asked
    have waits := asked.waits_unreleased (by rw [now]; exact late) fun T ends => absurd ends nofun
    unfold State.waitsAt State.screen at *
    rw [arb]
    exact waits

end

/-- An entry alone in the list fires with its timer (R83, R90 to R94). -/
theorem fireTimer_lone (t : Time) (s : State) (e : Armed) (T : Time) (running : s.ctl.engine = .running)
    (open_ : s.sch.freeze = false) (armed : s.sch.armed = [e]) (timed : e.timing = .timed) (fire : e.fire = some T)
    (come : T ≤ max s.clock t) (whole : ∀ p ∈ e.keys, p.2 ≠ .pending) :
    exec (.fireTimer t e.cue e.pass) s = .next ((s.timerDue t e).fireEntry e.made) ∧
      ((s.timerDue t e).fireEntry e.made).sch.armed = [] ∧ ((s.timerDue t e).fireEntry e.made).sch.fireRecord =
        some { cue := e.cue, pass := e.pass, appear := e.appear.getD 0 } := by
  have expires := Armed.expires_of timed fire come
  have alone : (s.timerDue t e).sch.armed = [e.made] := by
    show s.sch.armed.map (e.dueWith (max s.clock t)) = _
    rw [armed, List.map_cons, Armed.dueWith_self expires]
    rfl
  obtain ⟨fires, empty, record, -⟩ := State.fireAll_alone ((State.mayFire_iff (s.timerDue t e)).mpr ⟨running, open_⟩) alone
    rfl (Armed.made_complete whole)
  have he := execFireTimer_expires (State.armedEntry_head armed) expires
  rw [fires] at he empty record
  exact ⟨he, empty, record⟩

/-- The history as the fire leaves it: a TITLE is pushed, a BLANK is not (R69, R92). -/
theorem State.timerDue_history {t : Time} {s : State} {e : Armed} (shown : s.wlk.inForce ≠ .endOfShow)
    (unowed : s.wlk.owedGo = none) : ((s.timerDue t e).fireEntry e.made).wlk.history =
      (s.wlk.remembers e.made (s.firedScreens e)).history := by
  have quietly := State.fireSettled_quietly (e := e.made) (s := s.timerDue t e) (.inl shown) unowed
  have mask : ((s.timerDue t e).fired e.made).2 = s.firedScreens e := State.fired_mask e.made (s.timerDue t e)
  rw [← mask]
  exact quietly.history

/-- CUE FIRED, and CUE LATE behind it, with nothing overwritten and room in the queue (R93, R94). -/
theorem State.timerDue_records {t : Time} {s : State} {e : Armed} {T : Time} (fire : e.fire = some T)
    (free : ∀ i, (s.screen i).pendingAt[e.copy.level] = none) (room : s.smi.journalQueue.length < 15) :
    (⟨s.smi.journalCount, max s.clock t, .cueFired e.pass e.sec e.copy.action.code e.copy.anchor.code e.cue
      e.copy.number (s.firedScreens e) (e.appear.getD 0) T⟩ : JournalRecord) ∈
        ((s.timerDue t e).fireEntry e.made).smi.journalQueue ∧
    (T + s.sch.lateTolerance < max s.clock t → (⟨(s.smi.journalCount + 1) % 4294967296, max s.clock t,
      .cueLate e.pass e.cue e.copy.number (max s.clock t - T)⟩ : JournalRecord) ∈
        ((s.timerDue t e).fireEntry e.made).smi.journalQueue) := by
  obtain ⟨⟨-, -, sch, -, -⟩, -, clock, -⟩ := State.fired_only e.made (s.timerDue t e)
  have smi : ((s.timerDue t e).fired e.made).1.smi = s.smi := State.fired_smi e.made (s := s.timerDue t e) free
  have mask : ((s.timerDue t e).fired e.made).2 = s.firedScreens e := State.fired_mask e.made (s.timerDue t e)
  have records := State.journalFire_records (z := ((s.timerDue t e).fired e.made).1) (e := e.made)
    ((s.timerDue t e).fired e.made).2 (by rw [smi]; exact room)
  have late : e.made.fire.getD 0 = T := by
    show e.fire.getD 0 = T
    rw [fire]
    rfl
  have tolerance : ((s.timerDue t e).fired e.made).1.sch.lateTolerance = s.sch.lateTolerance := by rw [sch]; rfl
  have now : ((s.timerDue t e).fired e.made).1.clock = max s.clock t := clock
  rw [late, tolerance, now, smi] at records
  obtain ⟨fired, behind⟩ := records
  refine ⟨?_, fun tardy => State.fireEntry_records _ (behind tardy)⟩
  have kept := State.fireEntry_records _ fired
  rw [mask] at kept
  exact kept

/-- Settles O52: under FREEZE, for two entries of one position, for a FOLLOW entry behind, and for one entry alone. -/
theorem fireTimerExpires : Obligations.FireTimerExpires := by
  refine ⟨fireTimer_frozen, fireTimer_pair, fireTimer_follow, ?_⟩
  intro t s e T running open_ armed timed fire come whole unowed
  obtain ⟨he, empty, record⟩ := fireTimer_lone t s e T running open_ armed timed fire come whole
  refine ⟨_, he, empty, record, State.fireEntry_desk e.made _, State.fireEntry_beat e.made unowed,
    fun i some_ title scope plain => (State.timerDue_placed plain scope).1 some_ title,
    fun i blank scope plain late => (State.timerDue_placed plain scope).2 blank late,
    fun title shown => ?_, fun blank shown => ?_, fun free room => State.timerDue_records fire free room⟩
  · rw [State.timerDue_history shown unowed]
    unfold Walker.remembers
    rw [show e.made.copy.action = .title from title]
    rfl
  · rw [State.timerDue_history shown unowed]
    unfold Walker.remembers
    rw [show e.made.copy.action = .blank from blank]

end Sys2Proof.Machine
end

section
/-! The placing of a NOTICE (R176): the tuples of each screen, the requests in turn, and what its end hands back. -/

namespace Sys2Proof.Machine

/-! ### The tuples of a screen -/

/-- The tuples that the model places at a screen are those of the languages its layout names. -/
theorem noticeTuples_eq (keys : List (Key × KeyResult)) (l : Layout) :
    ((presentTuples keys).filter fun t => (layoutLangs l).contains t.lang) = noticeTuples keys l := by
  have named (g : Lang) : (layoutLangs l).contains g = l.toList.contains (some g) := by
    rw [Bool.eq_iff_iff, List.contains_iff_mem]
    unfold layoutLangs
    rw [List.mem_filter]
    refine and_iff_right ?_
    unfold allLangs
    revert g
    decide
  have tuples : noticeTuples keys l = (layoutLangs l).filterMap (presentTuple keys) := by
    unfold noticeTuples
    refine congrArg (fun f => List.filterMap f (layoutLangs l)) (funext fun g => ?_)
    unfold presentTuple
    cases keys.find? fun p => p.1.lang == g with
    | none => rfl
    | some p =>
      obtain ⟨k, r⟩ := p
      cases r <;> rfl
  rw [tuples]
  simp only [named]
  unfold presentTuples layoutLangs
  rw [List.filter_filterMap, List.filterMap_filter]
  refine congrArg (fun f => List.filterMap f allLangs) (funext fun g => ?_)
  cases present : presentTuple keys g with
  | none => simp
  | some t =>
    rw [Option.filter_some, presentTuple_lang present]

/-! ### The walk over the screens -/

section Walk

variable {x : NoticeWork}

/-- A NOTICE places a request at screen `i`. -/
def State.takesNotice (x : NoticeWork) (s : State) (i : Screen16) : Bool :=
  x.screens.getLsbD i.val && !(noticeTuples x.keys (s.screen i).layout).isEmpty

/-- Screen `i` is none of the NOTICE's, or has a tuple for each language of its layout (R176). -/
def State.wholeNotice (x : NoticeWork) (s : State) (i : Screen16) : Bool :=
  !x.screens.getLsbD i.val || (!(noticeTuples x.keys (s.screen i).layout).isEmpty &&
    (noticeTuples x.keys (s.screen i).layout).length == (layoutLangs (s.screen i).layout).length)

theorem placeNoticeAt_eq (x : NoticeWork) (p : State × Placed) (i : Screen16) : placeNoticeAt x p i =
    (if p.1.takesNotice x i then
        p.1.placeRequest i (p.1.noticeRequest x (noticeTuples x.keys (p.1.screen i).layout)) else p.1,
      { screens := if p.1.takesNotice x i then p.2.screens ||| BitVec.twoPow 16 i.val else p.2.screens,
        whole := p.2.whole && p.1.wholeNotice x i }) := by
  unfold placeNoticeAt State.takesNotice State.wholeNotice
  dsimp only
  rw [noticeTuples_eq]
  cases x.screens.getLsbD i.val with
  | false => simp
  | true =>
    generalize noticeTuples x.keys (p.1.screen i).layout = ts
    cases ts with
    | nil => simp
    | cons t ts => rfl

theorem placeNoticeAt_mirror (p : State × Placed) (i : Screen16) : (placeNoticeAt x p i).1.arb.mirror = p.1.arb.mirror := by
  rw [placeNoticeAt_eq]
  dsimp only
  split
  · exact State.placeRequest_mirror _ _ _
  · rfl

theorem placeNoticeAt_untouched {p : State × Placed} {i j : Screen16} (apart : i ≠ j)
    (notCopy : p.1.arb.mirror ≠ some (i, j)) : State.Untouched j p.1 (placeNoticeAt x p i).1 := by
  rw [placeNoticeAt_eq]
  dsimp only
  split
  · exact State.placeRequest_untouched _ _ _ apart notCopy
  · exact State.Untouched.refl j _

variable {s : State} (plain : ∀ i : Screen16, x.screens.getLsbD i.val = true → s.isMonitor i = false)
include plain

/-- A screen that is reached takes the NOTICE as it would have at first. -/
theorem State.Reached.takesNotice {v : State} {i : Screen16} {ls : List Screen16} (h : s.Reached v ls) (there : i ∈ ls) :
    v.takesNotice x i = s.takesNotice x i ∧ v.wholeNotice x i = s.wholeNotice x i := by
  unfold State.takesNotice State.wholeNotice
  cases named : x.screens.getLsbD i.val with
  | false => exact ⟨rfl, rfl⟩
  | true =>
    rw [(h.2 i there (plain i named)).screen]
    exact ⟨rfl, rfl⟩

/-- The screens that have received a request, and whether every one has all its languages. -/
theorem placeNoticeEach_found : ∀ (ls : List Screen16) (p : State × Placed), ls.Nodup → s.Reached p.1 ls →
    (ls.foldl (placeNoticeAt x) p).2 = {
      screens := (ls.filter (s.takesNotice x)).foldl (fun m i => m ||| BitVec.twoPow 16 i.val) p.2.screens
      whole := p.2.whole && ls.all (s.wholeNotice x) }
  | [], p, _, _ => by
    obtain ⟨v, screens, whole⟩ := p
    simp
  | i :: ls, p, nodup, reached => by
    obtain ⟨new, rest⟩ := List.nodup_cons.1 nodup
    obtain ⟨takes, whole⟩ := reached.takesNotice plain (x := x) List.mem_cons_self
    have next := reached.next new (placeNoticeAt_mirror (x := x) p i) fun _ => placeNoticeAt_untouched
    rw [List.foldl_cons, placeNoticeEach_found ls _ rest next, placeNoticeAt_eq, takes, whole, List.filter_cons, List.all_cons,
      Bool.and_assoc]
    split
    · rfl
    · rfl

end Walk

/-- The requests of a NOTICE at its screens. -/
def State.noticePlacing (x : NoticeWork) (v : State) : State × Placed :=
  allScreens.foldl (placeNoticeAt x) (v, { screens := 0, whole := true })

theorem State.noticePlacing_only (x : NoticeWork) (v : State) : v.onlyScreens (v.noticePlacing x).1 :=
  foldl_keeps_fst (P := v.onlyScreens) (placeNoticeAt_only x) allScreens _ v.onlyScreens_refl

section Placing

variable {x : NoticeWork} {s v : State} (arb : v.arb = s.arb) (links : v.links = s.links) (script : v.wlk.script = s.wlk.script)
  (plain : ∀ i : Screen16, x.screens.getLsbD i.val = true → s.isMonitor i = false)
include arb

include links script in
theorem State.alike_of_blocks (i : Screen16) : State.Alike i s v := by
  have link (j : Screen16) : v.link j = s.link j := congrArg (fun l : Vector Link 16 => l[j]) links
  have screen (j : Screen16) : v.screen j = s.screen j := congrArg (fun a : Arbiter => a.screens[j]) arb
  have line (j : Screen16) : s.sameLine v j := ⟨by rw [link], by rw [link], by rw [screen]⟩
  exact ⟨by rw [arb], by rw [arb], by rw [arb], script, line i, fun mon _ => ⟨line mon, link mon⟩⟩

include plain

theorem State.noticePlacing_found : (v.noticePlacing x).2.screens =
      maskOf (allScreens.filter fun i => x.screens.getLsbD i.val && !(noticeTuples x.keys (s.screen i).layout).isEmpty) ∧
    ((v.noticePlacing x).2.whole = true ↔ ∀ i : Screen16, x.screens.getLsbD i.val = true →
      noticeTuples x.keys (s.screen i).layout ≠ [] ∧
        (noticeTuples x.keys (s.screen i).layout).length = (layoutLangs (s.screen i).layout).length) := by
  have monitor (i : Screen16) : v.isMonitor i = s.isMonitor i := by
    unfold State.isMonitor
    rw [arb]
  have screen (i : Screen16) : v.screen i = s.screen i := congrArg (fun a : Arbiter => a.screens[i]) arb
  have found := placeNoticeEach_found (x := x) (s := v) (fun i named => (monitor i).trans (plain i named)) allScreens
    (v, { screens := 0, whole := true }) (by decide) (State.Reached.start v allScreens)
  unfold State.noticePlacing
  rw [found]
  refine ⟨?_, ?_⟩
  · refine congrArg (fun f => maskOf (allScreens.filter f)) (funext fun i => ?_)
    unfold State.takesNotice
    rw [screen]
  · have every : (allScreens.all (v.wholeNotice x) = true) ↔ ∀ i, v.wholeNotice x i = true := by
      rw [List.all_eq_true]
      exact ⟨fun all i => all i (mem_allScreens i), fun all i _ => all i⟩
    rw [Bool.true_and, every]
    refine forall_congr' fun i => ?_
    unfold State.wholeNotice
    rw [screen]
    cases x.screens.getLsbD i.val <;> simp

omit plain in
/-- The walk comes to a screen with all of it as it was, and leaves it as its own step has left it. -/
theorem State.noticePlacing_around {i : Screen16} (here : s.isMonitor i = false) : ∃ p : State × Placed,
    State.Untouched i v p.1 ∧ State.Untouched i (placeNoticeAt x p i).1 (v.noticePlacing x).1 := by
  obtain ⟨before, -, -, first, last⟩ := foldl_around (Prod.fst : State × Placed → State) (f := placeNoticeAt x) (i := i)
    (pair := s.arb.mirror)
    (fun z j apart mirror => placeNoticeAt_untouched apart (by rw [mirror]; exact State.plain_mirror here j))
    (fun z mirror => (placeNoticeAt_mirror z i).trans mirror) (v, { screens := 0, whole := true }) (by rw [arb])
  exact ⟨_, first, last⟩

/-- The parameters that the work of a NOTICE holds. -/
def NoticeWork.params (x : NoticeWork) : NoticeParams := ⟨x.title, x.level, x.duration, x.screens⟩

omit arb plain in
theorem State.noticeRequest_eq {w : State} {now : Time} (clock : w.clock = now) (ts : List Tuple) :
    w.noticeRequest x ts = noticeRequestOf x.params ts now := by
  unfold State.noticeRequest
  rw [clock]
  rfl

omit arb plain in
/-- Two states of which a placed notice tells the same. -/
theorem State.noticePlaced_view {z u : State} {i : Screen16} {r : Request} (arb : u.arb = z.arb) (links : u.links = z.links)
    (sent : u.sent = z.sent) (clock : u.clock = z.clock) (h : s.noticePlaced z i r) : s.noticePlaced u i r := by
  unfold State.noticePlaced State.waitsAt State.showSent State.messageSent State.screen State.link at *
  rw [arb, links, sent, clock]
  exact h

omit arb plain in
/-- A notice that a screen has been asked for stands there as it is placed (R120, R128). -/
theorem State.Asked.noticePlaced {b u : State} {i : Screen16} {r : Request} (h : s.Asked b u i r) (kind : r.kind ≠ .blank)
    (released : r.release ≤ u.clock) (ahead : ∀ T, r.endTime = some T → u.clock < T) : s.noticePlaced u i r := by
  refine ⟨h.waits_dark kind ahead, fun ready unmasked empty => ?_⟩
  have bare : (s.screen i).visibleTop = none := Screen.visibleTop_none.2 fun m _ => (empty m).1
  have welcome : (s.screen i).Welcomes r u.clock :=
    ⟨kind, released, ahead, unmasked, .inr bare, fun m _ => (empty m).2, fun m y entry =>
      absurd ((empty m).1.symm.trans entry) nofun⟩
  exact h.shown welcome (Screen.yields_of_bare bare) ready

omit plain in
include links script in
/-- What a NOTICE leaves at a screen that is no monitor: its request, or nothing (R176). -/
theorem State.noticePlacing_placed {i : Screen16} (here : s.isMonitor i = false) :
    (x.screens.getLsbD i.val = true → noticeTuples x.keys (s.screen i).layout ≠ [] → s.noticePlaced (v.noticePlacing x).1 i
      (noticeRequestOf x.params (noticeTuples x.keys (s.screen i).layout) v.clock)) ∧
    (x.screens.getLsbD i.val = false ∨ noticeTuples x.keys (s.screen i).layout = [] →
      (v.noticePlacing x).1.screen i = s.screen i ∧ (v.noticePlacing x).1.link i = s.link i) := by
  have screen : v.screen i = s.screen i := congrArg (fun a : Arbiter => a.screens[i]) arb
  have link : v.link i = s.link i := congrArg (fun l : Vector Link 16 => l[i]) links
  obtain ⟨p, first, last⟩ := State.noticePlacing_around (x := x) arb here
  have there : p.1.screen i = s.screen i := first.screen.trans screen
  have clock : (v.noticePlacing x).1.clock = v.clock := (v.noticePlacing_only x).2.2.1
  rw [placeNoticeAt_eq] at last
  dsimp only at last
  refine ⟨fun named some_ => ?_, fun passes => ?_⟩
  · have takes : p.1.takesNotice x i = true := by
      unfold State.takesNotice
      rw [there, named]
      simpa using some_
    rw [if_pos takes, there, State.noticeRequest_eq first.clock] at last
    refine (State.asked_of here (State.alike_of_blocks arb links script i) screen link first last).noticePlaced nofun
      (Nat.le_of_eq clock.symm) fun T ends => ?_
    rw [clock]
    unfold noticeRequestOf at ends
    dsimp only at ends
    split at ends
    · cases ends
    · next lasts =>
      cases ends
      exact Nat.lt_add_of_pos_right (Nat.mul_pos (Nat.pos_of_ne_zero lasts) (by decide))
  · have takes : p.1.takesNotice x i = false := by
      unfold State.takesNotice
      rw [there]
      rcases passes with unnamed | none
      · rw [unnamed]
        rfl
      · rw [none]
        simp
    rw [takes, if_neg Bool.false_ne_true] at last
    have both := first.trans last
    exact ⟨both.screen.trans screen, both.link.trans link⟩

end Placing

/-! ### The end of a NOTICE -/

theorem notPresent_eq (keys : List (Key × KeyResult)) :
    notPresent keys = (keys.map fun p => match p.2 with | .present _ _ => 0 | _ => 2 ^ p.1.lang.val).sum := by
  have counts (n : Nat) : keys.foldl (fun n p => match p.2 with
      | .present _ _ => n
      | _ => n + 2 ^ p.1.lang.val) n =
        n + (keys.map fun p => match p.2 with | .present _ _ => 0 | _ => 2 ^ p.1.lang.val).sum := by
    induction keys generalizing n with
    | nil => rfl
    | cons p ps ih =>
      obtain ⟨k, r⟩ := p
      rw [List.foldl_cons, ih, List.map_cons, List.sum_cons]
      cases r <;> simp [Nat.add_assoc]
  exact (counts 0).trans (Nat.zero_add _)

/-- The placing of a NOTICE with its pins released, before its outcome is handed back. -/
def State.noticeReleased (x : NoticeWork) (v : State) : State := (v.noticePlacing x).1.releaseKeys x.keys

/-- The outcome of a NOTICE. -/
def State.noticeCode (x : NoticeWork) (v : State) : OutcomeCode := if (v.noticePlacing x).2.whole then .ok else .partialDone

theorem State.placeNotice_ends {x : NoticeWork} {v : State} (work : v.noticeWork = some x)
    (answered : ∀ p ∈ x.keys, p.2 ≠ .pending) : v.placeNotice =
      (v.noticeReleased x).complete (v.noticeCode x) [(v.noticePlacing x).2.screens.toNat, notPresent x.keys] := by
  have all : (x.keys.all fun p => p.2 != .pending) = true := by
    rw [List.all_eq_true]
    exact fun p there => by simpa using answered p there
  unfold State.placeNotice
  rw [work]
  exact if_pos all

theorem State.placeNotice_waits {x : NoticeWork} {v : State} (work : v.noticeWork = some x) {p : Key × KeyResult}
    (there : p ∈ x.keys) (pending : p.2 = .pending) : v.placeNotice = v := by
  have some_ : ¬(x.keys.all fun p => p.2 != .pending) = true := by
    rw [List.all_eq_true]
    exact fun all => by simpa [pending] using all p there
  unfold State.placeNotice
  rw [work]
  exact if_neg some_

theorem State.noticeReleased_frame (x : NoticeWork) (v : State) :
    (v.noticeReleased x = { (v.noticePlacing x).1 with du := (v.noticeReleased x).du, smi := (v.noticeReleased x).smi }) ∧
      v.smi.sameScan (v.noticeReleased x).smi ∧
      ∀ f, v.smi.port.inFlight = some f → (v.noticeReleased x).smi.port.inFlight = some f := by
  obtain ⟨frame, scan⟩ := State.releaseKeys_only x.keys (v.noticePlacing x).1
  obtain ⟨-, -, -, -, placed⟩ := v.noticePlacing_only x
  refine ⟨frame, Interface.sameScan_trans placed scan, fun f busy => ?_⟩
  refine (Titles.inFlight f).releaseKeys x.keys _ ?_
  refine foldl_keeps_fst (P := fun y : State => y.smi.port.inFlight = some f) (fun p i h => ?_) allScreens _ busy
  rw [placeNoticeAt_eq]
  dsimp only
  split
  · exact (Screens.inFlight f).placeRequest i _ p.1 h
  · exact h

/-- A NOTICE that has been placed from a state `v` with the screens and links of `s`, and handed back (R176). -/
theorem State.noticeEnded_of {s v u : State} {x : NoticeWork} {slot : Slot} (arb : v.arb = s.arb) (links : v.links = s.links)
    (script : v.wlk.script = s.wlk.script)
    (plain : ∀ i : Screen16, x.screens.getLsbD i.val = true → s.isMonitor i = false) (over_ : u.ctl.progress = none)
    (handed : s.handedBack u slot (v.noticeCode x) [(v.noticePlacing x).2.screens.toNat, notPresent x.keys])
    (arb' : u.arb = (v.noticePlacing x).1.arb) (links' : u.links = (v.noticePlacing x).1.links)
    (sent' : u.sent = (v.noticePlacing x).1.sent) (clock' : u.clock = v.clock) :
    s.noticeEnded u v.clock slot x.params x.keys := by
  obtain ⟨screens, whole⟩ := State.noticePlacing_found (x := x) arb plain
  refine ⟨over_, ?_, fun i here => ?_⟩
  · exact Eq.mp (congrArg₂ (s.handedBack u slot) (if_congr whole rfl rfl)
      (congrArg₂ (fun (m : BitVec 16) n => [m.toNat, n]) screens (notPresent_eq x.keys))) handed
  · obtain ⟨placed, passed⟩ := State.noticePlacing_placed (x := x) arb links script here
    refine ⟨fun named some_ => State.noticePlaced_view arb' links' sent' (clock'.trans (v.noticePlacing_only x).2.2.1.symm)
      (placed named some_), fun passes => ?_⟩
    unfold State.screen State.link at *
    rw [arb', links']
    exact passed passes

end Sys2Proof.Machine
end

section
/-! The keys a NOTICE requests (R176): each is answered at once by what the cache holds, or PENDING, or FAULTED and let go
again. -/

namespace Sys2Proof.Machine

/-! ### The wait queue of another set -/

/-- A way served takes an item of its own set alone. -/
theorem State.serve_waits_other {j : Fin 32} {w : Fin 4} {k : Key} (s : State) (other : setOf k ≠ j) :
    (s.serve j w).keyWaits k = s.keyWaits k := by
  unfold State.serve
  split
  · split
    · rfl
    · next i found =>
      have ours : setOf i.key = j := by simpa using List.find?_some found
      unfold State.keyWaits
      rw [State.allocate_queue, Bool.eq_iff_iff, List.any_eq_true, List.any_eq_true]
      refine exists_congr fun x => and_congr_left fun mine => List.mem_erase_of_ne ?_
      rintro rfl
      exact other (by rw [← ours, beq_iff_eq.mp mine])
  · rfl

section Release

variable {k : Key} {s : State}

/-- A pin released changes the set of its key alone (R104). -/
theorem State.releaseKey_onSet (k : Key) (s : State) :
    (s.releaseKey k = { s with
      du := { s.du with sets := (s.releaseKey k).du.sets, queue := (s.releaseKey k).du.queue },
      smi := { s.smi with port := (s.releaseKey k).smi.port } }) ∧
    (∀ i, i ≠ setOf k → (s.releaseKey k).cacheSet i = s.cacheSet i) ∧
    ∀ m, setOf m ≠ setOf k → (s.releaseKey k).keyWaits m = s.keyWaits m := by
  unfold State.releaseKey
  dsimp only
  split
  · next w found =>
    have served := (s.setPins_onWay (setOf k) w (· - 1)).trans (State.serve_onWay (setOf k) w (s.setPins (setOf k) w (· - 1)))
    exact ⟨served.frame, served.sets, fun m other => State.serve_waits_other (s.setPins (setOf k) w (· - 1)) other⟩
  · refine ⟨rfl, fun _ _ => rfl, fun m other => ?_⟩
    have apart : k ≠ m := fun same => other (by rw [same])
    unfold State.keyWaits State.setQueue
    dsimp only
    rw [List.any_filter, List.any_map, Bool.eq_iff_iff, List.any_eq_true, List.any_eq_true]
    refine exists_congr fun x => and_congr_right fun _ => ?_
    dsimp only [Function.comp]
    by_cases mine : x.key = k
    · simp [mine, apart]
    · simp [mine]

end Release

/-! ### One key -/

/-- A NOTICE has requested the key `k` in `s`, with the answer `r` (R176). -/
structure State.NoticeAsked (k : Key) (s u : State) (r : KeyResult) : Prop where
  frame : u = { s with du := u.du, smi := { s.smi with port := u.smi.port } }
  sets : ∀ i, i ≠ setOf k → u.cacheSet i = s.cacheSet i
  waits : ∀ m, setOf m ≠ setOf k → u.keyWaits m = s.keyWaits m
  inFlight : ∀ f, s.smi.port.inFlight = some f → u.smi.port.inFlight = some f
  taken : s.keyWaits k = false → (s.cacheSet (setOf k)).find k = none → ∀ w, (s.cacheSet (setOf k)).choose = some w →
    ∃ q, (u.way (setOf k) w).entry = some { key := k, state := .fetching 0 q, pins := 1 }
  answer : r = s.noticeAnswer k

section Asked

variable {s v : State} {k : Key} {r : KeyResult} (requested : s.KeyRequested k v r)
include requested

/-- A key waits after its request when it has waited before, or has joined the queue. -/
theorem State.KeyRequested.waits_own :
    v.keyWaits k = true ↔ s.keyWaits k = true ∨ (s.mustWait k = true ∧ s.du.queue.length < 256) := by
  have keys : ((fun i : WaitItem => i.key == k) ∘ fun i => if i.key = k ∧ (s.cacheSet (setOf k)).find k = none then
      { i with pins := i.pins + 1 } else i) = fun i => i.key == k := by
    funext i
    dsimp only [Function.comp]
    split <;> rfl
  unfold State.keyWaits
  rw [requested.queue, List.any_append, List.any_map, keys, Bool.or_eq_true]
  refine or_congr_right ?_
  by_cases joins : s.mustWait k = true ∧ s.du.queue.length < 256
  · rw [if_pos joins]
    simpa using joins
  · rw [if_neg joins]
    exact iff_of_false Bool.false_ne_true joins

/-- A key that does not wait after its request is answered as the cache answers a NOTICE. -/
theorem State.KeyRequested.answer_notice (settled : ¬v.keyWaits k = true) : r = s.noticeAnswer k := by
  obtain ⟨unwaited, placed⟩ := not_or.mp fun waits => settled (requested.waits_own.mpr waits)
  rw [requested.answer]
  unfold State.requestAnswer State.noticeAnswer
  rw [if_neg unwaited]
  cases found : (s.cacheSet (setOf k)).find k with
  | some w => rfl
  | none =>
    dsimp only
    cases chosen : (s.cacheSet (setOf k)).choose with
    | some w => exact if_pos (.inr (.inl nofun))
    | none =>
      refine if_neg ?_
      rintro (waits | none | room)
      · exact unwaited waits
      · exact none rfl
      · exact placed ⟨State.mustWait_iff.mpr ⟨found, by simpa using unwaited, chosen⟩, room⟩

end Asked

theorem State.noticeAnswer_waits {s : State} {k : Key} (waits : s.keyWaits k = true ∨ s.mustWait k = true) :
    s.noticeAnswer k = .faulted := by
  unfold State.noticeAnswer
  by_cases queued : s.keyWaits k = true
  · exact if_pos queued
  · obtain ⟨absent, -, full⟩ := State.mustWait_iff.mp (waits.resolve_left queued)
    rw [if_neg queued, absent, full]
    rfl

theorem noticeRequestKey_asked (k : Key) (p : State × List (Key × KeyResult)) : ∃ r,
    p.1.NoticeAsked k (noticeRequestKey p k).1 r ∧ (noticeRequestKey p k).2 = p.2 ++ [(k, r)] := by
  obtain ⟨s, answers⟩ := p
  have requested := s.requestKey_requested k
  have busy (f : InFlight) := (Titles.inFlight f).requestKey k s
  unfold noticeRequestKey
  dsimp only
  generalize (s.requestKey k).1 = v at *
  generalize (s.requestKey k).2 = r at *
  by_cases waits : v.keyWaits k = true
  · have before := requested.waits_own.mp waits
    obtain ⟨frame, sets, others⟩ := v.releaseKey_onSet k
    rw [if_pos waits]
    refine ⟨.faulted, ⟨?_, fun i other => (sets i other).trans (requested.sets i other),
      fun m other => (others m other).trans (requested.waits_other other.symm), fun f flies => ?_,
      fun idle absent w chosen => ?_, (State.noticeAnswer_waits (before.imp_right And.left)).symm⟩, rfl⟩
    · have start := requested.frame
      dsimp only
      generalize v.releaseKey k = u at *
      rw [frame, start]
    · exact (Titles.inFlight f).releaseKey k v (busy f flies)
    · rcases before with queued | ⟨must, -⟩
      · exact Bool.noConfusion (queued.symm.trans idle)
      · exact absurd (State.mustWait_iff.mp must).2.2 (by rw [show _ = some w from chosen]; exact nofun)
  · rw [if_neg waits]
    exact ⟨r, ⟨requested.frame, requested.sets, fun m other => requested.waits_other other.symm, busy,
      fun idle absent w chosen => (requested.taken absent idle w chosen).1, requested.answer_notice waits⟩, rfl⟩

/-! ### All keys -/

/-- The answer for a key of another set. -/
theorem State.NoticeAsked.answer_other {s u : State} {k m : Key} {r : KeyResult} (h : s.NoticeAsked k u r)
    (other : setOf k ≠ setOf m) : u.noticeAnswer m = s.noticeAnswer m := by
  have set := h.sets (setOf m) other.symm
  have way (w : Fin 4) : u.way (setOf m) w = s.way (setOf m) w := by
    unfold State.way
    rw [set]
  unfold State.noticeAnswer
  rw [h.waits m other.symm, set]
  cases (s.cacheSet (setOf m)).find m with
  | none => rfl
  | some w =>
    dsimp only
    rw [way]

/-- A NOTICE has requested its keys, which stand in sets of their own (R176). -/
structure State.NoticeAsksAll (ks : List Key) (s : State) (q : State × List (Key × KeyResult)) (first : List (Key × KeyResult)) :
    Prop where
  frame : q.1 = { s with du := q.1.du, smi := { s.smi with port := q.1.smi.port } }
  sets : ∀ i, (∀ k ∈ ks, i ≠ setOf k) → q.1.cacheSet i = s.cacheSet i
  inFlight : ∀ f, s.smi.port.inFlight = some f → q.1.smi.port.inFlight = some f
  taken : ∀ k ∈ ks, s.keyWaits k = false → (s.cacheSet (setOf k)).find k = none →
    ∀ w, (s.cacheSet (setOf k)).choose = some w →
      ∃ n, (q.1.way (setOf k) w).entry = some { key := k, state := .fetching 0 n, pins := 1 }
  answers : q.2 = first ++ ks.map fun k => (k, s.noticeAnswer k)

theorem noticeRequestKeys_asked : ∀ (ks : List Key) (p : State × List (Key × KeyResult)), ownSets ks →
    p.1.NoticeAsksAll ks (ks.foldl noticeRequestKey p) p.2
  | [], p, _ => ⟨rfl, fun _ _ => rfl, fun _ h => h, nofun, (List.append_nil p.2).symm⟩
  | k :: ks, p, own => by
    obtain ⟨apart, own⟩ := List.pairwise_cons.mp own
    obtain ⟨r, first, collected⟩ := noticeRequestKey_asked k p
    have rest := noticeRequestKeys_asked ks (noticeRequestKey p k) own
    rw [List.foldl_cons]
    generalize noticeRequestKey p k = v at *
    generalize ks.foldl noticeRequestKey v = q at *
    have untouched : q.1.cacheSet (setOf k) = v.1.cacheSet (setOf k) := rest.sets (setOf k) apart
    constructor
    case frame =>
      have start := first.frame
      have last := rest.frame
      rw [start] at last
      exact last
    case sets =>
      exact fun i away => (rest.sets i fun j there => away j (List.mem_cons_of_mem k there)).trans
        (first.sets i (away k List.mem_cons_self))
    case inFlight => exact fun f flies => rest.inFlight f (first.inFlight f flies)
    case taken =>
      intro j there idle absent w chosen
      rcases List.mem_cons.mp there with rfl | there
      · obtain ⟨n, entry⟩ := first.taken idle absent w chosen
        refine ⟨n, ?_⟩
        unfold State.way at *
        rw [untouched]
        exact entry
      · have other := (apart j there).symm
        have set := first.sets (setOf j) other
        rw [← first.waits j other] at idle
        rw [← set] at absent chosen
        exact rest.taken j there idle absent w chosen
    case answers =>
      have same : ks.map (fun j => (j, v.1.noticeAnswer j)) = ks.map fun j => (j, p.1.noticeAnswer j) :=
        List.map_congr_left fun j there => congrArg (Prod.mk j) (first.answer_other (apart j there))
      rw [rest.answers, collected, same, first.answer, List.append_assoc]
      rfl

/-- The keys of a NOTICE stand in sets of their own: one title, and languages below 8 (R99). -/
theorem State.noticeKeys_ownSets (title : Nat) (ls : List Screen16) (s : State) : ownSets (s.noticeKeys title ls) := by
  have ascending : allLangs.Pairwise (· < ·) := by decide
  unfold State.noticeKeys
  refine List.pairwise_map.mpr ((ascending.filter _).imp fun {g m} below same => ?_)
  have sets : (title + g.val) % 32 = (title + m.val) % 32 := congrArg Fin.val same
  have below : g.val < m.val := below
  omega

end Sys2Proof.Machine
end

section
/-! NOTICE (R176): taken without a key, waiting for an answer, placed at once, and placed with its last answer. -/

namespace Sys2Proof.Machine

theorem mem_maskOf {ls : List Screen16} {i : Screen16} : (maskOf ls).getLsbD i.val = true ↔ i ∈ ls := by
  have bits (m : BitVec 16) : (ls.foldl (fun m i => m ||| BitVec.twoPow 16 i.val) m).getLsbD i.val = true ↔
      m.getLsbD i.val = true ∨ i ∈ ls := by
    induction ls generalizing m with
    | nil => simp
    | cons j ls ih =>
      rw [List.foldl_cons, ih, List.mem_cons, BitVec.getLsbD_or, BitVec.getLsbD_twoPow, Bool.or_eq_true, or_assoc]
      refine or_congr_right (or_congr_left ?_)
      simp [Fin.ext_iff, eq_comm]
  exact (bits 0).trans (or_iff_right (by simp))

/-! ### The NOTICE begun -/

/-- The work of a NOTICE taken in `s` (R176). -/
def State.noticeWorkOf (n : NoticeParams) (s : State) : NoticeWork :=
  { title := n.title, level := n.level, duration := n.duration, screens := maskOf (s.noticeScreens n.screens),
    keys := (s.noticeKeys n.title (s.noticeScreens n.screens)).map fun k => (k, s.noticeAnswer k) }

/-- The keys of a NOTICE requested, and its work held in progress. -/
def State.noticeBegun (n : NoticeParams) (s : State) : State :=
  ((s.noticeKeys n.title (s.noticeScreens n.screens)).foldl noticeRequestKey (s, [])).1.setWork
    (.notice (s.noticeWorkOf n))

section Begun

variable (n : NoticeParams) (s : State)

theorem State.noticeAsked_all : s.NoticeAsksAll (s.noticeKeys n.title (s.noticeScreens n.screens))
    ((s.noticeKeys n.title (s.noticeScreens n.screens)).foldl noticeRequestKey (s, [])) [] :=
  noticeRequestKeys_asked _ (s, []) (s.noticeKeys_ownSets _ _)

theorem State.beginNotice_eq (some_ : s.noticeKeys n.title (s.noticeScreens n.screens) ≠ []) :
    s.beginNotice n = (s.noticeBegun n).placeNotice := by
  have answers := (s.noticeAsked_all n).answers
  unfold State.beginNotice
  dsimp only
  rw [if_neg (by simpa using some_), answers]
  rfl

theorem State.beginNotice_keyless (none : s.noticeKeys n.title (s.noticeScreens n.screens) = []) :
    s.beginNotice n = s.complete .partialDone [0, 0] := by
  unfold State.beginNotice
  dsimp only
  rw [none]
  rfl

theorem State.noticeBegun_frame : s.noticeBegun n = { s with
    du := (s.noticeBegun n).du, smi := { s.smi with port := (s.noticeBegun n).smi.port },
    ctl := { s.ctl with progress := s.ctl.progress.map fun p => { p with work := .notice (s.noticeWorkOf n) } } } := by
  have frame := (s.noticeAsked_all n).frame
  unfold State.noticeBegun
  generalize (s.noticeKeys n.title (s.noticeScreens n.screens)).foldl noticeRequestKey (s, []) = q at *
  unfold State.setWork
  rw [frame]

theorem State.noticeBegun_inFlight {f : InFlight} (busy : s.smi.port.inFlight = some f) :
    (s.noticeBegun n).smi.port.inFlight = some f := (s.noticeAsked_all n).inFlight f busy

/-- A way taken for a key of the NOTICE is its FETCHING entry (R103). -/
theorem State.noticeBegun_taken {k : Key} (there : k ∈ s.noticeKeys n.title (s.noticeScreens n.screens))
    (idle : s.keyWaits k = false) (absent : (s.cacheSet (setOf k)).find k = none) {w : Fin 4}
    (chosen : (s.cacheSet (setOf k)).choose = some w) :
    ∃ q, ((s.noticeBegun n).way (setOf k) w).entry = some { key := k, state := .fetching 0 q, pins := 1 } :=
  (s.noticeAsked_all n).taken k there idle absent w chosen

end Begun

/-! ### NOTICE taken -/

section Taken

variable {t : Time} {s : State} {slot : Slot} {words : List Nat} {n : NoticeParams} (taken : s.taken slot 7 words)
  (started : s.ctl.engine ≠ .idle) (loaded : s.ctl.engine ≠ .loading) (read : readNotice words = some n)
include taken started loaded read

omit taken in
theorem State.noticeChecked : ((s.begin t).taking slot 7 words).checked 7 (fun ws _ => readNotice ws) State.beginNotice words =
    ((s.begin t).taking slot 7 words).beginNotice n := by
  have allowed : allowedIn 7 s.ctl.engine = true := by
    cases engine : s.ctl.engine with
    | idle => exact absurd engine started
    | loading => exact absurd engine loaded
    | _ => rfl
  exact State.checked_act (s := (s.begin t).taking slot 7 words) State.beginNotice allowed read

/-- Without a key a NOTICE ends at once (R176). -/
theorem notice_keyless (none : s.noticeKeys n.title (s.noticeScreens n.screens) = []) :
    ∃ u, exec (.notice t) s = .next u ∧ u.ctl.engine = s.ctl.engine ∧ s.sameBlocks u ∧ u.finished slot ∧
      s.handedBack u slot .partialDone [0, 0] := by
  obtain ⟨f, busy⟩ := State.taken_busy taken
  have checked := (State.noticeChecked (t := t) (slot := slot) started loaded read).trans
    (State.beginNotice_keyless n ((s.begin t).taking slot 7 words) none)
  obtain ⟨handed, finished, frame, -⟩ := State.takeDirective_ended t taken (p := ⟨slot, 7, words, .none⟩) checked rfl rfl
    (Option.isSome_iff_exists.2 ⟨f, busy⟩) (Interface.sameScan_refl _)
  refine ⟨_, rfl, ?_, ?_, finished, handed⟩
  · rw [frame]
    rfl
  · rw [frame]
    exact ⟨⟨rfl, rfl, rfl, rfl, rfl⟩, rfl, rfl⟩

/-- With an answer PENDING a NOTICE stays in progress (R176). -/
theorem notice_waits {k : Key} (there : k ∈ s.noticeKeys n.title (s.noticeScreens n.screens))
    (pending : s.noticeAnswer k = .pending) :
    exec (.notice t) s = .next (((s.begin t).taking slot 7 words).noticeBegun n).freePort := by
  have placing : ((s.begin t).taking slot 7 words).beginNotice n = ((s.begin t).taking slot 7 words).noticeBegun n := by
    rw [State.beginNotice_eq n ((s.begin t).taking slot 7 words) (List.ne_nil_of_mem there)]
    refine State.placeNotice_waits (x := ((s.begin t).taking slot 7 words).noticeWorkOf n) ?_
      (p := (k, s.noticeAnswer k)) (List.mem_map_of_mem there) pending
    have frame := State.noticeBegun_frame n ((s.begin t).taking slot 7 words)
    unfold State.noticeWork
    rw [frame]
    rfl
  have step : (s.begin t).takeDirective 7 (fun ws _ => readNotice ws) State.beginNotice =
      (((s.begin t).taking slot 7 words).noticeBegun n).freePort := by
    rw [State.takeDirective_eq t _ _ taken, State.noticeChecked started loaded read, placing]
    refine congrArg State.freePort (State.startOwedScan_progress
      (p := ⟨slot, 7, words, .notice (((s.begin t).taking slot 7 words).noticeWorkOf n)⟩) ?_)
    rw [State.noticeBegun_frame]
    rfl
  exact congrArg Host.Outcome.next step

/-- With every answer known a NOTICE is placed at once (R176). -/
theorem notice_places (some_ : s.noticeKeys n.title (s.noticeScreens n.screens) ≠ [])
    (known : ∀ k ∈ s.noticeKeys n.title (s.noticeScreens n.screens), s.noticeAnswer k ≠ .pending) :
    ∃ u, exec (.notice t) s = .next u ∧ u.smi.rotation = slot ∧ u.ctl.engine = s.ctl.engine ∧ u.trk = s.trk ∧
      u.wlk = s.wlk ∧ u.sch = s.sch ∧ u.desk = s.desk ∧
      s.noticeEnded u (max s.clock t) slot (s.noticeWorkOf n).params (s.noticeWorkOf n).keys := by
  obtain ⟨f, busy⟩ := State.taken_busy taken
  have begun := State.noticeBegun_frame n ((s.begin t).taking slot 7 words)
  have flies := State.noticeBegun_inFlight n ((s.begin t).taking slot 7 words) busy
  have checked := State.noticeChecked (t := t) (slot := slot) started loaded read
  rw [State.beginNotice_eq n ((s.begin t).taking slot 7 words) some_] at checked
  have same : ((s.begin t).taking slot 7 words).noticeWorkOf n = s.noticeWorkOf n := rfl
  rw [same] at begun
  generalize ((s.begin t).taking slot 7 words).noticeBegun n = v at *
  have work : v.noticeWork = some (s.noticeWorkOf n) := by
    unfold State.noticeWork
    rw [begun]
    rfl
  have arb : v.arb = s.arb := by rw [begun]; rfl
  have links : v.links = s.links := by rw [begun]; rfl
  have wlk : v.wlk = s.wlk := by rw [begun]; rfl
  have clock : v.clock = max s.clock t := by rw [begun]; rfl
  rw [State.placeNotice_ends work (fun p there => by
    obtain ⟨k, mem, rfl⟩ := List.mem_map.mp there
    exact known k mem)] at checked
  obtain ⟨frame, scan, inFlight⟩ := State.noticeReleased_frame (s.noticeWorkOf n) v
  obtain ⟨⟨trk', wlk', sch', -, desk'⟩, ctl', clock', -, -⟩ := State.noticePlacing_only (s.noticeWorkOf n) v
  have ctl : (v.noticeReleased (s.noticeWorkOf n)).ctl = v.ctl := by rw [frame]; exact ctl'
  obtain ⟨handed, ⟨over_, rotation⟩, ended, -⟩ := State.takeDirective_ended t taken
    (p := ⟨slot, 7, words, .notice (s.noticeWorkOf n)⟩) checked (by rw [ctl, begun]; rfl) rfl
    (Option.isSome_iff_exists.2 ⟨f, inFlight f flies⟩)
    (Interface.sameScan_trans (by rw [begun]; exact Interface.sameScan_refl ((s.begin t).taking slot 7 words).smi) scan)
  have plain : ∀ i : Screen16, (s.noticeWorkOf n).screens.getLsbD i.val = true → s.isMonitor i = false := fun i named => by
    have mine := (List.mem_filter.mp (mem_maskOf.mp named)).2
    simp only [Bool.and_eq_true, Bool.not_eq_true'] at mine
    exact mine.2
  refine ⟨_, rfl, rotation, ?_⟩
  generalize (s.begin t).takeDirective 7 (fun ws _ => readNotice ws) State.beginNotice = u at *
  have eq : u = { (v.noticePlacing (s.noticeWorkOf n)).1 with
      du := u.du, smi := u.smi, ctl := { (v.noticePlacing (s.noticeWorkOf n)).1.ctl with progress := none } } := by
    rw [ended, frame]
  have placed := State.noticeEnded_of (u := u) arb links (by rw [wlk]) plain over_ handed (by rw [eq]) (by rw [eq])
    (by rw [eq]) (by rw [eq]; exact clock')
  rw [clock] at placed
  refine ⟨?_, ?_, ?_, ?_, ?_, placed⟩
  · rw [eq]
    show (v.noticePlacing (s.noticeWorkOf n)).1.ctl.engine = _
    rw [ctl', begun]
    rfl
  · rw [eq]
    exact trk'.trans (by rw [begun]; rfl)
  · rw [eq]
    exact wlk'.trans wlk
  · rw [eq]
    exact sch'.trans (by rw [begun]; rfl)
  · rw [eq]
    exact desk'.trans (by rw [begun]; rfl)

end Taken

end Sys2Proof.Machine
end

section
/-! The answer to the last PENDING key of a NOTICE (R102, R176), and the two halves of its obligation. -/

namespace Sys2Proof.Machine

/-! ### A directive over, before a way is served -/

theorem Titles.waitsBehind (a : Access) (f : InFlight) : Titles (State.waitsBehind a f) where
  enqueue b _ h := State.waitsBehind_enqueue b h
  setDu _ _ _ h := h

/-- An outcome handed back waits on while a way is served and the port grants. -/
theorem State.complete_served {v : State} {p : Progress} {f : InFlight} (code : OutcomeCode) (ws : List Nat) (j : Fin 32)
    (w : Fin 4) (progress : v.ctl.progress = some p) (busy : v.smi.port.inFlight = some f) :
    v.handedBack ((v.complete code ws).serve j w).freePort p.slot code ws ∧
      ((v.complete code ws).serve j w).freePort = { v with
        ctl := { v.ctl with progress := none }, du := ((v.complete code ws).serve j w).freePort.du,
        smi := ((v.complete code ws).serve j w).freePort.smi } := by
  have handed : (v.completed p code ws).smi.outcomes =
      v.smi.outcomes ++ [{ slot := p.slot, code := code, results := ws, writing := true }] := rfl
  have waits : (v.completed p code ws).waitsBehind (.writing (.resultWords p.slot) (v.resultAddress p.slot) (resultBytes ws)
      .urgent) f := State.enqueue_waitsBehind _ busy
  have writing : (v.completed p code ws).smi.outcomes.any (·.writing) = true := State.handBack_any _ _ _ _
  have frame : v.completed p code ws = { v with
      ctl := { v.ctl with progress := none }, smi := (v.completed p code ws).smi } := rfl
  rw [State.complete_eq progress]
  generalize v.completed p code ws = q at *
  have scans : q.startOwedScan.smi.outcomes = q.smi.outcomes ∧ q.startOwedScan.smi.port = q.smi.port ∧
      q.startOwedScan = { q with smi := q.startOwedScan.smi } := by
    rcases State.startOwedScan_writing writing with stands | scans
    · rw [stands]
      exact ⟨rfl, rfl, rfl⟩
    · rw [scans]
      exact ⟨rfl, rfl, rfl⟩
  generalize q.startOwedScan = r at *
  obtain ⟨outcomes, port, same⟩ := scans
  have behind : r.waitsBehind (.writing (.resultWords p.slot) (v.resultAddress p.slot) (resultBytes ws) .urgent) f := by
    unfold State.waitsBehind at *
    rw [port]
    exact waits
  have served := (State.serve_onWay j w r).frame
  have free := ((Titles.waitsBehind _ f).serve j w r behind).freePort
  generalize r.serve j w = z at *
  refine ⟨⟨?_, free⟩, ?_⟩
  · show z.smi.outcomes = _
    rw [served]
    exact outcomes.trans handed
  · show { z with smi := z.freePort.smi } = _
    rw [served, same, frame]
    rfl

/-! ### The last answer -/

section Answered

variable {s : State} {j : Fin 32} {w : Fin 4} {e : CacheEntry} {p : Progress} {x : NoticeWork} {a : KeyResult}

/-- The answers of a NOTICE with the PENDING ones replaced. -/
def NoticeWork.answered (a : KeyResult) (x : NoticeWork) : NoticeWork :=
  { x with keys := x.keys.map fun r => if r.2 = .pending then (r.1, a) else r }

/-- The answer to the only key that is PENDING settles the NOTICE. -/
theorem State.answerNotice_last (work : s.noticeWork = some x) {k : Key} (mine : ∀ r ∈ x.keys, r.2 = .pending → r.1 = k) :
    s.answerNotice k a = s.setWork (.notice (x.answered a)) := by
  have same : (x.keys.map fun p => if p.1 = k ∧ p.2 = .pending then (k, a) else p) =
      x.keys.map fun r => if r.2 = .pending then (r.1, a) else r := by
    refine List.map_congr_left fun r there => ?_
    by_cases pending : r.2 = .pending
    · rw [if_pos ⟨mine r there pending, pending⟩, if_pos pending, mine r there pending]
    · rw [if_neg fun both => pending both.2, if_neg pending]
  unfold State.answerNotice
  rw [work]
  dsimp only
  rw [same]
  rfl

theorem NoticeWork.answered_known (known : a ≠ .pending) : ∀ r ∈ (x.answered a).keys, r.2 ≠ .pending := by
  intro r there
  obtain ⟨q, -, rfl⟩ := List.mem_map.mp there
  split
  · exact known
  · assumption

/-- The state in which a NOTICE is placed with its last answer. -/
def State.lastAnswered (j : Fin 32) (w : Fin 4) (e : CacheEntry) (r : Option (BitVec 32 × Nat)) (x : NoticeWork) (s : State) :
    State :=
  ((s.endFetch j w e r).armedAnswered e.key (answerOf r)).setWork (.notice (x.answered (answerOf r)))

variable {r : Option (BitVec 32 × Nat)} (still : s.ctl.engine ≠ .running) (progress : s.ctl.progress = some p)
  (work : p.work = .notice x) (mine : ∀ r ∈ x.keys, r.2 = .pending → r.1 = e.key)
include still progress work mine

theorem State.deliverAnswer_last : (s.endFetch j w e r).deliverAnswer e.key (answerOf r) =
    (s.lastAnswered j w e r x).placeNotice := by
  have held : ((s.endFetch j w e r).armedAnswered e.key (answerOf r)).noticeWork = some x := by
    unfold State.noticeWork
    rw [show ((s.endFetch j w e r).armedAnswered e.key (answerOf r)).ctl.progress = some p from progress]
    dsimp only
    rw [work]
  show ((((s.endFetch j w e r).armedAnswered e.key (answerOf r)).answerNotice e.key (answerOf r)).fireAll).placeNotice = _
  rw [State.answerNotice_last held mine]
  exact congrArg State.placeNotice (State.fireAll_idle still)

/-- With its last answer a NOTICE outside RUNNING is placed and ends (R102, R176). -/
theorem State.noticeEnded_last {f : InFlight} (plain : ∀ i : Screen16, x.screens.getLsbD i.val = true → s.isMonitor i = false)
    (busy : s.smi.port.inFlight = some f) :
    let u := (((s.endFetch j w e r).deliverAnswer e.key (answerOf r)).serve j w).freePort
    u.trk = s.trk ∧ u.wlk = s.wlk ∧ u.desk = s.desk ∧ u.ctl.engine = s.ctl.engine ∧
      s.noticeEnded u s.clock p.slot x.params (x.answered (answerOf r)).keys := by
  have step := State.deliverAnswer_last (j := j) (w := w) (r := r) still progress work mine
  have frame : s.lastAnswered j w e r x = { s with
      sch := (s.lastAnswered j w e r x).sch, du := (s.lastAnswered j w e r x).du,
      ctl := { s.ctl with progress := some { p with work := .notice (x.answered (answerOf r)) } } } := by
    have held : (s.lastAnswered j w e r x).ctl.progress = some { p with work := .notice (x.answered (answerOf r)) } := by
      unfold State.lastAnswered State.setWork
      exact congrArg (fun o : Option Progress => o.map fun p => { p with work := .notice (x.answered (answerOf r)) }) progress
    rw [← held]
    rfl
  have known := NoticeWork.answered_known (x := x) (a := answerOf r) answerOf_known.1
  have plain' : ∀ i : Screen16, (x.answered (answerOf r)).screens.getLsbD i.val = true → s.isMonitor i = false := plain
  have params : (x.answered (answerOf r)).params = x.params := rfl
  rw [step, ← params]
  generalize s.lastAnswered j w e r x = v at *
  generalize x.answered (answerOf r) = y at *
  have held : v.noticeWork = some y := by
    unfold State.noticeWork
    rw [frame]
  rw [State.placeNotice_ends held known]
  obtain ⟨released, scan, inFlight⟩ := State.noticeReleased_frame y v
  obtain ⟨⟨trk', wlk', -, -, desk'⟩, ctl', clock', -, -⟩ := State.noticePlacing_only y v
  have ctl : (v.noticeReleased y).ctl = v.ctl := by rw [released]; exact ctl'
  obtain ⟨handed, ended⟩ := State.complete_served (v := v.noticeReleased y)
    (p := { p with work := .notice y }) (v.noticeCode y)
    [(v.noticePlacing y).2.screens.toNat, notPresent y.keys] j w (by rw [ctl, frame]) (inFlight f (by rw [frame]; exact busy))
  dsimp only
  generalize (((v.noticeReleased y).complete (v.noticeCode y)
    [(v.noticePlacing y).2.screens.toNat, notPresent y.keys]).serve j w).freePort = u at *
  have eq : u = { (v.noticePlacing y).1 with
      du := u.du, smi := u.smi
      ctl := { (v.noticePlacing y).1.ctl with progress := none } } := by
    rw [ended, released]
  have smi : v.smi = s.smi := by rw [frame]
  have arb : v.arb = s.arb := by rw [frame]
  have links : v.links = s.links := by rw [frame]
  have wlk : v.wlk = s.wlk := by rw [frame]
  have clock : v.clock = s.clock := by rw [frame]
  have back := State.handedBack_of (s := s) (scan.2.2.2.1.trans (by rw [smi])) (scan.1.trans (by rw [smi])) handed
  have placed := State.noticeEnded_of (u := u) (x := y) arb links (by rw [wlk]) plain' (by rw [eq]) back
    (by rw [eq]) (by rw [eq]) (by rw [eq]) (by rw [eq]; exact clock')
  rw [clock] at placed
  refine ⟨?_, ?_, ?_, ?_, placed⟩
  · rw [eq]
    exact trk'.trans (by rw [frame])
  · rw [eq]
    exact wlk'.trans wlk
  · rw [eq]
    exact desk'.trans (by rw [frame])
  · rw [eq]
    show (v.noticePlacing y).1.ctl.engine = _
    rw [ctl', frame]

end Answered

/-! ### The obligation -/

/-- A NOTICE taken: without a key, with an answer PENDING, and with every answer known (R176). -/
theorem notice_taken (t : Time) (s : State) (slot : Slot) (words : List Nat) (n : NoticeParams) (keys : List Key)
    (ans : List (Key × KeyResult)) (screens : BitVec 16) (taken : s.taken slot 7 words) (started : s.ctl.engine ≠ .idle)
    (loaded : s.ctl.engine ≠ .loading) (read : readNotice words = some n) (mask : screens = maskOf (s.noticeScreens n.screens))
    (asked : keys = s.noticeKeys n.title (s.noticeScreens n.screens)) (answers : ans = keys.map (fun k => (k, s.noticeAnswer k))) :
    ∃ u, exec (.notice t) s = .next u ∧ u.smi.rotation = slot ∧ u.ctl.engine = s.ctl.engine ∧
      u.trk = s.trk ∧ u.wlk = s.wlk ∧ u.sch = s.sch ∧ u.desk = s.desk ∧
      (keys = [] → u.finished slot ∧ s.sameBlocks u ∧ s.handedBack u slot .partialDone [0, 0]) ∧
      ((∃ k ∈ keys, s.noticeAnswer k = .pending) →
        u.ctl.progress = some ⟨slot, 7, words, .notice ⟨n.title, n.level, n.duration, screens, ans⟩⟩ ∧
        u.smi.outcomes = s.smi.outcomes ∧ u.arb = s.arb ∧ u.links = s.links) ∧
      (keys ≠ [] → (∀ k ∈ keys, s.noticeAnswer k ≠ .pending) →
        s.noticeEnded u (max s.clock t) slot { n with screens := screens } ans) ∧
      ∀ k ∈ keys, s.keyWaits k = false → (s.cacheSet (setOf k)).find k = none →
        ∀ w, (s.cacheSet (setOf k)).choose = some w →
          ∃ q, (u.way (setOf k) w).entry = some { key := k, state := .fetching 0 q, pins := 1 } := by
  subst mask asked answers
  by_cases none : s.noticeKeys n.title (s.noticeScreens n.screens) = []
  · obtain ⟨u, he, engine, blocks, finished, handed⟩ := notice_keyless (t := t) taken started loaded read none
    obtain ⟨⟨trk, wlk, sch, du, desk⟩, arb, links⟩ := blocks
    refine ⟨u, he, finished.2, engine, trk, wlk, sch, desk, fun _ => ⟨finished, ⟨⟨trk, wlk, sch, du, desk⟩, arb, links⟩, handed⟩,
      ?_, fun some_ => absurd none some_, ?_⟩
    · rw [none]
      rintro ⟨k, there, -⟩
      exact absurd there List.not_mem_nil
    · rw [none]
      exact nofun
  by_cases waits : ∃ k ∈ s.noticeKeys n.title (s.noticeScreens n.screens), s.noticeAnswer k = .pending
  · obtain ⟨k, there, pending⟩ := waits
    have he := notice_waits (t := t) taken started loaded read there pending
    have frame := State.noticeBegun_frame n ((s.begin t).taking slot 7 words)
    refine ⟨_, he, ?_, ?_, ?_, ?_, ?_, ?_, fun empty => absurd empty none, fun _ => ⟨?_, ?_, ?_, ?_⟩,
      fun _ known => absurd pending (known k there), fun k there idle absent w chosen =>
        State.noticeBegun_taken n ((s.begin t).taking slot 7 words) there idle absent chosen⟩
    all_goals
      unfold State.freePort State.setPort
      rw [frame]
      rfl
  · have known : ∀ k ∈ s.noticeKeys n.title (s.noticeScreens n.screens), s.noticeAnswer k ≠ .pending :=
      fun k there pending => waits ⟨k, there, pending⟩
    obtain ⟨u, he, rotation, engine, trk, wlk, sch, desk, ended⟩ := notice_places (t := t) taken started loaded read none known
    refine ⟨u, he, rotation, engine, trk, wlk, sch, desk, fun empty => absurd empty none, fun pending => absurd pending waits,
      fun _ _ => ended, fun k there idle absent w chosen => absurd ?_ (known k there)⟩
    unfold State.noticeAnswer
    rw [idle, absent, chosen]
    rfl

/-- Settles O25: what a NOTICE does as it is taken, and what the last answer does. -/
theorem noticeTaken : Obligations.NoticeTaken := by
  refine ⟨notice_taken, ?_⟩
  intro t d s j w e q p x a still progress work _ mine plain answering uncancelled entry state last
  obtain ⟨f, busy, -, -⟩ := State.answering_busy answering
  have he := execFetchAccessComplete_answered t d answering uncancelled
  have known : a = answerOf (matchAccess e.key d) := by
    rcases last with ⟨h, c, found, rfl⟩ | ⟨none, -, rfl⟩
    · rw [found]
      rfl
    · rw [none]
      rfl
  have ends : matchAccess e.key d ≠ none ∨ 7 ≤ q := by
    rcases last with ⟨h, c, found, -⟩ | ⟨-, eighth, -⟩
    · exact .inl (by rw [found]; exact nofun)
    · exact .inr eighth
  rw [State.fetchAnswered_ends (s := s.begin t) entry state ends] at he
  subst known
  exact ⟨_, he, State.noticeEnded_last (s := s.begin t) (e := e) still progress work mine plain busy⟩

end Sys2Proof.Machine
end
